-- ==== Sys2Proof/Word.lean ====
section
/-!
DEFINITION. The word types of the Helith HL4 and the shape of sparse tables.
-/
namespace Sys2Proof

/-- One byte of storage (R3: little-endian throughout). -/
abbrev Byte := BitVec 8

/-- A scalar register or an aligned 8-byte word. -/
abbrev Word := BitVec 64

/-- A vector register: 16 lanes of 128 bits (R59, R60). -/
abbrev VWord := BitVec 2048

/-- One accumulator row: 1024 FP32 elements (R68). -/
abbrev AccRow := BitVec 32768

/-- A sparse table keyed by a number: keys strictly rising, and no entry equal to the value that an
unlisted key reads as. `Tab.get` and `Tab.set` (Machine/Tab.lean) read and write it. -/
abbrev Tab (α : Type) := List (Nat × α)

end Sys2Proof
end

