-- ==== Sys2Proof/Machine/Tab.lean ====
section
/-!
DEFINITION. Sparse tables and byte lists: the reads and writes that everything held in `Tab` goes through, and the
little-endian (R3) joining and splitting of bytes.
-/
namespace Sys2Proof.Machine

/-- The value at key `i`, `d` where the table lists none. -/
def tabGet {α : Type} (d : α) : Tab α → Nat → α
  | [], _ => d
  | (k, v) :: t, i => if i = k then v else if i < k then d else tabGet d t i

/-- Write `v` at key `i`, keeping the canonical form: keys rising, no entry equal to `d`. -/
def tabSet {α : Type} [DecidableEq α] (d : α) : Tab α → Nat → α → Tab α
  | [], i, v => if v = d then [] else [(i, v)]
  | (k, w) :: t, i, v =>
    if i < k then (if v = d then (k, w) :: t else (i, v) :: (k, w) :: t)
    else if i = k then (if v = d then t else (k, v) :: t)
    else (k, w) :: tabSet d t i v

/-- Every key of the table is above `b`, keys rise, and no entry equals `d`. -/
def tabWfFrom {α : Type} [DecidableEq α] (d : α) : Nat → Tab α → Bool
  | _, [] => true
  | b, (k, v) :: t => decide (b ≤ k) && !decide (v = d) && tabWfFrom d (k + 1) t

/-- The canonical form of a table. -/
def tabWf {α : Type} [DecidableEq α] (d : α) (t : Tab α) : Bool := tabWfFrom d 0 t

/-- Drop the entries whose keys lie in `[lo, hi)`. -/
def tabErase {α : Type} (lo hi : Nat) (t : Tab α) : Tab α :=
  t.filter fun e => !(decide (lo ≤ e.1) && decide (e.1 < hi))

/-- Write a value at each of consecutive keys from `i`. -/
def tabSetMany {α : Type} [DecidableEq α] (d : α) (t : Tab α) (i : Nat) : List α → Tab α
  | [] => t
  | v :: vs => tabSetMany d (tabSet d t i v) (i + 1) vs

/-- The values at `n` consecutive keys from `i`. -/
def tabGetMany {α : Type} (d : α) (t : Tab α) (i n : Nat) : List α :=
  (List.range n).map fun j => tabGet d t (i + j)

/-- Element `i` of a list, `d` beyond its end. -/
def nth {α : Type} (d : α) (l : List α) (i : Nat) : α := l.getD i d

/-- A list with element `i` replaced; unchanged beyond its end. -/
def setNth {α : Type} (l : List α) (i : Nat) (v : α) : List α := l.set i v

/-- Apply `f` to element `i`. -/
def modNth {α : Type} (l : List α) (i : Nat) (f : α → α) : List α := l.modify i f

/-- The number that bytes spell, least significant first (R3). -/
def leNat : List Byte → Nat
  | [] => 0
  | b :: bs => b.toNat + 256 * leNat bs

/-- The `n` low bytes of a number, least significant first (R3). -/
def natLe : Nat → Nat → List Byte
  | 0, _ => []
  | n + 1, v => BitVec.ofNat 8 v :: natLe n (v / 256)

/-- Bits `[lo + w - 1 : lo]` of a number. -/
def bitsOf (v lo w : Nat) : Nat := v / 2 ^ lo % 2 ^ w

/-- Bit `i` of a number. -/
def bitOf (v i : Nat) : Bool := v / 2 ^ i % 2 == 1

/-- A number with bits `[lo + w - 1 : lo]` replaced. -/
def setBits (v lo w x : Nat) : Nat :=
  v - bitsOf v lo w * 2 ^ lo + x % 2 ^ w * 2 ^ lo

/-- The two's complement value of the low `w` bits of `v`. -/
def sextNat (w v : Nat) : Int :=
  let u := v % 2 ^ w
  if u < 2 ^ (w - 1) then (u : Int) else (u : Int) - (2 ^ w : Nat)

/-- An integer as a `w`-bit two's complement number. -/
def intMod (w : Nat) (i : Int) : Nat := (i % ((2 ^ w : Nat) : Int)).toNat

/-- 0 or 1. -/
def b01 (b : Bool) : Nat := if b then 1 else 0

/-- The numbers from `lo` up to, not including, `hi`. -/
def rangeFrom (lo hi : Nat) : List Nat := (List.range (hi - lo)).map (· + lo)

/-- `n` rounded up to a multiple of `k`. -/
def roundUp (n k : Nat) : Nat := (n + k - 1) / k * k

/-- Pad with zero bytes, or cut, to `n` bytes. -/
def fitBytes (n : Nat) (l : List Byte) : List Byte := (l ++ List.replicate (n - l.length) 0).take n

/-- The halves `[lo, lo + n)` of byte runs overlap. -/
def overlaps (a n b m : Nat) : Bool := decide (a < b + m) && decide (b < a + n)

/-- The distinct members of a list, in order of their first places. -/
def distinct (l : List Nat) : List Nat := l.foldl (fun a x => if a.contains x then a else a ++ [x]) []

end Sys2Proof.Machine
end

