-- ==== Sys2Proof/Machine/Fp.lean ====
section
/-!
DEFINITION. Number formats and arithmetic (02 R29 to R48): decoding, rounding with flags, the NaN rule, and the
operations of the scalar, vector and array units on exact dyadic values.
-/
namespace Sys2Proof.Machine

/-- Rounding modes (R38). -/
inductive RMode where
  | rne
  | rtz
  | rup
  | rdn
  deriving DecidableEq, Repr

/-- The mode of a rounding code 0 to 3 (R38). -/
def rmodeOf (n : Nat) : RMode :=
  if n = 0 then .rne else if n = 1 then .rtz else if n = 2 then .rup else .rdn

/-- A floating format (R31): element width, mantissa bits, bias, and whether it is E4M3, which has no
infinities (R32). -/
structure FFmt where
  w    : Nat
  m    : Nat
  bias : Nat
  e4m3 : Bool
  deriving DecidableEq, Repr

def f64 : FFmt := ⟨64, 52, 1023, false⟩
def f32 : FFmt := ⟨32, 23, 127, false⟩
def bf16 : FFmt := ⟨16, 7, 127, false⟩
def f16 : FFmt := ⟨16, 10, 15, false⟩
def fE5m2 : FFmt := ⟨8, 2, 15, false⟩
def fE4m3 : FFmt := ⟨8, 3, 7, true⟩

/-- The flags of fst (R49) as a mask. -/
abbrev Flg := BitVec 7

def fNV : Flg := 1
def fDZ : Flg := 2
def fOF : Flg := 4
def fUF : Flg := 8
def fNX : Flg := 16
def fAMNAN : Flg := 32
def fXRANGE : Flg := 64

/-- A decoded value: a NaN with its sign and mantissa field, an infinity, or `(-1)^neg * mant * 2^exp`. -/
inductive FVal where
  | nan (neg : Bool) (frac : Nat)
  | inf (neg : Bool)
  | fin (neg : Bool) (mant : Nat) (exp : Int)
  deriving DecidableEq, Repr

/-- An exact dyadic number `(-1)^neg * mant * 2^exp`; zero keeps its sign. -/
structure Dy where
  neg  : Bool
  mant : Nat
  exp  : Int
  deriving DecidableEq, Repr

/-- A result: the encoding and the flags raised. -/
abbrev FRes := Nat × Flg

/-- The all-ones exponent field. -/
def emaxField (f : FFmt) : Nat := 2 ^ (f.w - 1 - f.m) - 1

/-- The value of an encoding (R32). -/
def fdecode (f : FFmt) (b : Nat) : FVal :=
  let s := bitOf b (f.w - 1)
  let e := bitsOf b f.m (f.w - 1 - f.m)
  let m := bitsOf b 0 f.m
  if e = 0 then .fin s m (1 - (f.bias : Int) - f.m)
  else if e = emaxField f ∧ f.e4m3 = false then (if m = 0 then .inf s else .nan s m)
  else if e = emaxField f ∧ m = 7 then .nan s m
  else .fin s (2 ^ f.m + m) ((e : Int) - f.bias - f.m)

/-- The sign bit in place. -/
def fsign (f : FFmt) (neg : Bool) : Nat := b01 neg * 2 ^ (f.w - 1)

/-- The infinity of a format; E4M3 has its NaN in that place (R46). -/
def finfBits (f : FFmt) (neg : Bool) : Nat :=
  fsign f neg + (if f.e4m3 then 0x7F else emaxField f * 2 ^ f.m)

/-- The largest finite number (R31). -/
def fmaxBits (f : FFmt) (neg : Bool) : Nat :=
  fsign f neg + (if f.e4m3 then 0x7E else emaxField f * 2 ^ f.m - 1)

/-- The canonical quiet NaN (R41). -/
def fcanon (f : FFmt) : Nat :=
  if f.e4m3 then 0x7F else emaxField f * 2 ^ f.m + 2 ^ (f.m - 1)

def fisNan (f : FFmt) (b : Nat) : Bool :=
  match fdecode f b with
  | .nan _ _ => true
  | _ => false

/-- Signalling: the top mantissa bit is 0 (R32). E4M3 has none. -/
def fisSnan (f : FFmt) (b : Nat) : Bool :=
  fisNan f b && !bitOf b (f.m - 1)

def fisInf (f : FFmt) (b : Nat) : Bool :=
  match fdecode f b with
  | .inf _ => true
  | _ => false

/-- quiet(v) (R30). -/
def fquiet (f : FFmt) (b : Nat) : Nat :=
  if bitOf b (f.m - 1) then b else b + 2 ^ (f.m - 1)

/-- `mant / 2^sh` rounded to an integer by the mode, and whether it was inexact. -/
def roundShift (mode : RMode) (neg : Bool) (mant sh : Nat) : Nat × Bool :=
  let q := mant / 2 ^ sh
  let r := mant % 2 ^ sh
  if r = 0 then (q, false)
  else
    let up := match mode with
      | .rne => decide (2 ^ sh < 2 * r) || (decide (2 * r = 2 ^ sh) && decide (q % 2 = 1))
      | .rtz => false
      | .rup => !neg
      | .rdn => neg
    (if up then q + 1 else q, true)

/-- A dyadic rounded to a multiple of `2^e`: the multiple, and whether it was inexact. -/
def roundAt (mode : RMode) (x : Dy) (e : Int) : Nat × Bool :=
  if e ≤ x.exp then (x.mant * 2 ^ (x.exp - e).toNat, false)
  else roundShift mode x.neg x.mant (e - x.exp).toNat

/-- floor(log2 |x|) of a nonzero dyadic. -/
def dyLog (x : Dy) : Int := x.exp + (Nat.log2 x.mant : Int)

/-- The overflow result of R39. -/
def overflowBits (f : FFmt) (mode : RMode) (neg : Bool) : Nat :=
  let away := match mode with
    | .rne => true
    | .rtz => false
    | .rup => !neg
    | .rdn => neg
  if away then finfBits f neg else fmaxBits f neg

/-- Rounding to `m + 1` significant bits with an unbounded exponent: the integer significand in
`[2^m, 2^(m+1))`, the exponent of its leading bit, and whether it was inexact. -/
def roundSig (f : FFmt) (mode : RMode) (x : Dy) : Nat × Int × Bool :=
  let l := dyLog x
  let (q, ix) := roundAt mode x (l - f.m)
  if q = 2 ^ (f.m + 1) then (2 ^ f.m, l + 1, ix) else (q, l, ix)

/-- Does the rounded significand at exponent `e` exceed the largest finite number? -/
def overRange (f : FFmt) (q : Nat) (e : Int) : Bool :=
  if f.e4m3 then decide (8 < e) || (decide (e = 8) && decide (14 < q))
  else decide ((f.bias : Int) < e)

/-- round_to(x, fmt, mode) (R39) of a finite dyadic. -/
def roundTo (f : FFmt) (mode : RMode) (x : Dy) : FRes :=
  if x.mant = 0 then (fsign f x.neg, 0)
  else
    let (q, e, ix) := roundSig f mode x
    if overRange f q e then (overflowBits f mode x.neg, fOF ||| fNX)
    else if e < 1 - (f.bias : Int) then
      let (z, zx) := roundAt mode x (1 - (f.bias : Int) - f.m)
      (fsign f x.neg + z, if zx then fUF ||| fNX else 0)
    else (fsign f x.neg + (e + f.bias).toNat * 2 ^ f.m + (q - 2 ^ f.m), if ix then fNX else 0)

/-- Does a value overflow the format when rounded (R46)? -/
def overflows (f : FFmt) (mode : RMode) (x : Dy) : Bool :=
  if x.mant = 0 then false
  else
    let (q, e, _) := roundSig f mode x
    overRange f q e

/-! ### Exact sums and products -/

def dyNeg (x : Dy) : Dy := { x with neg := !x.neg }

/-- The integer `x / 2^e` for `e ≤ x.exp`. -/
def dyInt (x : Dy) (e : Int) : Int :=
  let m : Int := ((x.mant * 2 ^ (x.exp - e).toNat : Nat) : Int)
  if x.neg then -m else m

/-- A dyadic from an integer times `2^e`; zero is +0. -/
def dyOfInt (i : Int) (e : Int) : Dy := ⟨decide (i < 0), i.natAbs, e⟩

/-- The exact sum, an exact zero signed by R40. -/
def dyAdd (mode : RMode) (x y : Dy) : Dy :=
  let e := if x.exp ≤ y.exp then x.exp else y.exp
  let s := dyInt x e + dyInt y e
  if s = 0 then
    if x.mant = 0 ∧ y.mant = 0 ∧ x.neg = y.neg then ⟨x.neg, 0, e⟩
    else ⟨decide (mode = .rdn), 0, e⟩
  else dyOfInt s e

def dyMul (x y : Dy) : Dy := ⟨xor x.neg y.neg, x.mant * y.mant, x.exp + y.exp⟩

/-- The integer square root, by bits from `i` down. -/
def isqrtFrom : Nat → Nat → Nat → Nat
  | 0, _, r => r
  | i + 1, n, r => if (r + 2 ^ i) * (r + 2 ^ i) ≤ n then isqrtFrom i n (r + 2 ^ i) else isqrtFrom i n r

def isqrt (n : Nat) : Nat := isqrtFrom (Nat.log2 n / 2 + 1) n 0

/-- A number that rounds as `num / den * 2^e` does: at least `p` quotient bits and a sticky bit. -/
def dyQuot (p : Nat) (neg : Bool) (num den : Nat) (e : Int) : Dy :=
  let k := p + Nat.log2 den + 1
  let q := num * 2 ^ k / den
  let r := num * 2 ^ k % den
  ⟨neg, 2 * q + (if r = 0 then 0 else 1), e - k - 1⟩

/-- A number that rounds as the square root of `mant * 2^e` does. -/
def dySqrt (p mant : Nat) (e : Int) : Dy :=
  let k := 2 * p + (if (e % 2 = 1) then 1 else 0)
  let n := mant * 2 ^ k
  let r := isqrt n
  ⟨false, 2 * r + (if r * r = n then 0 else 1), (e - k) / 2 - 1⟩

/-- A number that rounds as the reciprocal square root of `mant * 2^e` does. -/
def dyRsqrt (p mant : Nat) (e : Int) : Dy :=
  let (m, e') := if e % 2 = 1 then (2 * mant, e - 1) else (mant, e)
  let k := p + Nat.log2 m + 1
  let n := 2 ^ (2 * k) / m
  let r := isqrt n
  ⟨false, 2 * r + (if r * r * m = 2 ^ (2 * k) then 0 else 1), -(e' / 2) - k - 1⟩

/-! ### The NaN rule (R42) -/

/-- The result of R42 when some operand is a NaN or the operation is invalid. -/
def nanRule (f : FFmt) (ops : List Nat) (invalid : Bool) : Option FRes :=
  let fl : Flg := if ops.any (fisSnan f) || invalid then fNV else 0
  match ops.find? (fisNan f) with
  | some a => some (fquiet f a, fl)
  | none => if invalid then some (fcanon f, fl) else none

/-- A signed value's dyadic part; 0 for a NaN or an infinity. -/
def fdy : FVal → Dy
  | .fin s m e => ⟨s, m, e⟩
  | .inf s => ⟨s, 0, 0⟩
  | .nan s _ => ⟨s, 0, 0⟩

def fneg? : FVal → Bool
  | .fin s _ _ => s
  | .inf s => s
  | .nan s _ => s

def visInf : FVal → Bool
  | .inf _ => true
  | _ => false

def visZero : FVal → Bool
  | .fin _ m _ => m == 0
  | _ => false

/-- A number or an infinity below zero, which has no square root and no logarithm; a NaN is none (R42). -/
def belowZero (v : FVal) : Bool :=
  match v with
  | .nan _ _ => false
  | _ => fneg? v && !visZero v

/-- a + b, b negated when `sub` (R170). -/
def fadd (f : FFmt) (mode : RMode) (sub : Bool) (a b : Nat) : FRes :=
  let va := fdecode f a
  let vb := fdecode f b
  let sb := xor (fneg? vb) sub
  let invalid := visInf va && visInf vb && (fneg? va != sb)
  match nanRule f [a, b] invalid with
  | some r => r
  | none =>
    if visInf va then (finfBits f (fneg? va), 0)
    else if visInf vb then (finfBits f sb, 0)
    else roundTo f mode (dyAdd mode (fdy va) { fdy vb with neg := sb })

def fmul (f : FFmt) (mode : RMode) (a b : Nat) : FRes :=
  let va := fdecode f a
  let vb := fdecode f b
  let s := xor (fneg? va) (fneg? vb)
  let invalid := (visInf va && visZero vb) || (visZero va && visInf vb)
  match nanRule f [a, b] invalid with
  | some r => r
  | none =>
    if visInf va || visInf vb then (finfBits f s, 0)
    else roundTo f mode (dyMul (fdy va) (fdy vb))

def fdiv (f : FFmt) (mode : RMode) (a b : Nat) : FRes :=
  let va := fdecode f a
  let vb := fdecode f b
  let s := xor (fneg? va) (fneg? vb)
  let invalid := (visInf va && visInf vb) || (visZero va && visZero vb)
  match nanRule f [a, b] invalid with
  | some r => r
  | none =>
    if visInf va then (finfBits f s, 0)
    else if visInf vb then (fsign f s, 0)
    else if visZero vb then (finfBits f s, fDZ)
    else if visZero va then (fsign f s, 0)
    else roundTo f mode (dyQuot (f.m + 3) s (fdy va).mant (fdy vb).mant ((fdy va).exp - (fdy vb).exp))

def fsqrt (f : FFmt) (mode : RMode) (a : Nat) : FRes :=
  let va := fdecode f a
  let invalid := belowZero va
  match nanRule f [a] invalid with
  | some r => r
  | none =>
    if visInf va then (finfBits f false, 0)
    else if visZero va then (fsign f (fneg? va), 0)
    else roundTo f mode (dySqrt (f.m + 3) (fdy va).mant (fdy va).exp)

/-- `±(a × b) ± c`, rounded once (R172): `np` negates the product, `nc` the addend. -/
def ffma (f : FFmt) (mode : RMode) (np nc : Bool) (a b c : Nat) : FRes :=
  let va := fdecode f a
  let vb := fdecode f b
  let vc := fdecode f c
  let sp := xor (xor (fneg? va) (fneg? vb)) np
  let sc := xor (fneg? vc) nc
  let pinf := visInf va || visInf vb
  let inv0 := (visInf va && visZero vb) || (visZero va && visInf vb)
  let nanOp := fisNan f a || fisNan f b
  let invalid := inv0 || (!nanOp && pinf && visInf vc && (sp != sc))
  match nanRule f [a, b, c] invalid with
  | some r => r
  | none =>
    if pinf then (finfBits f sp, 0)
    else if visInf vc then (finfBits f sc, 0)
    else roundTo f mode (dyAdd mode { dyMul (fdy va) (fdy vb) with neg := sp } { fdy vc with neg := sc })

/-! ### Order (R44, R167) -/

/-- The magnitude bits of an encoding. -/
def fmag (f : FFmt) (b : Nat) : Nat := b % 2 ^ (f.w - 1)

/-- An integer that orders non-NaN encodings, −0 below +0 (R44). -/
def ftotal (f : FFmt) (b : Nat) : Int :=
  if bitOf b (f.w - 1) then -(fmag f b : Int) - 1 else (fmag f b : Int)

/-- An integer that orders non-NaN encodings, −0 equal to +0 (R167). -/
def fkey (f : FFmt) (b : Nat) : Int :=
  if bitOf b (f.w - 1) then -(fmag f b : Int) else (fmag f b : Int)

def fminmax (f : FFmt) (max : Bool) (a b : Nat) : FRes :=
  match nanRule f [a, b] false with
  | some r => r
  | none =>
    let aLess := decide (ftotal f a ≤ ftotal f b)
    (if aLess = max then b else a, 0)

/-- The operand of larger magnitude, the positive one when they are equal (R44). -/
def fmaxm (f : FFmt) (a b : Nat) : FRes :=
  match nanRule f [a, b] false with
  | some r => r
  | none =>
    (if fmag f b < fmag f a then a
     else if fmag f a < fmag f b then b
     else if bitOf a (f.w - 1) then b else a, 0)

/-- The floating conditions of R167. -/
inductive FCmp where
  | eq
  | lt
  | le
  | un
  deriving DecidableEq, Repr

def fcompare (f : FFmt) (c : FCmp) (a b : Nat) : Bool × Flg :=
  let nan := fisNan f a || fisNan f b
  let snan : Flg := if fisSnan f a || fisSnan f b then fNV else 0
  let any : Flg := if nan then fNV else 0
  match c with
  | .eq => (!nan && decide (fkey f a = fkey f b), snan)
  | .lt => (!nan && decide (fkey f a < fkey f b), any)
  | .le => (!nan && decide (fkey f a ≤ fkey f b), any)
  | .un => (nan, snan)

/-! ### Conversion (R43, R45 to R48) -/

/-- A NaN of format `src` as a NaN of format `dst` (R43). -/
def cvtNan (src dst : FFmt) (neg : Bool) (frac : Nat) : FRes :=
  let fl : Flg := if !src.e4m3 && !bitOf frac (src.m - 1) then fNV else 0
  let bits :=
    if dst.e4m3 then 0x7F
    else if dst.w = 8 then 0x7E
    else
      let p := if src.m ≤ dst.m then frac * 2 ^ (dst.m - src.m) else frac / 2 ^ (src.m - dst.m)
      emaxField dst * 2 ^ dst.m + (if bitOf p (dst.m - 1) then p else p + 2 ^ (dst.m - 1))
  (fsign dst neg + bits, fl)

/-- Conversion of a value that is not a NaN into an 8-bit float (R46). -/
def toFloat8 (dst : FFmt) (nsat : Bool) (mode : RMode) (v : FVal) : FRes :=
  match v with
  | .nan s _ => (fsign dst s + (if dst.e4m3 then 0x7F else 0x7E), 0)
  | .inf s =>
    if nsat then (finfBits dst s, if dst.e4m3 then fNV else 0) else (fmaxBits dst s, fNX)
  | .fin s m e =>
    if overflows dst mode ⟨s, m, e⟩ then
      (if !nsat then fmaxBits dst s else if dst.e4m3 then finfBits dst s else overflowBits dst mode s, fOF ||| fNX)
    else roundTo dst mode ⟨s, m, e⟩

/-- Floating to floating conversion; `nsat` matters to 8-bit targets only. -/
def cvtFloat (src dst : FFmt) (nsat : Bool) (mode : RMode) (b : Nat) : FRes :=
  match fdecode src b with
  | .nan s m => cvtNan src dst s m
  | .inf s => if dst.w = 8 then toFloat8 dst nsat mode (.inf s) else (finfBits dst s, 0)
  | .fin s m e => if dst.w = 8 then toFloat8 dst nsat mode (.fin s m e) else roundTo dst mode ⟨s, m, e⟩

/-- A dyadic rounded to an integer by the mode, and whether it was inexact. -/
def dyToInt (mode : RMode) (x : Dy) : Int × Bool :=
  let (q, ix) := roundAt mode x 0
  (if x.neg then -(q : Int) else (q : Int), ix)

/-- The range of a `w`-bit integer. -/
def intLo (signed : Bool) (w : Nat) : Int := if signed then -((2 ^ (w - 1) : Nat) : Int) else 0
def intHi (signed : Bool) (w : Nat) : Int := if signed then ((2 ^ (w - 1) : Nat) : Int) - 1 else ((2 ^ w : Nat) : Int) - 1

/-- Floating to integer (R47); the result as a `w`-bit field. -/
def floatToInt (src : FFmt) (signed : Bool) (w : Nat) (mode : RMode) (b : Nat) : FRes :=
  match fdecode src b with
  | .nan _ _ => (0, fNV)
  | .inf s => (intMod w (if s then intLo signed w else intHi signed w), fNV)
  | .fin s m e =>
    let (i, ix) := dyToInt mode ⟨s, m, e⟩
    if i < intLo signed w then (intMod w (intLo signed w), fNV)
    else if intHi signed w < i then (intMod w (intHi signed w), fNV)
    else (intMod w i, if ix then fNX else 0)

/-- Integer to floating: round_to of the integer (R47). DESIGN CHOICE between R197 with R47, which give round_to, and R46, whose
saturation covers every conversion into an 8-bit float: an integer beyond E5M2 saturates as R46 has it (log entry 154). -/
def intToFloat (dst : FFmt) (nsat : Bool) (mode : RMode) (i : Int) : FRes :=
  if dst.w = 8 then toFloat8 dst nsat mode (.fin (decide (i < 0)) i.natAbs 0)
  else roundTo dst mode (dyOfInt i 0)

/-- An MX format (R36): element bits and fraction bits. -/
structure MxFmt where
  n : Nat
  f : Nat
  deriving DecidableEq, Repr

def mxint8 : MxFmt := ⟨8, 6⟩
def mxint6 : MxFmt := ⟨6, 4⟩
def mxint4 : MxFmt := ⟨4, 2⟩

/-- The bytes of a block of 32 elements (R36). -/
def mxBytes (x : MxFmt) : Nat := 4 * x.n

/-- The value of an element field under scale `X` (R36); a poisoned block gives none (R37). -/
def mxValue (x : MxFmt) (X field : Nat) : Option Dy :=
  if X = 0xFF then none
  else some (dyOfInt (sextNat x.n field) ((X : Int) - 127 - x.f))

/-- One element of a block whose scale `X` is not 0xFF (R48). -/
def mxQuant (x : MxFmt) (X : Nat) (mode : RMode) (v : FVal) : FRes :=
  match v with
  | .nan _ _ => (0, 0)
  | .inf s => (intMod x.n (if s then intLo true x.n else intHi true x.n), fNX)
  | .fin s m e =>
    let (i, ix) := dyToInt mode ⟨s, m, e + 127 - X + x.f⟩
    if i < intLo true x.n then (intMod x.n (intLo true x.n), fOF ||| fNX)
    else if intHi true x.n < i then (intMod x.n (intHi true x.n), fOF ||| fNX)
    else (intMod x.n i, if ix then fNX else 0)

/-- |v| as an FP32 for a max-magnitude update (R55): binary64 rounded up; `none` for a NaN. -/
def magFp32 (f : FFmt) (b : Nat) : Option Nat :=
  match fdecode f b with
  | .nan _ _ => none
  | .inf _ => some (finfBits f32 false)
  | .fin _ m e => some (roundTo f32 .rup ⟨false, m, e⟩).1

/-! ### The array's dot product (R53) -/

/-- The exact product of two decoded values, as a term of R53: a NaN for a NaN operand or 0 × ∞. -/
def termMul (a b : FVal) : FVal :=
  match a, b with
  | .nan s m, _ => .nan s m
  | _, .nan s m => .nan s m
  | .inf s, v => if visZero v then .nan false 1 else .inf (xor s (fneg? v))
  | v, .inf s => if visZero v then .nan false 1 else .inf (xor s (fneg? v))
  | .fin s m e, .fin t n g => .fin (xor s t) (m * n) (e + g)

def visNan : FVal → Bool
  | .nan _ _ => true
  | _ => false

/-- `trunc(t / 2^L)` towards zero, signed. -/
def truncAt (L : Int) (t : Dy) : Int :=
  let q := (roundAt .rtz { t with neg := false } L).1
  if t.neg then -(q : Int) else (q : Int)

def intMaxL : Int → List Int → Int
  | a, [] => a
  | a, b :: l => intMaxL (if a ≤ b then b else a) l

/-- exact_dot over the terms (R53): the FP32 result of one column of one beat. -/
def exactDot (terms : List FVal) : Nat :=
  if terms.any visNan
      || (terms.any (fun t => visInf t && !fneg? t) && terms.any (fun t => visInf t && fneg? t)) then 0x7FC00000
  else match terms.find? visInf with
  | some t => finfBits f32 (fneg? t)
  | none =>
    let ds := terms.map fdy
    match (ds.filter fun d => d.mant != 0).map dyLog with
    | [] => if ds.all (·.neg) && !ds.isEmpty then 0x80000000 else 0
    | e0 :: es =>
      let L := intMaxL e0 es - 86
      let S := (ds.map (truncAt L)).foldl (· + ·) 0
      if S = 0 then 0 else (roundTo f32 .rne (dyOfInt S L)).1

end Sys2Proof.Machine
end

