-- ==== Sys2Proof/Syntax.lean ====
section
/-!
DEFINITION. What the machine is told: the operands of messages, flits, packets and configuration images that
cross the package's edge, and `Instr`, one constructor for each row of spec/opcode_table.json.

A slot instruction carries the fields of its slot word under the letters that the table gives them. An event of
the table has no word; its operands are what the spec says the event names.
-/
namespace Sys2Proof

/-- The two kinds of core-local storage (R65, R67). -/
inductive Space where
  | spad
  | win
  deriving DecidableEq, Repr, Inhabited

/-- Which register set of a core: a resident stage context or the curator (R11, R328). -/
inductive Who where
  | a
  | b
  | cur
  deriving DecidableEq, Repr, Inhabited

/-- The four register files with full/empty bits (R87), in the order of KVAL's file code (R393). -/
inductive RegFile where
  | x
  | v
  | m
  | q
  deriving DecidableEq, Repr, Inhabited

/-- One register with a full/empty bit. -/
structure RegName where
  file : RegFile
  num  : Nat
  deriving DecidableEq, Repr, Inhabited

/-- A 20-bit port address (R25). -/
structure PortAddr where
  chip : Nat
  core : Nat
  ctx  : Bool
  port : Nat
  deriving DecidableEq, Repr, Inhabited

/-- A token: header fields (R12, R74) and payload. -/
structure Token where
  seq     : Nat
  ticket  : Nat
  type    : Nat
  source  : Nat
  tag     : Word
  payload : List Byte
  deriving DecidableEq, Repr, Inhabited

/-- A flit before protection: the header fields of R419 and the payload. -/
structure Flit where
  dchip     : Nat
  schip     : Nat
  partition : Nat
  cls       : Nat
  kslot     : Nat
  type      : Nat
  length    : Nat
  seq       : Nat
  route     : BitVec 48
  payload   : List Byte
  deriving DecidableEq, Repr, Inhabited

/-- One frame of a link direction as it stands on the lane: the 16 header bytes, 224 body bytes, the tag, and the
trailer of R428. -/
structure Frame where
  header  : BitVec 128
  body    : List Byte
  tag     : BitVec 128
  lseq    : Nat
  ack     : Nat
  nack    : Bool
  fv      : Bool
  cclass  : Nat
  credits : Nat
  crc     : BitVec 32
  deriving DecidableEq, Repr, Inhabited

/-- One Plinth frame: the 32-byte header of R444, the body and the tag, and the UDP destination port of its datagram
(R443). -/
structure PlinthFrame where
  header : BitVec 256
  body   : List Byte
  tag    : BitVec 128
  udp    : BitVec 16
  deriving DecidableEq, Repr, Inhabited

/-! ### Configuration images (R354) -/

/-- A half-open range of a core's storage. -/
structure Window where
  space : Space
  base  : Nat
  len   : Nat
  deriving DecidableEq, Repr, Inhabited

/-- An input port's ring binding (R14, R354). -/
structure RingCfg where
  base      : Nat
  n         : Nat
  es        : Nat
  reorder   : Bool
  maxlen    : Nat
  cow       : Bool
  producers : List PortAddr
  deriving DecidableEq, Repr, Inhabited

/-- An output port's binding (R10, R114): its consumer, or the host for an egress port (R407). -/
structure OutCfg where
  peer    : PortAddr
  egress  : Bool
  reorder : Bool
  n       : Nat
  maxlen  : Nat
  classes : BitVec 16
  deriving DecidableEq, Repr, Inhabited

/-- The upper bound of a range task (R10, R369). -/
inductive RangeSrc where
  | none
  | const (hi : Nat)
  | port (n : Nat)
  deriving DecidableEq, Repr, Inhabited

/-- A stream-backed window of an input port (R391). -/
structure PortWindow where
  port  : Nat
  vbase : BitVec 80
  step  : Nat
  pub   : BitVec 56
  deriving DecidableEq, Repr, Inhabited

/-- Bytes that apply writes to the storage of an entry's core (R354, R468). -/
structure DataItem where
  space : Space
  addr  : Nat
  bytes : List Byte
  deriving DecidableEq, Repr, Inhabited

/-- One context entry of an image part (R354), with its data sections in their order and the stage definition of R10. `arrayUse` is what R355 makes of the
program share; apply sets it from the share. -/
structure StageCfg where
  core      : Nat
  ctx       : Bool
  stage     : Nat
  prio      : Nat
  staged    : Bool
  arrayUse  : Bool
  first     : Nat
  size      : Nat
  program   : List (BitVec 256)
  entry     : Nat
  trig      : List (Nat × Nat)
  need      : List (Nat × Nat)
  weights   : List ((Bool × Nat) × Nat)
  ins       : Tab RingCfg
  outs      : Tab OutCfg
  stateMap  : List Window
  dataMap   : List Window
  arena     : Option Nat
  evq       : Option Nat
  xbp       : BitVec 12
  gang      : List Nat
  range     : RangeSrc
  grain     : Nat
  shadow    : Nat
  snap      : Option Window
  markMode  : Bool
  windows   : List PortWindow
  fallback  : Option (Nat × Window)
  data      : List DataItem
  deriving DecidableEq, Repr, Inhabited

/-- One slot-table entry (R422): the lost chip that keys a replacement entry, if any (R458). -/
structure SlotEntry where
  slot  : Nat
  out   : Nat
  inp   : Nat
  keyed : Option Nat
  deriving DecidableEq, Repr, Inhabited

/-- A replay area of an ingress port (R408): its capacity in tokens and the fabric address, with the package, where it lies. -/
structure IngressCfg where
  port     : PortAddr
  capacity : Nat
  area     : Nat
  deriving DecidableEq, Repr, Inhabited

/-- What firmware reads from an image part (R354, R458). -/
structure ImagePart where
  format    : Nat
  image     : Nat
  chip      : Nat
  partition : Nat
  region    : Nat
  stages    : Nat
  hangint   : Nat
  homeChip  : Nat
  homeCore  : Nat
  dump      : Option (Nat × Window)
  period    : Nat
  ingress   : List IngressCfg
  sinks     : List (Nat × Nat)
  chips     : List Nat
  contexts  : List StageCfg
  slots     : List SlotEntry
  fallback  : Bool
  lostOf    : Option Nat
  fallbacks : List (Nat × Nat)
  deriving DecidableEq, Repr, Inhabited

/-! ### Messages of the host port (R447) -/

/-- One boot packet (R454): its 64-byte header and payload. -/
structure BootPacket where
  header  : BitVec 512
  payload : List Byte
  deriving DecidableEq, Repr, Inhabited

/-- Parameters of a partition on a package (R340). -/
structure PartParams where
  num     : Nat
  asid    : BitVec 16
  cores   : List Nat
  kvec    : BitVec 29
  fqbase  : BitVec 12
  first   : Nat
  count   : Nat
  krow    : Nat
  ptbase  : BitVec 56
  tree    : Option (Nat × Nat)
  l       : Nat
  p       : Nat
  n       : Nat
  save    : Option (BitVec 56 × Nat)
  plinth  : Nat
  channel : Nat
  deriving DecidableEq, Repr, Inhabited

/-- The SPDM requests of R464. -/
inductive SpdmReq where
  | version
  | capabilities
  | algorithms
  | digests
  | certificate
  | challenge (nonce : BitVec 256)
  | measurements (index : Nat) (nonce : BitVec 256)
  | keyExchange (exchange : List Byte)
  | finish (verify : BitVec 384)
  | keyUpdate
  | endSession
  deriving DecidableEq, Repr, Inhabited

/-- A write to the routing tables (R424, R426, R451). -/
inductive RouteWrite where
  | route (dchip : Nat) (entry : BitVec 32)
  | escape (dchip : Nat) (entry : BitVec 8)
  | dltime (cc : Nat)
  deriving DecidableEq, Repr, Inhabited

/-- Management requests (R451). -/
inductive Mgmt where
  | createPartition (p : PartParams)
  | destroyPartition (part : Nat)
  | openChannel (ch part : Nat)
  | closeChannel (ch part : Nat)
  | restartCurator (core : Nat)
  | retireCore (core : Nat)
  | installStorageKey (part : Nat) (key : BitVec 256)
  | abortSegment (part region : Nat)
  | rollBackRegion (part region : Nat)
  | replacePackage (part region lost new : Nat)
  | writeRouting (w : RouteWrite)
  | readTelemetry (group : Nat)
  | abandonRegion (part region : Nat)
  deriving DecidableEq, Repr, Inhabited

/-- The requests that the host sends (R447). -/
inductive HostReq where
  | config (image chip offset : Nat) (bytes : List Byte)
  | handle (h : BitVec 128) (save : Option (BitVec 56 × Nat))
  | vread (va : BitVec 80) (len : Nat)
  | vwrite (va : BitVec 80) (data : List Byte)
  | inject (addr : PortAddr) (replay : Bool) (seq : Nat) (header : BitVec 128) (payload : List Byte)
  | pagedata (bytes : List Byte)
  | result (status : Nat)
  | boot (p : BootPacket)
  | mgmt (m : Mgmt)
  | spdm (m : SpdmReq)
  deriving DecidableEq, Repr, Inhabited

/-- A whole message on a Plinth channel, its frame fields kept (R444). -/
structure HostMsg where
  channel   : Nat
  partition : Nat
  chip      : Nat
  tag       : Nat
  req       : HostReq
  deriving DecidableEq, Repr, Inhabited

/-- A link that training brought up (R417, R453) and what its far end reported: its chip and link number, the root that
it knows with its distance from it, and, where this package is its parent, the chips of its subtree. -/
structure TrainedLink where
  link    : Nat
  farChip : Nat
  farLink : Nat
  root    : Nat
  dist    : Nat
  below   : List Nat
  deriving DecidableEq, Repr, Inhabited

/-- A package's answer to a drain poll (R413), with the size of its records (R414): busy, tokens sent and received, the
bytes and the number of its records. -/
structure DrainAns where
  chip  : Nat
  busy  : Bool
  sent  : Nat
  recv  : Nat
  bytes : Nat
  count : Nat
  deriving DecidableEq, Repr, Inhabited

/-- A measurement of power in watts (R467): the package's and its module's. -/
structure PowerReading where
  ofPackage : Nat
  ofModule  : Nat
  deriving DecidableEq, Repr, Inhabited

/-- What a soft error strikes (R394). Storage words and register files are protected by ECC and parity; an
accumulator cell after its write, and a plane weight after its load, may also change in the datapath (R231). -/
inductive SoftTarget where
  | storage (core : Nat) (space : Space) (bit : Nat) (hard : Bool)
  | program (core : Nat) (bit : Nat) (hard : Bool)
  | accWord (core row bit : Nat) (hard : Bool)
  | register (core : Nat) (who : Who) (r : RegName)
  | branchReg (core : Nat) (who : Who) (n : Nat)
  | snapshot (core : Nat) (ctx : Bool)
  | latch (core : Nat) (ctx : Bool)
  | accValue (core row col : Nat) (xor : BitVec 32)
  | planeBit (core : Nat) (plane : Bool) (row bit : Nat)
  | shadow (core slot bit : Nat) (hard : Bool)
  deriving DecidableEq, Repr, Inhabited

/-- One constructor for each row of spec/opcode_table.json: first the slot instructions (R84, R120 to R137), whose
fields are the table's, but for NOP; then the events, those that a step raises by itself first. -/
inductive Instr where
  /-- PBR (R140). -/
  | pbr (b : BitVec 2) (o : BitVec 24)
  /-- PBRX (R141). -/
  | pbrx (a : BitVec 5) (e : Bool) (b : BitVec 2) (n : Bool) (p : BitVec 3)
  /-- BR (R142). -/
  | br (b : BitVec 2) (n : Bool) (p : BitVec 3)
  /-- CALL (R143). -/
  | call (d : BitVec 5) (b : BitVec 2) (n : Bool) (p : BitVec 3)
  /-- LOOP_IMM (R144). -/
  | loopImm (v : BitVec 3) (l : BitVec 8) (t : BitVec 14)
  /-- LOOP_REG (R144). -/
  | loopReg (v : BitVec 3) (l : BitVec 8) (a : BitVec 5) (e : Bool)
  /-- LOOP_KEEP (R144). -/
  | loopKeep (v : BitVec 3) (l : BitVec 8)
  /-- LOOPSL (R145). -/
  | loopsl (v : BitVec 3) (l : BitVec 8) (h : BitVec 4)
  /-- LBRK (R146). -/
  | lbrk (v : BitVec 3) (n : Bool) (p : BitVec 3)
  /-- WAITB (R147). -/
  | waitb (d : BitVec 5) (a : BitVec 5) (e : Bool) (b : BitVec 5) (f : Bool) (n : Bool) (p : BitVec 3)
  /-- WAITT (R148). -/
  | waitt (a : BitVec 5) (e : Bool) (o : BitVec 3) (n : Bool) (p : BitVec 3)
  /-- DONE (R150). -/
  | done (n : Bool) (p : BitVec 3)
  /-- CKPT (R151). -/
  | ckpt (n : Bool) (p : BitVec 3)
  /-- FENCE (R285). -/
  | fence (k : BitVec 2) (s : BitVec 2) (m : BitVec 16) (n : Bool) (p : BitVec 3)
  /-- TRAP (R153). -/
  | trap (i : BitVec 16) (n : Bool) (p : BitVec 3)
  /-- BRK (R153). -/
  | brk (i : BitVec 16) (n : Bool) (p : BitVec 3)
  /-- GETID (R154). -/
  | getid (d : BitVec 5) (n : Bool) (p : BitVec 3)
  /-- EVPOP (R149). -/
  | evpop (d : BitVec 5) (b : BitVec 5) (n : Bool) (p : BitVec 3)
  /-- RDCT (R156). -/
  | rdct (d : BitVec 5) (c : BitVec 5) (n : Bool) (p : BitVec 3)
  /-- RNG (R157). -/
  | rng (d : BitVec 5) (v : BitVec 3) (n : Bool) (p : BitVec 3)
  /-- MFC (R343). -/
  | mfc (d : BitVec 5) (c : BitVec 11) (n : Bool) (p : BitVec 3)
  /-- MTC (R343). -/
  | mtc (a : BitVec 5) (e : Bool) (c : BitVec 11) (n : Bool) (p : BitVec 3)
  /-- MTC_KCPC (R336). -/
  | mtcKcpc (a : BitVec 5) (e : Bool) (n : Bool) (p : BitVec 3)
  /-- TRET (R335). -/
  | tret (n : Bool) (p : BitVec 3)
  /-- HALT (R344). -/
  | halt (a : BitVec 5) (e : Bool) (n : Bool) (p : BitVec 3)
  /-- HALT_RESUME (R344). -/
  | haltResume (a : BitVec 5) (e : Bool) (n : Bool) (p : BitVec 3)
  /-- PSTOP (R345). -/
  | pstop (a : BitVec 5) (e : Bool) (n : Bool) (p : BitVec 3)
  /-- PSTOP_THAW (R411). -/
  | pstopThaw (a : BitVec 5) (e : Bool) (n : Bool) (p : BitVec 3)
  /-- PDRAIN (R413). -/
  | pdrain (a : BitVec 5) (e : Bool) (n : Bool) (p : BitVec 3)
  /-- CSAVE (R346). -/
  | csave (a : BitVec 5) (e : Bool) (b : BitVec 5) (f : Bool) (n : Bool) (p : BitVec 3)
  /-- CLOAD (R347). -/
  | cload (a : BitVec 5) (e : Bool) (b : BitVec 5) (f : Bool) (n : Bool) (p : BitVec 3)
  /-- TLBI_ASID (R348). -/
  | tlbiAsid (a : BitVec 5) (e : Bool) (b : BitVec 5) (f : Bool) (n : Bool) (p : BitVec 3)
  /-- TLBI_PAGE (R348). -/
  | tlbiPage (a : BitVec 5) (e : Bool) (b : BitVec 5) (f : Bool) (n : Bool) (p : BitVec 3)
  /-- TLBI_ALL (R348). -/
  | tlbiAll (a : BitVec 5) (e : Bool) (b : BitVec 5) (f : Bool) (n : Bool) (p : BitVec 3)
  /-- SLTW (R349). -/
  | sltw (a : BitVec 5) (e : Bool) (b : BitVec 5) (f : Bool) (n : Bool) (p : BitVec 3)
  /-- SLTW_COMMIT (R349). -/
  | sltwCommit (a : BitVec 5) (e : Bool) (b : BitVec 5) (f : Bool) (n : Bool) (p : BitVec 3)
  /-- LKEY (R350). -/
  | lkey (a : BitVec 5) (e : Bool) (b : BitVec 5) (f : Bool) (n : Bool) (p : BitVec 3)
  /-- LKSW (R351). -/
  | lksw (a : BitVec 5) (e : Bool) (n : Bool) (p : BitVec 3)
  /-- RETC (R352). -/
  | retc (a : BitVec 5) (e : Bool) (n : Bool) (p : BitVec 3)
  /-- RETC_CORE (R352). -/
  | retcCore (a : BitVec 5) (e : Bool) (n : Bool) (p : BitVec 3)
  /-- JRSM (R353). -/
  | jrsm (a : BitVec 5) (e : Bool) (n : Bool) (p : BitVec 3)
  /-- JKIL (R353). -/
  | jkil (a : BitVec 5) (e : Bool) (n : Bool) (p : BitVec 3)
  /-- ADD (R160). -/
  | add (d : BitVec 5) (a : BitVec 5) (e : Bool) (b : BitVec 5) (f : Bool) (p : BitVec 3)
  /-- SUB (R160). -/
  | sub (d : BitVec 5) (a : BitVec 5) (e : Bool) (b : BitVec 5) (f : Bool) (p : BitVec 3)
  /-- AND (R160). -/
  | and (d : BitVec 5) (a : BitVec 5) (e : Bool) (b : BitVec 5) (f : Bool) (p : BitVec 3)
  /-- OR (R160). -/
  | or (d : BitVec 5) (a : BitVec 5) (e : Bool) (b : BitVec 5) (f : Bool) (p : BitVec 3)
  /-- XOR (R160). -/
  | xor (d : BitVec 5) (a : BitVec 5) (e : Bool) (b : BitVec 5) (f : Bool) (p : BitVec 3)
  /-- ANDN (R160). -/
  | andn (d : BitVec 5) (a : BitVec 5) (e : Bool) (b : BitVec 5) (f : Bool) (p : BitVec 3)
  /-- SLL (R160). -/
  | sll (d : BitVec 5) (a : BitVec 5) (e : Bool) (b : BitVec 5) (f : Bool) (p : BitVec 3)
  /-- SRL (R160). -/
  | srl (d : BitVec 5) (a : BitVec 5) (e : Bool) (b : BitVec 5) (f : Bool) (p : BitVec 3)
  /-- SRA (R160). -/
  | sra (d : BitVec 5) (a : BitVec 5) (e : Bool) (b : BitVec 5) (f : Bool) (p : BitVec 3)
  /-- ROL (R160). -/
  | rol (d : BitVec 5) (a : BitVec 5) (e : Bool) (b : BitVec 5) (f : Bool) (p : BitVec 3)
  /-- MIN (R160). -/
  | min (d : BitVec 5) (a : BitVec 5) (e : Bool) (b : BitVec 5) (f : Bool) (p : BitVec 3)
  /-- MAX (R160). -/
  | max (d : BitVec 5) (a : BitVec 5) (e : Bool) (b : BitVec 5) (f : Bool) (p : BitVec 3)
  /-- MINU (R160). -/
  | minu (d : BitVec 5) (a : BitVec 5) (e : Bool) (b : BitVec 5) (f : Bool) (p : BitVec 3)
  /-- MAXU (R160). -/
  | maxu (d : BitVec 5) (a : BitVec 5) (e : Bool) (b : BitVec 5) (f : Bool) (p : BitVec 3)
  /-- MUL (R161). -/
  | mul (d : BitVec 5) (a : BitVec 5) (e : Bool) (b : BitVec 5) (f : Bool) (p : BitVec 3)
  /-- MULH (R161). -/
  | mulh (d : BitVec 5) (a : BitVec 5) (e : Bool) (b : BitVec 5) (f : Bool) (p : BitVec 3)
  /-- MULHU (R161). -/
  | mulhu (d : BitVec 5) (a : BitVec 5) (e : Bool) (b : BitVec 5) (f : Bool) (p : BitVec 3)
  /-- DIV (R162). -/
  | div (d : BitVec 5) (a : BitVec 5) (e : Bool) (b : BitVec 5) (f : Bool) (p : BitVec 3)
  /-- DIVU (R162). -/
  | divu (d : BitVec 5) (a : BitVec 5) (e : Bool) (b : BitVec 5) (f : Bool) (p : BitVec 3)
  /-- REM (R162). -/
  | rem (d : BitVec 5) (a : BitVec 5) (e : Bool) (b : BitVec 5) (f : Bool) (p : BitVec 3)
  /-- REMU (R162). -/
  | remu (d : BitVec 5) (a : BitVec 5) (e : Bool) (b : BitVec 5) (f : Bool) (p : BitVec 3)
  /-- CLZ (R163). -/
  | clz (d : BitVec 5) (a : BitVec 5) (e : Bool) (p : BitVec 3)
  /-- CTZ (R163). -/
  | ctz (d : BitVec 5) (a : BitVec 5) (e : Bool) (p : BitVec 3)
  /-- POPC (R163). -/
  | popc (d : BitVec 5) (a : BitVec 5) (e : Bool) (p : BitVec 3)
  /-- BREV (R163). -/
  | brev (d : BitVec 5) (a : BitVec 5) (e : Bool) (p : BitVec 3)
  /-- EXTB (R163). -/
  | extb (d : BitVec 5) (a : BitVec 5) (e : Bool) (p : BitVec 3)
  /-- EXTH (R163). -/
  | exth (d : BitVec 5) (a : BitVec 5) (e : Bool) (p : BitVec 3)
  /-- EXTW (R163). -/
  | extw (d : BitVec 5) (a : BitVec 5) (e : Bool) (p : BitVec 3)
  /-- EXBU (R163). -/
  | exbu (d : BitVec 5) (a : BitVec 5) (e : Bool) (p : BitVec 3)
  /-- EXHU (R163). -/
  | exhu (d : BitVec 5) (a : BitVec 5) (e : Bool) (p : BitVec 3)
  /-- EXWU (R163). -/
  | exwu (d : BitVec 5) (a : BitVec 5) (e : Bool) (p : BitVec 3)
  /-- ADDI (R164). -/
  | addi (d : BitVec 5) (a : BitVec 5) (e : Bool) (i : BitVec 12) (p : BitVec 3)
  /-- ANDI (R164). -/
  | andi (d : BitVec 5) (a : BitVec 5) (e : Bool) (i : BitVec 12) (p : BitVec 3)
  /-- ORI (R164). -/
  | ori (d : BitVec 5) (a : BitVec 5) (e : Bool) (i : BitVec 12) (p : BitVec 3)
  /-- XORI (R164). -/
  | xori (d : BitVec 5) (a : BitVec 5) (e : Bool) (i : BitVec 12) (p : BitVec 3)
  /-- SLLI (R164). -/
  | slli (d : BitVec 5) (a : BitVec 5) (e : Bool) (s : BitVec 6) (p : BitVec 3)
  /-- SRLI (R164). -/
  | srli (d : BitVec 5) (a : BitVec 5) (e : Bool) (s : BitVec 6) (p : BitVec 3)
  /-- SRAI (R164). -/
  | srai (d : BitVec 5) (a : BitVec 5) (e : Bool) (s : BitVec 6) (p : BitVec 3)
  /-- MULI (R164). -/
  | muli (d : BitVec 5) (a : BitVec 5) (e : Bool) (i : BitVec 12) (p : BitVec 3)
  /-- LIM (R165). -/
  | lim (d : BitVec 5) (h : BitVec 2) (i : BitVec 16) (p : BitVec 3)
  /-- LIK (R165). -/
  | lik (d : BitVec 5) (h : BitVec 2) (i : BitVec 16) (p : BitVec 3)
  /-- CMP (R166). -/
  | cmp (d : BitVec 3) (c : BitVec 4) (a : BitVec 5) (e : Bool) (b : BitVec 5) (f : Bool) (p : BitVec 3)
  /-- CMPI (R166). -/
  | cmpi (d : BitVec 3) (c : BitVec 4) (a : BitVec 5) (e : Bool) (i : BitVec 10) (p : BitVec 3)
  /-- SEL (R168). -/
  | sel (d : BitVec 5) (a : BitVec 5) (e : Bool) (b : BitVec 5) (f : Bool) (s : BitVec 3) (p : BitVec 3)
  /-- PAND (R169). -/
  | pand (d : BitVec 3) (a : BitVec 3) (e : Bool) (b : BitVec 3) (f : Bool) (p : BitVec 3)
  /-- POR (R169). -/
  | por (d : BitVec 3) (a : BitVec 3) (e : Bool) (b : BitVec 3) (f : Bool) (p : BitVec 3)
  /-- PXOR (R169). -/
  | pxor (d : BitVec 3) (a : BitVec 3) (e : Bool) (b : BitVec 3) (f : Bool) (p : BitVec 3)
  /-- PNOT (R169). -/
  | pnot (d : BitVec 3) (a : BitVec 3) (e : Bool) (p : BitVec 3)
  /-- DADD (R170). -/
  | dadd (d : BitVec 5) (a : BitVec 5) (e : Bool) (b : BitVec 5) (f : Bool) (r : BitVec 3) (p : BitVec 3)
  /-- DSUB (R170). -/
  | dsub (d : BitVec 5) (a : BitVec 5) (e : Bool) (b : BitVec 5) (f : Bool) (r : BitVec 3) (p : BitVec 3)
  /-- DMUL (R170). -/
  | dmul (d : BitVec 5) (a : BitVec 5) (e : Bool) (b : BitVec 5) (f : Bool) (r : BitVec 3) (p : BitVec 3)
  /-- DDIV (R170). -/
  | ddiv (d : BitVec 5) (a : BitVec 5) (e : Bool) (b : BitVec 5) (f : Bool) (r : BitVec 3) (p : BitVec 3)
  /-- DSQRT (R170). -/
  | dsqrt (d : BitVec 5) (a : BitVec 5) (e : Bool) (r : BitVec 3) (p : BitVec 3)
  /-- DMIN (R171). -/
  | dmin (d : BitVec 5) (a : BitVec 5) (e : Bool) (b : BitVec 5) (f : Bool) (p : BitVec 3)
  /-- DMAX (R171). -/
  | dmax (d : BitVec 5) (a : BitVec 5) (e : Bool) (b : BitVec 5) (f : Bool) (p : BitVec 3)
  /-- DABS (R171). -/
  | dabs (d : BitVec 5) (a : BitVec 5) (e : Bool) (p : BitVec 3)
  /-- DNEG (R171). -/
  | dneg (d : BitVec 5) (a : BitVec 5) (e : Bool) (p : BitVec 3)
  /-- DFMA (R172). -/
  | dfma (d : BitVec 5) (a : BitVec 5) (e : Bool) (b : BitVec 5) (f : Bool) (r : BitVec 3) (p : BitVec 3)
  /-- DFMS (R172). -/
  | dfms (d : BitVec 5) (a : BitVec 5) (e : Bool) (b : BitVec 5) (f : Bool) (r : BitVec 3) (p : BitVec 3)
  /-- DNFMA (R172). -/
  | dnfma (d : BitVec 5) (a : BitVec 5) (e : Bool) (b : BitVec 5) (f : Bool) (r : BitVec 3) (p : BitVec 3)
  /-- DNFMS (R172). -/
  | dnfms (d : BitVec 5) (a : BitVec 5) (e : Bool) (b : BitVec 5) (f : Bool) (r : BitVec 3) (p : BitVec 3)
  /-- FADD (R170). -/
  | fadd (d : BitVec 5) (a : BitVec 5) (e : Bool) (b : BitVec 5) (f : Bool) (r : BitVec 3) (p : BitVec 3)
  /-- FSUB (R170). -/
  | fsub (d : BitVec 5) (a : BitVec 5) (e : Bool) (b : BitVec 5) (f : Bool) (r : BitVec 3) (p : BitVec 3)
  /-- FMUL (R170). -/
  | fmul (d : BitVec 5) (a : BitVec 5) (e : Bool) (b : BitVec 5) (f : Bool) (r : BitVec 3) (p : BitVec 3)
  /-- FDIV (R170). -/
  | fdiv (d : BitVec 5) (a : BitVec 5) (e : Bool) (b : BitVec 5) (f : Bool) (r : BitVec 3) (p : BitVec 3)
  /-- FSQRT (R170). -/
  | fsqrt (d : BitVec 5) (a : BitVec 5) (e : Bool) (r : BitVec 3) (p : BitVec 3)
  /-- FMIN (R171). -/
  | fmin (d : BitVec 5) (a : BitVec 5) (e : Bool) (b : BitVec 5) (f : Bool) (p : BitVec 3)
  /-- FMAX (R171). -/
  | fmax (d : BitVec 5) (a : BitVec 5) (e : Bool) (b : BitVec 5) (f : Bool) (p : BitVec 3)
  /-- FFMA (R172). -/
  | ffma (d : BitVec 5) (a : BitVec 5) (e : Bool) (b : BitVec 5) (f : Bool) (r : BitVec 3) (p : BitVec 3)
  /-- I2D (R173). -/
  | i2d (d : BitVec 5) (a : BitVec 5) (e : Bool) (r : BitVec 3) (p : BitVec 3)
  /-- U2D (R173). -/
  | u2d (d : BitVec 5) (a : BitVec 5) (e : Bool) (r : BitVec 3) (p : BitVec 3)
  /-- D2I (R174). -/
  | d2i (d : BitVec 5) (a : BitVec 5) (e : Bool) (r : BitVec 3) (p : BitVec 3)
  /-- D2U (R174). -/
  | d2u (d : BitVec 5) (a : BitVec 5) (e : Bool) (r : BitVec 3) (p : BitVec 3)
  /-- F2D (R173). -/
  | f2d (d : BitVec 5) (a : BitVec 5) (e : Bool) (r : BitVec 3) (p : BitVec 3)
  /-- D2F (R173). -/
  | d2f (d : BitVec 5) (a : BitVec 5) (e : Bool) (r : BitVec 3) (p : BitVec 3)
  /-- I2F (R173). -/
  | i2f (d : BitVec 5) (a : BitVec 5) (e : Bool) (r : BitVec 3) (p : BitVec 3)
  /-- F2I (R174). -/
  | f2i (d : BitVec 5) (a : BitVec 5) (e : Bool) (r : BitVec 3) (p : BitVec 3)
  /-- MFS (R175). -/
  | mfs (d : BitVec 5) (s : BitVec 12) (p : BitVec 3)
  /-- MTS (R175). -/
  | mts (a : BitVec 5) (e : Bool) (s : BitVec 12) (p : BitVec 3)
  /-- VADD (R183). -/
  | vadd (d : BitVec 5) (a : BitVec 5) (e : Bool) (b : BitVec 5) (f : Bool) (t : BitVec 3) (m : BitVec 4) (u : BitVec 2)
  /-- VSUB (R183). -/
  | vsub (d : BitVec 5) (a : BitVec 5) (e : Bool) (b : BitVec 5) (f : Bool) (t : BitVec 3) (m : BitVec 4) (u : BitVec 2)
  /-- VMUL (R183). -/
  | vmul (d : BitVec 5) (a : BitVec 5) (e : Bool) (b : BitVec 5) (f : Bool) (t : BitVec 3) (m : BitVec 4) (u : BitVec 2)
  /-- VFMA (R183). -/
  | vfma (d : BitVec 5) (a : BitVec 5) (e : Bool) (b : BitVec 5) (f : Bool) (t : BitVec 3) (m : BitVec 4) (u : BitVec 2)
  /-- VFMS (R183). -/
  | vfms (d : BitVec 5) (a : BitVec 5) (e : Bool) (b : BitVec 5) (f : Bool) (t : BitVec 3) (m : BitVec 4) (u : BitVec 2)
  /-- VMIN (R183). -/
  | vmin (d : BitVec 5) (a : BitVec 5) (e : Bool) (b : BitVec 5) (f : Bool) (t : BitVec 3) (m : BitVec 4) (u : BitVec 2)
  /-- VMAX (R183). -/
  | vmax (d : BitVec 5) (a : BitVec 5) (e : Bool) (b : BitVec 5) (f : Bool) (t : BitVec 3) (m : BitVec 4) (u : BitVec 2)
  /-- VMAXM (R183). -/
  | vmaxm (d : BitVec 5) (a : BitVec 5) (e : Bool) (b : BitVec 5) (f : Bool) (t : BitVec 3) (m : BitVec 4) (u : BitVec 2)
  /-- VABS (R184). -/
  | vabs (d : BitVec 5) (a : BitVec 5) (e : Bool) (t : BitVec 3) (m : BitVec 4)
  /-- VNEG (R184). -/
  | vneg (d : BitVec 5) (a : BitVec 5) (e : Bool) (t : BitVec 3) (m : BitVec 4)
  /-- VCMPEQ (R185). -/
  | vcmpeq (d : BitVec 5) (a : BitVec 5) (e : Bool) (b : BitVec 5) (f : Bool) (t : BitVec 3) (m : BitVec 4) (u : BitVec 2)
  /-- VCMPLT (R185). -/
  | vcmplt (d : BitVec 5) (a : BitVec 5) (e : Bool) (b : BitVec 5) (f : Bool) (t : BitVec 3) (m : BitVec 4) (u : BitVec 2)
  /-- VCMPLE (R185). -/
  | vcmple (d : BitVec 5) (a : BitVec 5) (e : Bool) (b : BitVec 5) (f : Bool) (t : BitVec 3) (m : BitVec 4) (u : BitVec 2)
  /-- VCMPUN (R185). -/
  | vcmpun (d : BitVec 5) (a : BitVec 5) (e : Bool) (b : BitVec 5) (f : Bool) (t : BitVec 3) (m : BitVec 4) (u : BitVec 2)
  /-- VCMPM (R186). -/
  | vcmpm (d : BitVec 4) (a : BitVec 5) (e : Bool)
  /-- VAND (R187). -/
  | vand (d : BitVec 5) (a : BitVec 5) (e : Bool) (b : BitVec 5) (f : Bool) (t : BitVec 3) (m : BitVec 4) (u : BitVec 2)
  /-- VOR (R187). -/
  | vor (d : BitVec 5) (a : BitVec 5) (e : Bool) (b : BitVec 5) (f : Bool) (t : BitVec 3) (m : BitVec 4) (u : BitVec 2)
  /-- VXOR (R187). -/
  | vxor (d : BitVec 5) (a : BitVec 5) (e : Bool) (b : BitVec 5) (f : Bool) (t : BitVec 3) (m : BitVec 4) (u : BitVec 2)
  /-- VSHL (R188). -/
  | vshl (d : BitVec 5) (a : BitVec 5) (e : Bool) (b : BitVec 5) (f : Bool) (t : BitVec 3) (m : BitVec 4) (u : BitVec 2)
  /-- VSHR (R188). -/
  | vshr (d : BitVec 5) (a : BitVec 5) (e : Bool) (b : BitVec 5) (f : Bool) (t : BitVec 3) (m : BitVec 4) (u : BitVec 2)
  /-- VSRA (R188). -/
  | vsra (d : BitVec 5) (a : BitVec 5) (e : Bool) (b : BitVec 5) (f : Bool) (t : BitVec 3) (m : BitVec 4) (u : BitVec 2)
  /-- VBLD (R189). -/
  | vbld (d : BitVec 5) (a : BitVec 5) (e : Bool) (b : BitVec 5) (f : Bool) (t : BitVec 3) (m : BitVec 4) (u : BitVec 2)
  /-- VBC (R190). -/
  | vbc (d : BitVec 5) (b : BitVec 5) (f : Bool) (t : BitVec 3) (m : BitVec 4)
  /-- VINS (R191). -/
  | vins (d : BitVec 5) (a : BitVec 5) (e : Bool) (b : BitVec 5) (f : Bool) (t : BitVec 3) (m : BitVec 4)
  /-- VEXT (R192). -/
  | vext (d : BitVec 5) (a : BitVec 5) (e : Bool) (b : BitVec 5) (f : Bool) (t : BitVec 3)
  /-- VPERM (R193). -/
  | vperm (d : BitVec 5) (a : BitVec 5) (e : Bool) (b : BitVec 5) (f : Bool) (t : BitVec 3) (m : BitVec 4)
  /-- VROT (R194). -/
  | vrot (d : BitVec 5) (a : BitVec 5) (e : Bool) (b : BitVec 5) (f : Bool) (t : BitVec 3) (m : BitVec 4) (u : BitVec 2)
  /-- VRED (R195). -/
  | vred (d : BitVec 5) (a : BitVec 5) (e : Bool) (o : BitVec 5) (t : BitVec 3) (m : BitVec 4)
  /-- VSCAN (R196). -/
  | vscan (d : BitVec 5) (a : BitVec 5) (e : Bool) (o : BitVec 5) (t : BitVec 3) (m : BitVec 4)
  /-- VCVT (R197). -/
  | vcvt (d : BitVec 5) (a : BitVec 5) (e : Bool) (r : Bool) (c : BitVec 4) (s : Bool) (t : BitVec 3) (m : BitVec 4)
  /-- VQNT (R199). -/
  | vqnt (d : BitVec 5) (a : BitVec 5) (e : Bool) (b : BitVec 5) (f : Bool) (t : BitVec 3) (m : BitVec 4)
  /-- VDQNT (R200). -/
  | vdqnt (d : BitVec 5) (a : BitVec 5) (e : Bool) (b : BitVec 5) (f : Bool) (t : BitVec 3) (m : BitVec 4)
  /-- VHAD (R201). -/
  | vhad (d : BitVec 5) (a : BitVec 5) (e : Bool) (c : Bool) (s : BitVec 3) (t : BitVec 3) (m : BitVec 4)
  /-- VSMRG (R204). -/
  | vsmrg (d : BitVec 5) (a : BitVec 5) (e : Bool) (t : BitVec 3) (m : BitVec 4)
  /-- VSMUP (R203). -/
  | vsmup (d : BitVec 5) (a : BitVec 5) (e : Bool) (b : BitVec 5) (f : Bool) (t : BitVec 3) (m : BitVec 4)
  /-- VCHC (R206). -/
  | vchc (s : BitVec 3) (o : BitVec 5) (b : BitVec 5) (f : Bool) (t : BitVec 3) (h : BitVec 4) (u : BitVec 2)
  /-- VCH (R207). -/
  | vch (d : BitVec 5) (a : BitVec 5) (e : Bool) (t : BitVec 3) (m : BitVec 4)
  /-- MAND (R209). -/
  | mand (d : BitVec 4) (a : BitVec 4) (e : Bool) (b : BitVec 4) (f : Bool)
  /-- MOR (R209). -/
  | mor (d : BitVec 4) (a : BitVec 4) (e : Bool) (b : BitVec 4) (f : Bool)
  /-- MXOR (R209). -/
  | mxor (d : BitVec 4) (a : BitVec 4) (e : Bool) (b : BitVec 4) (f : Bool)
  /-- MNOT (R209). -/
  | mnot (d : BitVec 4) (a : BitVec 4) (e : Bool)
  /-- MFX (R210). -/
  | mfx (d : BitVec 5) (a : BitVec 4) (e : Bool)
  /-- MTX (R210). -/
  | mtx (d : BitVec 4) (a : BitVec 5) (e : Bool)
  /-- MBIT_SET (R211). -/
  | mbitSet (d : BitVec 4) (a : BitVec 4) (e : Bool) (i : BitVec 4)
  /-- MBIT_CLR (R211). -/
  | mbitClr (d : BitVec 4) (a : BitVec 4) (e : Bool) (i : BitVec 4)
  /-- MBIT_INV (R211). -/
  | mbitInv (d : BitVec 4) (a : BitVec 4) (e : Bool) (i : BitVec 4)
  /-- VEXP2 (R212). -/
  | vexp2 (d : BitVec 5) (a : BitVec 5) (e : Bool) (t : BitVec 3) (m : BitVec 4)
  /-- VLOG2 (R212). -/
  | vlog2 (d : BitVec 5) (a : BitVec 5) (e : Bool) (t : BitVec 3) (m : BitVec 4)
  /-- VRCP (R212). -/
  | vrcp (d : BitVec 5) (a : BitVec 5) (e : Bool) (t : BitVec 3) (m : BitVec 4)
  /-- VRSQ (R212). -/
  | vrsq (d : BitVec 5) (a : BitVec 5) (e : Bool) (t : BitVec 3) (m : BitVec 4)
  /-- VSQRT (R212). -/
  | vsqrt (d : BitVec 5) (a : BitVec 5) (e : Bool) (t : BitVec 3) (m : BitVec 4)
  /-- VSINCOS (R214). -/
  | vsincos (d : BitVec 5) (a : BitVec 5) (e : Bool) (t : BitVec 3) (m : BitVec 4)
  /-- VTANH (R212). -/
  | vtanh (d : BitVec 5) (a : BitVec 5) (e : Bool) (t : BitVec 3) (m : BitVec 4)
  /-- MAC (R221). -/
  | mac (r : BitVec 8) (s : BitVec 5) (o : BitVec 2) (e : Bool) (p : BitVec 3)
  /-- MWLD (R219). -/
  | mwld (k : BitVec 6) (s : BitVec 4) (p : BitVec 3)
  /-- MSWP (R220). -/
  | mswp (p : BitVec 3)
  /-- MDRN (R222). -/
  | mdrn (d : BitVec 5) (r : BitVec 8) (s : BitVec 4) (m : Bool) (c : Bool) (p : BitVec 3)
  /-- MFMT (R238). -/
  | mfmt (a : BitVec 4) (w : BitVec 4) (p : BitVec 3)
  /-- MCHK (R229). -/
  | mchk (p : BitVec 3)
  /-- MLOC (R233). -/
  | mloc (p : BitVec 3)
  /-- MFIX (R234). -/
  | mfix (p : BitVec 3)
  /-- MMPB (R224). -/
  | mmpb (a : BitVec 5) (e : Bool) (p : BitVec 3)
  /-- MCLR (R237). -/
  | mclr (r : BitVec 8) (c : BitVec 5) (p : BitVec 3)
  /-- VLD (R242). -/
  | vld (d : BitVec 5) (s : BitVec 4) (p : BitVec 3)
  /-- VST (R243). -/
  | vst (v : BitVec 5) (s : BitVec 4) (e : Bool) (p : BitVec 3)
  /-- VLDA (R244). -/
  | vlda (d : BitVec 5) (a : BitVec 5) (e : Bool) (s : Bool) (o : BitVec 10) (p : BitVec 3)
  /-- VSTA (R244). -/
  | vsta (v : BitVec 5) (a : BitVec 5) (e : Bool) (f : Bool) (s : Bool) (o : BitVec 10) (p : BitVec 3)
  /-- LDS (R245). -/
  | lds (d : BitVec 5) (a : BitVec 5) (e : Bool) (s : Bool) (z : BitVec 2) (g : Bool) (o : BitVec 7) (p : BitVec 3)
  /-- STS (R245). -/
  | sts (v : BitVec 5) (a : BitVec 5) (e : Bool) (f : Bool) (s : Bool) (z : BitVec 2) (o : BitVec 7) (p : BitVec 3)
  /-- ACST (R246). -/
  | acst (r : BitVec 8) (s : BitVec 4) (a : BitVec 5) (e : Bool) (p : BitVec 3)
  /-- ACLD (R247). -/
  | acld (r : BitVec 8) (s : BitVec 4) (a : BitVec 5) (e : Bool) (p : BitVec 3)
  /-- STCFG (R248). -/
  | stcfg (s : BitVec 4) (a : BitVec 5) (e : Bool) (o : BitVec 10) (p : BitVec 3)
  /-- STGET (R249). -/
  | stget (d : BitVec 5) (s : BitVec 4) (l : BitVec 3) (p : BitVec 3)
  /-- STSET (R250). -/
  | stset (v : BitVec 5) (s : BitVec 4) (e : Bool) (l : BitVec 3) (p : BitVec 3)
  /-- STADV (R251). -/
  | stadv (s : BitVec 4) (l : BitVec 3) (p : BitVec 3)
  /-- RPOP (R252). -/
  | rpop (o : BitVec 3) (p : BitVec 3)
  /-- XRD (R253). -/
  | xrd (d : BitVec 5) (a : BitVec 5) (e : Bool) (o : BitVec 10) (p : BitVec 3)
  /-- CPY (R261). -/
  | cpy (a : BitVec 5) (e : Bool) (o : BitVec 9) (p : BitVec 3)
  /-- SCA (R262). -/
  | sca (a : BitVec 5) (e : Bool) (o : BitVec 9) (p : BitVec 3)
  /-- TSEND (R264). -/
  | tsend (t : BitVec 5) (a : BitVec 5) (e : Bool) (b : BitVec 5) (f : Bool) (o : BitVec 3) (p : BitVec 3)
  /-- TKTG (R265). -/
  | tktg (d : BitVec 5) (o : BitVec 3) (p : BitVec 3)
  /-- FLD (R266). -/
  | fld (a : BitVec 5) (e : Bool) (o : BitVec 9) (p : BitVec 3)
  /-- FST (R266). -/
  | fst (a : BitVec 5) (e : Bool) (o : BitVec 9) (p : BitVec 3)
  /-- FATM (R267). -/
  | fatm (a : BitVec 5) (e : Bool) (o : BitVec 9) (p : BitVec 3)
  /-- FREP (R268). -/
  | frep (a : BitVec 5) (e : Bool) (o : BitVec 9) (p : BitVec 3)
  /-- BARA (R270). -/
  | bara (a : BitVec 5) (e : Bool) (r : Bool) (p : BitVec 3)
  /-- BARI (R269). -/
  | bari (a : BitVec 5) (e : Bool) (b : BitVec 5) (f : Bool) (p : BitVec 3)
  /-- PFXLK (R272). -/
  | pfxlk (a : BitVec 5) (e : Bool) (o : BitVec 9) (p : BitVec 3)
  /-- PFXIN (R272). -/
  | pfxin (a : BitVec 5) (e : Bool) (o : BitVec 9) (p : BitVec 3)
  /-- PFXREF (R272). -/
  | pfxref (a : BitVec 5) (e : Bool) (o : BitVec 9) (p : BitVec 3)
  /-- PFXAPP (R272). -/
  | pfxapp (a : BitVec 5) (e : Bool) (o : BitVec 9) (p : BitVec 3)
  /-- PFXEV (R272). -/
  | pfxev (a : BitVec 5) (e : Bool) (o : BitVec 9) (p : BitVec 3)
  /-- KVMRG (R273). -/
  | kvmrg (a : BitVec 5) (e : Bool) (o : BitVec 9) (p : BitVec 3)
  /-- MARK (R274). -/
  | mark (p : BitVec 3)
  /-- JSTAT (R275). -/
  | jstat (d : BitVec 3) (a : BitVec 5) (e : Bool) (p : BitVec 3)
  /-- BRANCH_FETCH_COMPLETE (R92). -/
  | branchFetchComplete (k : Nat) (w : Who) (n : Nat)
  /-- LONG_LATENCY_WRITEBACK (R87). -/
  | longLatencyWriteback (k : Nat) (w : Who) (n : Nat)
  /-- CHECKPOINT_COMMIT (R104). -/
  | checkpointCommit (k : Nat) (c : Bool)
  /-- WITHHELD_STORE_PERFORM (R241). -/
  | withheldStorePerform (k : Nat) (c : Bool)
  /-- RERUN_PAIR_COMPARE (R396). -/
  | rerunPairCompare (k : Nat) (c : Bool)
  /-- QUEUE_ENTRY (R333). -/
  | queueEntry (k : Nat)
  /-- ARBITER_DECIDE (R364). -/
  | arbiterDecide (k : Nat)
  /-- PREEMPT (R365). -/
  | preempt (k : Nat)
  /-- BUDGET_EXPIRY (R366). -/
  | budgetExpiry (k : Nat)
  /-- HANDOVER (R367). -/
  | handover (k : Nat)
  /-- GANG_FIRING_OPEN (R369). -/
  | gangFiringOpen (n : Nat)
  /-- RNG_ANSWER (R23). -/
  | rngAnswer (k : Nat) (c : Bool)
  /-- TKTG_GRANT (R17). -/
  | tktgGrant (k : Nat) (c : Bool) (g : Option Nat) (r : Option PortAddr)
  /-- EVPOP_RECORD_FILL (R149). -/
  | evpopRecordFill (k : Nat) (c : Bool)
  /-- CFGDONE_ACTION (R24). -/
  | cfgdoneAction (k : Nat) (c : Bool)
  /-- MARKER_ACTION (R404). -/
  | markerAction (k : Nat) (c : Bool)
  /-- DRAIN_ACTION (R20). -/
  | drainAction (k : Nat) (c : Bool)
  /-- SOURCE_HARDWARE_MARK (R403). -/
  | sourceHardwareMark (k : Nat) (c : Bool)
  /-- JOB_START (R254). -/
  | jobStart (k : Nat) (j : Nat)
  /-- JOB_COMPLETE (R257). -/
  | jobComplete (k : Nat) (j : Nat)
  /-- MWLD_BEAT_LAND (R219). -/
  | mwldBeatLand (k : Nat)
  /-- CALIPER_COMPARE (R229). -/
  | caliperCompare (k : Nat) (c : Bool)
  /-- PAGE_WALK (R377). -/
  | pageWalk (k : Nat) (j : Nat)
  /-- FRAME_TRANSMIT (R425). -/
  | frameTransmit (l : Nat)
  /-- MMPB_LOAD_DONE (R224). -/
  | mmpbLoadDone (k : Nat) (c : Bool)
  /-- ARRAY_INTERLOCK_EXPIRY (R239). -/
  | arrayInterlockExpiry (k : Nat) (c : Bool) (row : Option Nat)
  /-- CREDIT_RETURN (R15). -/
  | creditReturn (m : Option (PortAddr × Nat))
  /-- HEAD_ADVANCE_NOTICE (R16). -/
  | headAdvanceNotice (m : Option (PortAddr × Nat))
  /-- NOP (R84). -/
  | nop
  /-- FIXED_RESULT_DELIVERY (R90). -/
  | fixedResultDelivery (k : Nat) (w : Who)
  /-- CANDIDATE_STARVING (R365). -/
  | candidateStarving (k : Nat) (c : Bool)
  /-- TOKEN_FIRST_FLIT (R421). -/
  | tokenFirstFlit
  /-- TOKEN_CONTINUATION_FLIT (R421). -/
  | tokenContinuationFlit
  /-- WRITE_REQUEST (R432). -/
  | writeRequest
  /-- READ_REQUEST (R432). -/
  | readRequest
  /-- READ_REPLY (R431). -/
  | readReply
  /-- ATOMIC_REQUEST (R267). -/
  | atomicRequest
  /-- ATOMIC_REPLY (R431). -/
  | atomicReply
  /-- ACKNOWLEDGEMENT (R431). -/
  | acknowledgement
  /-- REFUSAL (R431). -/
  | refusal
  /-- PREFIX_REQUEST (R271). -/
  | prefixRequest
  /-- PREFIX_REPLY (R420). -/
  | prefixReply
  /-- LINK_FRAME_RECEIVE (R429). -/
  | linkFrameReceive (l : Nat) (f : Frame)
  /-- LINK_RETRY_TIMEOUT (R430). -/
  | linkRetryTimeout (l : Nat)
  /-- LOSS_OF_SIGNAL (R441). -/
  | lossOfSignal (l : Nat)
  /-- ESCAPE_TIMEOUT (R426). -/
  | escapeTimeout (n : Nat)
  /-- E2E_RESEND_TIMEOUT (R433). -/
  | e2eResendTimeout (dchip lane seq : Nat)
  /-- HELD_SLOT_RELEASE (R439). -/
  | heldSlotRelease (l row : Nat)
  /-- SLOT_TABLE_SWITCH (R349). -/
  | slotTableSwitch
  /-- LINK_TRAINING (R453). -/
  | linkTraining (peers : List TrainedLink)
  /-- POWER_ON (R465). -/
  | powerOn (ga : BitVec 12)
  /-- MARGIN_PLAN (R466). -/
  | marginPlan (k : Nat)
  /-- POWER_LIMIT (R467): the power of the package and of its module. -/
  | powerLimit (watts : PowerReading)
  /-- CLOCK_RESTORE (R467). -/
  | clockRestore (watts : PowerReading)
  /-- THERMAL_LIMIT (R467). -/
  | thermalLimit (t : Nat)
  /-- THERMAL_SHUTDOWN (R467). -/
  | thermalShutdown
  /-- PLINTH_FRAME_RECEIVE (R445). -/
  | plinthFrameReceive (f : PlinthFrame)
  /-- PLINTH_RETRANSMIT_TIMEOUT (R445). -/
  | plinthRetransmitTimeout (ch : Nat)
  /-- PLINTH_ACK_TIMER (R445). -/
  | plinthAckTimer (ch : Nat)
  /-- CONFIG (R447). -/
  | config
  /-- HANDLE (R357). -/
  | handle
  /-- LAUNCH_PREPARE (R357). -/
  | launchPrepare
  /-- PREPARE_REPORT (R357). -/
  | prepareReport
  /-- LAUNCH_APPLY (R359). -/
  | launchApply
  /-- LAUNCH_ABORT (R357). -/
  | launchAbort
  /-- READY_REPORT (R24). -/
  | readyReport
  /-- VREAD (R447). -/
  | vread
  /-- VWRITE (R447). -/
  | vwrite
  /-- INJECT (R361). -/
  | inject
  /-- PAGEDATA (R450). -/
  | pagedata
  /-- RESULT (R450). -/
  | result
  /-- BOOT_BEGIN (R456). -/
  | bootBegin
  /-- BOOT_MANIFEST (R455). -/
  | bootManifest
  /-- BOOT_DATA (R456). -/
  | bootData
  /-- BOOT_CFG (R456). -/
  | bootCfg
  /-- BOOT_END (R457). -/
  | bootEnd
  /-- BOOT_STATUS_REPORT (R457). -/
  | bootStatusReport
  /-- MGMT_CREATE_PARTITION (R451). -/
  | mgmtCreatePartition
  /-- MGMT_DESTROY_PARTITION (R451). -/
  | mgmtDestroyPartition
  /-- MGMT_OPEN_CHANNEL (R451). -/
  | mgmtOpenChannel
  /-- MGMT_CLOSE_CHANNEL (R451). -/
  | mgmtCloseChannel
  /-- MGMT_RESTART_CURATOR (R451). -/
  | mgmtRestartCurator
  /-- MGMT_RETIRE_CORE (R451). -/
  | mgmtRetireCore
  /-- MGMT_INSTALL_STORAGE_KEY (R451). -/
  | mgmtInstallStorageKey
  /-- MGMT_ABORT_SEGMENT (R409). -/
  | mgmtAbortSegment
  /-- MGMT_ROLL_BACK_REGION (R451). -/
  | mgmtRollBackRegion
  /-- MGMT_REPLACE_PACKAGE (R460). -/
  | mgmtReplacePackage
  /-- MGMT_WRITE_ROUTING (R451). -/
  | mgmtWriteRouting
  /-- MGMT_READ_TELEMETRY (R474). -/
  | mgmtReadTelemetry
  /-- MGMT_ABANDON_REGION (R451). -/
  | mgmtAbandonRegion
  /-- SPDM_VERSION (R464). -/
  | spdmVersion
  /-- SPDM_CAPABILITIES (R464). -/
  | spdmCapabilities
  /-- SPDM_ALGORITHMS (R464). -/
  | spdmAlgorithms
  /-- SPDM_DIGESTS (R464). -/
  | spdmDigests
  /-- SPDM_CERTIFICATE (R464). -/
  | spdmCertificate
  /-- SPDM_CHALLENGE (R464). -/
  | spdmChallenge
  /-- SPDM_MEASUREMENTS (R464). -/
  | spdmMeasurements
  /-- SPDM_KEY_EXCHANGE (R449). -/
  | spdmKeyExchange
  /-- SPDM_FINISH (R449). -/
  | spdmFinish
  /-- SPDM_KEY_UPDATE (R444). -/
  | spdmKeyUpdate
  /-- SPDM_END_SESSION (R464). -/
  | spdmEndSession
  /-- HANG_POLL (R371). -/
  | hangPoll (part region : Nat) (others : List (Nat × Bool))
  /-- STOP_WAVE_PACKAGE (R410). -/
  | stopWavePackage
  /-- STOP_REPORT (R410). -/
  | stopReport
  /-- DRAIN_POLL (R413). -/
  | drainPoll (part region : Nat) (others : List DrainAns)
  /-- REGION_ERROR (R401). -/
  | regionError
  /-- REGION_ROLLBACK (R402). -/
  | regionRollback
  /-- MARKER_WAVE_START (R403). -/
  | markerWaveStart (part region : Nat)
  /-- SINK_WAVE_REPORT (R408). -/
  | sinkWaveReport
  /-- WAVE_COMPLETION_BROADCAST (R408). -/
  | waveCompletionBroadcast
  /-- LINK_DOWN_REPORT (R459). -/
  | linkDownReport
  /-- ILLEGAL (R84). -/
  | illegal (slot : BitVec 3) (w : BitVec 32)
  /-- SOFT_ERROR (R394). -/
  | softError (t : SoftTarget)
  /-- ARP (R443). -/
  | arp (ip : BitVec 32)
  /-- NEIGHBOUR_DISCOVERY (R443). -/
  | neighbourDiscovery (ip : BitVec 128)
  /-- BOUNDARY_SCAN (R465). -/
  | boundaryScan (tms tdi : Bool)
  /-- POWER_LOSS (R465). -/
  | powerLoss
  deriving DecidableEq, Repr

end Sys2Proof
end

