-- ==== Sys2Proof/Config.lean ====
section
/-!
DEFINITION. What the spec leaves open: free values that nothing in Lean can evaluate. Each is an opaque constant;
a statement about it holds whatever it is (log entries 4 and 10 name them all).
-/
namespace Sys2Proof.Config

/-- Which of several enabled actions happens next, and every other choice that the spec leaves to timing (R27, R482). -/
opaque pick : Nat → Nat

/-- The payload of a control token, by type: it has one (R12), whose bytes the spec does not give. -/
opaque controlPayload : Nat → BitVec 512

/-- KVAL of BOUND for an index that STSET refuses (R250): R393 gives the address there, and such an index has none. -/
opaque indexKval : BitVec 64 → BitVec 64

end Sys2Proof.Config
end

