-- ==== Sys2Proof/Machine/State.lean ====
section
/-!
DEFINITION. The state of one HL4 package as plain data: its cores with their contexts (03 R59, 01 R11, 15 R328), the
storage, and the package's units; the reasons a step stops; and the state after reset.
-/
namespace Sys2Proof.Machine

/-- Why the machine stops for good. -/
inductive Fault where
  /-- The package halted above its limit temperature (20 R467): no step follows until it is cooled and power-cycled.
  Raised by `step` after THERMAL_SHUTDOWN; safe, the spec gives the machine no further effect. -/
  | thermalHalt
  deriving DecidableEq, Repr

/-- Why an instruction has no meaning. -/
inductive Refusal where
  /-- An instruction whose arm in Dispatch.lean has no meaning yet. Raised by no meaning; safe. -/
  | notModelled (mnemonic : String)
  deriving DecidableEq, Repr

/-! ### Registers of a context -/

/-- A stream register (R61): the loaded descriptor, the six indices, the miss flag, and the page that the last access
through an indirect dimension chose (R72 compares it with the next). -/
structure Stream where
  loaded : Bool
  desc   : BitVec 512
  idx    : List Nat
  miss   : Bool
  page   : Option Nat
  deriving DecidableEq, Repr, Inhabited

/-- A branch-target register with its fetch buffer (R92); `bad` keeps the target of a PBRX above 8191 (R141). -/
structure BtReg where
  target  : BitVec 16
  fetched : Bool
  bad     : Option Word
  deriving DecidableEq, Repr, Inhabited

/-- A fixed-latency result on its way (R90): the bundles still to issue, the register and the value. -/
structure InFlight where
  count : Nat
  dest  : RegName
  val   : Nat
  deriving DecidableEq, Repr, Inhabited

/-- An active sequencer level (R94): its body is the bundles `first` to `last`. -/
structure Loop where
  lvl   : Nat
  first : Nat
  last  : Nat
  deriving DecidableEq, Repr, Inhabited

/-- Where a taken branch goes: a bundle, or the bad target that PBRX kept (R141). -/
inductive Target where
  | goto (n : Nat)
  | bad (v : Word)
  deriving DecidableEq, Repr, Inhabited

/-- The next-PC state (R98). -/
inductive NextPc where
  /-- Issue bundle `n`. -/
  | at (n : Nat)
  /-- Issue the delay bundle `n`; a taken branch then goes to its target (R92, R93). -/
  | delay (n : Nat) (t : Option Target) (call : Bool)
  /-- The target that a bad bt register named would issue now (R141). -/
  | badTarget (v : Word)
  /-- Open a firing at the entry (R98). -/
  | openFiring
  deriving DecidableEq, Repr, Inhabited

/-- One stage of the chain (R205). -/
structure ChainStage where
  op    : Nat
  const : VWord
  depth : Nat
  deriving DecidableEq, Repr, Inhabited

/-- An exact dyadic sum `m * 2^e` (R226: all sums are exact). -/
structure Exact where
  m : Int
  e : Int
  deriving DecidableEq, Repr, Inhabited

/-- A load entry of a plane record (R219): the stream as it stood, the addresses and the first beat. -/
structure LoadEntry where
  st  : Stream
  a0  : Int
  sc0 : Int
  k   : Nat
  deriving DecidableEq, Repr, Inhabited

/-- A plane record (R218). -/
structure PlaneRec where
  code    : Nat
  mask    : BitVec 64
  entries : List LoadEntry
  deriving DecidableEq, Repr, Inhabited

/-- The mask unit (R218, R223): the block's fields, the ancestor rows and the bias array. -/
structure MaskUnit where
  mode  : Nat
  lmb   : Bool
  ntree : Nat
  qbase : BitVec 32
  kbase : BitVec 32
  tbase : BitVec 32
  scale : BitVec 32
  subst : BitVec 32
  slope : BitVec 32
  anc   : Tab (BitVec 64)
  bias  : Tab (BitVec 32)
  deriving DecidableEq, Repr, Inhabited

/-- What Caliper keeps for a touched row (R226, R227): expectation, beats, peak, prior and non-finite flags, the
formats of its beats, and the drained values of each segment. -/
structure RowSpan where
  h       : Exact
  b       : Nat
  peak    : Option Int
  prior   : Bool
  flagged : Bool
  pairs   : List (Nat × Nat)
  drained : Tab (List (BitVec 32))
  deriving DecidableEq, Repr, Inhabited

/-- What Caliper keeps for a column (R226): adjustment, folded expectation, peak and non-finite flag. -/
structure ColSpan where
  b       : Exact
  e       : Exact
  peak    : Option Int
  flagged : Bool
  deriving DecidableEq, Repr, Inhabited

/-- The check span (R226). -/
structure Span where
  rows  : Tab RowSpan
  cols  : Tab ColSpan
  s     : Tab Exact
  b     : Nat
  pairs : List (Nat × Nat)
  prior : Bool
  delta : Option (Nat × Nat × Exact)
  deriving DecidableEq, Repr, Inhabited

/-- The registers that the checkpoint copy holds (R59, R100), with their full/empty bits. -/
structure Regs where
  x      : Vector Word 32
  v      : Vector VWord 32
  m      : Vector (BitVec 16) 16
  q      : Vector Bool 8
  xf     : Vector Bool 32
  vf     : Vector Bool 32
  mf     : Vector Bool 16
  qf     : Vector Bool 8
  bt     : Vector BtReg 4
  st     : Vector Stream 16
  lc     : Vector (BitVec 32) 6
  lt     : Vector (BitVec 32) 6
  sl     : BitVec 32
  loops  : List Loop
  am     : Vector (BitVec 32) 4
  fst    : BitVec 7
  frm    : BitVec 2
  xbp    : BitVec 12
  flight : List InFlight
  chain  : Vector ChainStage 6
  acode  : BitVec 4
  wcode  : BitVec 4
  front  : Bool
  rec0   : PlaneRec
  rec1   : PlaneRec
  mask   : MaskUnit
  span   : Span
  fixEn  : Bool
  ckres  : BitVec 32
  ckloc  : BitVec 64
  ckpol  : BitVec 23
  next   : NextPc
  deriving DecidableEq, Repr

/-! ### Ports and rings (R14 to R20, R73) -/

/-- A token in a ring: the slot of its entry, its header and its payload length in bytes. -/
structure RingTok where
  slot   : Nat
  ticket : Nat
  seq    : Nat
  type   : Nat
  tag    : Word
  len    : Nat
  producer : Nat
  deriving DecidableEq, Repr, Inhabited

/-- A control token held aside by a REORDER port for one producer (R18), with its m_p. -/
structure CtlRec where
  producer : PortAddr
  type     : Nat
  tag      : Word
  seq      : Nat
  bound    : Nat
  deriving DecidableEq, Repr, Inhabited

/-- The state of an input port: the tokens of its ring in order from the committed head (FIFO), or by ticket
(REORDER), the pops of this epoch, and the counts of R405 and R414; `bound`: a cow port that its tree home knows. -/
structure PortIn where
  toks    : List RingTok
  tail    : Nat
  head    : Nat
  popped  : Nat
  grant   : Nat
  ctl     : List CtlRec
  highest : Tab (Option Nat)
  seqs    : Nat
  rate    : Nat
  owed    : Nat
  notice  : Bool
  bound   : Bool
  deriving DecidableEq, Repr, Inhabited

/-- The state of an output port: credits and those reserved in this epoch (R15), the known head and the tickets
(R16, R17), the requests for tickets that a ring of another package has not answered, and the counts. -/
structure PortOut where
  credits  : Nat
  reserved : Nat
  seq      : Nat
  head     : Nat
  granted  : List Nat
  used     : List Nat
  replay   : List Nat
  gotEpoch : List Nat
  last     : Nat
  asks     : Nat
  rate     : Nat
  deriving DecidableEq, Repr, Inhabited

/-- A snapshot half as the machine keeps it (R406): the wave, the registers, the port state, the event queue with its
indices, and the bytes of the state-map windows. -/
structure Snap where
  wave : Nat
  regs : Regs
  ctol : Vector (BitVec 16) 8
  ins  : Vector PortIn 8
  outs : Vector PortOut 8
  evHead : Nat
  evTail : Nat
  evq  : List Byte
  wins : List (List Byte)
  deriving DecidableEq, Repr

/-! ### Withheld and released effects (R99, R104) -/

/-- An effect that a stage context withholds until its checkpoint commits. -/
inductive Effect where
  /-- An entry of the store-withholding buffer. -/
  | store (sp : Space) (addr : Nat) (bytes : List Byte)
  /-- A TSEND: port, type, template address, payload length, on a REORDER port the ticket (R264), and, once they have been
  read, the bytes of the template and the payload. -/
  | send (port type addr len : Nat) (ticket : Option Nat) (bytes : Option (List Byte))
  /-- The launch of a card (R254); once it has been released and a FENCE holds it, with the xbp of that moment (R78). -/
  | launch (major card : Nat) (xbp : Option (BitVec 12))
  | bari (addr : Nat) (count : BitVec 32)
  | bara (addr : Word) (err : Bool)
  /-- A max-magnitude update: the magnitudes, and whether a NaN was among them (R55). -/
  | amax (n : Nat) (mags : List Nat) (nan : Bool)
  /-- An MTS to am0 to am3 (R55). -/
  | amset (n : Nat) (v : BitVec 32)
  /-- A tier-miss record (R72): stream, page and index entry. -/
  | tierMiss (st page entry : Nat)
  | fence (kind scope : Nat) (mask : BitVec 16)
  | mark
  /-- Caliper policy 1: set the error bit of a barrier word (R232). -/
  | barError (addr : Nat)
  deriving DecidableEq, Repr

/-- A released effect that has not performed, with its place in the core's release order. -/
structure Released where
  seq : Nat
  eff : Effect
  deriving DecidableEq, Repr

/-- The long-latency producers of R176: one that raises no flags, one that does, and a VCH, which does too and whose
results arrive in issue order (R207). -/
inductive LongKind where
  | plain
  | float
  | chain
  deriving DecidableEq, Repr, Inhabited

/-- A long-latency producer that has not delivered (R87). -/
inductive Producer where
  /-- Its values are fixed; they are written, and the flags raised, when it completes. -/
  | value (writes : List (RegName × Nat)) (flags : BitVec 7) (kind : LongKind)
  /-- An ACLD: segment `seg` of row `row` (R247). -/
  | acld (row seg : Nat) (bits : VWord)
  /-- An EVPOP awaiting a record (R149). -/
  | evpop (d b : Nat)
  /-- A TKTG awaiting its grant (R265); `after`: a MARK stood before it that had not forwarded its marker (R274). -/
  | tktg (d port : Nat) (after : Bool)
  /-- An RNG awaiting its answer (R157). -/
  | rng (d lvl : Nat)
  deriving DecidableEq, Repr, Inhabited

/-! ### Contexts -/

/-- The states of a resident slot (R363). -/
inductive CtxStatus where
  | empty
  | reserved
  | configured
  | armed
  | running
  | preempted
  | staged
  | drained
  deriving DecidableEq, Repr, Inhabited

/-- A checkpoint boundary that has not committed (R98, R100): an explicit one, that of DONE, or an implicit one. -/
inductive Boundary where
  | ckpt
  | done
  | implicit
  deriving DecidableEq, Repr, Inhabited

/-- A rerun pair (R396): not in one, in rerun 1, or in rerun 2 with the outcome of rerun 1. -/
inductive Rerun where
  | none
  | pending
  | first
  | second (sig : BitVec 32) (count : Nat) (trap : Option (Nat × BitVec 16 × Word))
  deriving DecidableEq, Repr, Inhabited

/-- Why a bundle froze (R91, R375). -/
inductive Freeze where
  | register
  | evpopReg
  | credit (port : Nat)
  | ticket (port : Nat)
  | fetch
  | engineQueue
  | footprint
  | waitb
  | waitt (port : Nat)
  | rpop (port : Nat)
  | eventQueue
  | producers
  | jobOverlap
  | array
  | fence
  | rngAnswer
  | flags
  | halt
  | key
  | translations
  | slotSwitch
  | jobs
  deriving DecidableEq, Repr, Inhabited

/-- A stage context (R11) with its configuration (R10). `took`: its W as a stop wave took it while it ran (R375). -/
structure Context where
  status    : CtxStatus
  stopped   : Option Nat
  cfg       : StageCfg
  image     : Nat
  region    : Nat
  live      : Regs
  copy      : Regs
  kcpc      : Nat
  ctol      : Vector (BitVec 16) 8
  ckcnt     : BitVec 4
  pattern   : BitVec 32
  retry     : Bool
  cyc       : BitVec 64
  fires     : BitVec 64
  cnt       : Vector (BitVec 64) 6
  producers : List Producer
  withheld  : List Effect
  relq      : List Released
  undo      : List (Nat × AccRow)
  undoRows  : List Nat
  ins       : Vector PortIn 8
  outs      : Vector PortOut 8
  evHead    : Nat
  evPopped  : Nat
  evTail    : Nat
  rngGot    : List (Nat × Nat)
  rngReplay : List (Nat × Nat)
  boundary  : Option Boundary
  mchk      : Option Nat
  mmpbBusy  : Bool
  macBusy   : List Nat
  bf16Busy  : Bool
  firing    : Bool
  memberDone : Bool
  rerun     : Rerun
  sig       : List Byte
  bundles   : Nat
  restored  : List (Nat × List Nat × Bool)
  marker    : Nat
  snaps     : List (Bool × Snap)
  ctlBusy   : Option Nat
  why       : Option Freeze
  e         : Nat
  wait      : Nat
  starving  : Bool
  took      : Nat
  deriving DecidableEq, Repr


/-! ### Jobs (R78 to R80, R254) -/

/-- A footprint region (R78). -/
structure FpRegion where
  space : Space
  start : Nat
  len   : Nat
  write : Bool
  deriving DecidableEq, Repr, Inhabited

/-- Where a job stands: launched; its operation under way; suspended by a translation fault (R260); finished and
awaiting completion; its status written, and waiting to post its record while the queue is full (R257, R77). -/
inductive JobState where
  | queued
  | running
  | suspended
  | finished
  | posting
  deriving DecidableEq, Repr, Inhabited

/-- A translation under way (R377): the address, the access (1 read, 2 write, 3 both), the operand, whether every level
is read afresh; the level and the table that come next; the leaf as read, while its update is on its way to another
package; and whether an answer of another package is awaited. -/
structure Walk where
  va    : BitVec 80
  acc   : Nat
  opnd  : Nat
  fresh : Bool
  lvl   : Nat
  tbl   : Nat
  leaf  : Option (BitVec 64)
  wait  : Bool
  deriving DecidableEq, Repr, Inhabited

/-- An outstanding job (R254). `saved`: the shadow slot in which its context lies, if it has been saved since (R346).
`pend` holds the fabric requests whose answers it awaits, by place and length; `got` the
bytes of a copy's row read so far, by offset; `refused` the refused destinations of a replication, by index and code. -/
structure Job where
  id       : Nat
  seq      : Nat
  owner    : Who
  saved    : Option Bool
  part     : Nat
  region   : Nat
  wave     : Nat
  major    : Nat
  card     : Nat
  bytes    : List Byte
  xbp      : BitVec 12
  cls      : Nat
  asid     : BitVec 16
  regions  : List FpRegion
  state    : JobState
  progress : Nat
  err      : Nat
  xflags   : BitVec 3
  result   : Word
  cancel   : Bool
  silent   : Bool
  killed   : Bool
  pend     : List (Nat × Nat)
  got      : List (Nat × List Byte)
  refused  : List (Nat × Nat)
  walk     : Option Walk
  deriving DecidableEq, Repr, Inhabited

/-- A cached translation (R381): ASID, first page number, pages covered, leaf entry. -/
structure TlbEntry where
  asid  : BitVec 16
  vpn   : Nat
  pages : Nat
  entry : BitVec 64
  deriving DecidableEq, Repr, Inhabited

/-- A row of a weight plane (R216): raw elements, block scales and the hidden checksum, which is absent when the
row holds a non-finite weight. -/
structure PlaneRow where
  code   : Nat
  bits   : Nat
  scales : List Nat
  hidden : Option Exact
  deriving DecidableEq, Repr, Inhabited

/-- A weight load in progress (R219): the context, the plane it fills, its load entry, the next beat, the rows that
its beats will write, and whether a checkpoint has committed since it was issued. -/
structure MwldLoad where
  ctx   : Bool
  plane : Bool
  beat  : Nat
  data  : List (List PlaneRow)
  old   : Bool
  deriving DecidableEq, Repr, Inhabited

/-- A saved context in a shadow slot (R346, R416), with the accumulator field when its array state was there. -/
structure Shadow where
  ctx  : Bool
  part : Nat
  saved : Context
  acc  : Tab AccRow
  deriving DecidableEq, Repr

/-- A trap that a slot raises: the cause code, the reporting slot, whether it is tied to none, and KVAL (R393). -/
structure TrapInfo where
  cause  : Nat
  slot   : Nat
  noslot : Bool
  fpc    : Option (BitVec 16)
  val    : Word
  deriving DecidableEq, Repr, Inhabited

/-- What the control slot of the bundle that is issuing asks of the sequencer. -/
inductive CtlAct where
  | none
  | branch (t : Option Target) (call : Bool)
  | loop (l : Loop) (active : Bool)
  | brk (lvl : Nat)
  | ckpt
  | done
  | ret
  deriving DecidableEq, Repr, Inhabited

/-- What the slots of the bundle that is issuing leave for its end, since every source is read before any result is
written (R86): claims of full/empty bits, producers, flags, special-register writes, stream and bt writes, old accumulator rows,
the control action, and the trap or freeze met; `before`, the bytes that its slots have stored over, as they stood in the
issue cycle, and `seen`, the context whose special registers it reads, as it stood then. The model's own. -/
structure Scratch where
  slot    : Nat
  claims  : List RegName
  flags   : BitVec 7
  sregs   : List (Nat × Nat)
  streams : List (Nat × Stream)
  pops    : List Nat
  accOld  : List (Nat × AccRow)
  act     : CtlAct
  implicit : Bool
  trapped : Option TrapInfo
  frozen  : Option Freeze
  keep    : Bool
  memerr  : Option (Bool × Word)
  prods   : List Producer
  before  : List Effect
  seen    : Option Context
  deriving DecidableEq, Repr, Inhabited

/-- A core. -/
structure Core where
  curator   : Bool
  ctxA      : Context
  ctxB      : Context
  cur       : Regs
  curProd   : List Producer
  kstat     : BitVec 17
  kcause    : BitVec 12
  kfpc      : BitVec 16
  kcpc      : BitVec 13
  kval      : Word
  kvec      : BitVec 29
  kscr      : Vector Word 4
  partid    : BitVec 28
  budget    : BitVec 32
  shadowctl : BitVec 24
  margin    : BitVec 32
  fqctl     : BitVec 41
  fqPost    : List (BitVec 256)
  acc       : Tab AccRow
  stagedAcc : Tab AccRow
  plane0    : Tab PlaneRow
  plane1    : Tab PlaneRow
  mwld      : Option MwldLoad
  jobs      : List Job
  nextSeq   : Nat
  tlb       : List TlbEntry
  shadow0   : Option Shadow
  shadow1   : Option Shadow
  running   : Option Bool
  lastBegun : Option Bool
  w         : Nat
  halted    : Bool
  switchWait : Option Bool
  withdrawn : Bool
  faulted   : Bool
  stopEntry : List (Nat × Nat × Bool)
  prog      : Tab (BitVec 256)
  arena     : Option Nat
  deriving DecidableEq, Repr

/-! ### The package -/

/-- A range that a member holds (R23): the level that its RNG named, and `[lo, hi)`. -/
structure Held where
  core : Nat
  ctx  : Bool
  lvl  : Nat
  lo   : Nat
  hi   : Nat
  deriving DecidableEq, Repr, Inhabited

/-- A range cell (R23, R369): the gang it serves, the grain, the bound, whether the range has been taken, and the
ranges that members hold. -/
structure RangeCell where
  part   : Nat
  region : Nat
  stage  : Nat
  grain  : Nat
  hi     : Nat
  taken  : Bool
  held   : List Held
  deriving DecidableEq, Repr, Inhabited

/-- A partition on this package (R340) with the registers that are kept per partition (R337). -/
structure Partition where
  params  : PartParams
  ptbase  : BitVec 56
  sltctl  : BitVec 17
  linkctl : BitVec 53
  hangint : BitVec 48
  ctolmin : BitVec 16
  deriving DecidableEq, Repr, Inhabited

/-- An entry of the package's walker cache (R381): ASID, level, the index bits above and at that level, the entry. -/
structure WalkEntry where
  asid  : BitVec 16
  lvl   : Nat
  hi    : Nat
  entry : BitVec 64
  deriving DecidableEq, Repr, Inhabited

/-! Links (R417 to R442) -/

/-- The states of a key slot (R437). -/
inductive KeyState where
  | unloaded
  | loaded
  | active
  | held
  deriving DecidableEq, Repr, Inhabited

/-- A key slot: its invocation or expected counter, and the frames accepted since it was held (R439). -/
structure KeySlot where
  state   : KeyState
  key     : BitVec 256
  counter : Nat
  seen    : Nat
  deriving DecidableEq, Repr, Inhabited

/-- A link end. Key slots are numbered row × 2 + slot. Credits are those of best-effort, escape and link-control
flits; `ret` those to be returned. -/
structure Link where
  up      : Bool
  farChip : Nat
  farLink : Nat
  tx      : Tab KeySlot
  rx      : Tab KeySlot
  txNext  : Nat
  rxNext  : Nat
  unacked : List (Flit × Frame)
  again   : List Nat
  nack    : Bool
  owed    : Bool
  fails   : Nat
  tmo     : Nat
  cred    : Nat × Nat × Nat
  ret     : Nat × Nat × Nat
  slot    : Nat
  deriving DecidableEq, Repr, Inhabited

/-- Who awaits the reply to a request or token flit (R431). -/
inductive Waiter where
  | job (core id idx : Nat)
  | bara (core : Nat) (addr : Word) (cur : Bool)
  | token
  | host (id idx : Nat)
  | mirror (core : Nat) (ctx : Bool)
  | cow (part serial : Nat)
  | save (h : BitVec 128)
  | firm (id : Nat)
  | none
  deriving DecidableEq, Repr, Inhabited

/-- A flit that a router holds, with the input port at which it waits (R425; 146 for one that its stream held back, R432)
and the class in which it came, whose buffer entry it takes (R427); 4 when the entry has gone with its link. -/
structure Waiting where
  inp  : Nat
  flit : Flit
  came : Nat
  deriving DecidableEq, Repr, Inhabited

/-- A request or token flit without its reply (R431, R433): the region it is sent for, and the resends made. -/
structure OpenFlit where
  seq    : Nat
  flit   : Flit
  who    : Waiter
  part   : Nat
  region : Nat
  tries  : Nat
  core   : Nat
  deriving DecidableEq, Repr, Inhabited

/-- The source end of a stream (R431). `queue` holds flits that no room has been found for. -/
structure TxStream where
  dchip : Nat
  lane  : Nat
  next  : Nat
  opens : List OpenFlit
  queue : List OpenFlit
  deriving DecidableEq, Repr, Inhabited

/-- The target end of a stream (R432): the filter of the last 1024 performed, each with its reply: type (0 while the host
tier has not answered), code and payload. -/
structure RxStream where
  schip    : Nat
  lane     : Nat
  expected : Nat
  filter   : List (Nat × Nat × Nat × List Byte)
  held     : List Flit
  deriving DecidableEq, Repr, Inhabited

/-- The flits of a token that has not wholly arrived (R421). -/
structure Fragment where
  schip : Nat
  port  : PortAddr
  flits : List Flit
  deriving DecidableEq, Repr, Inhabited

/-- The router (R422 to R435). A slot table is keyed out × 256 + slot; an unlisted entry is free. `route` and `escape`
hold the entries that management wrote; others are as training left them. `out` holds the frames put on the links, `lslot`
the slots of the outputs to cores, Plinth, and boot and management (128 to 145). -/
structure Router where
  links    : Tab Link
  waiting  : List Waiting
  slots    : Tab Nat
  pending  : Tab Nat
  commit   : List (Nat × Nat)
  route    : Tab (Option (BitVec 32))
  escape   : Tab (Option (BitVec 8))
  dltime   : Nat
  moved    : Nat
  dropped  : Nat
  tx       : List TxStream
  rx       : List RxStream
  arrived  : List Waiting
  frags    : List Fragment
  rewrites : List (Nat × Nat × Nat)
  out      : List (Nat × Frame)
  lslot    : Tab Nat
  deriving DecidableEq, Repr, Inhabited

/-! The prefix engine (R296 to R311) -/

/-- A node of the tree (R302). -/
structure TreeNode where
  lpid   : Nat
  parent : Nat
  toks   : List Nat
  stamp  : Nat
  deriving DecidableEq, Repr, Inhabited

/-- An allocated LPID's count, 32 bits, and in-tree bit (R302). -/
structure LpidRec where
  count  : BitVec 32
  inTree : Bool
  deriving DecidableEq, Repr, Inhabited

/-- The tree, the counts and the free order: what R309 restores. Free LPIDs are allocated from `back` (those that an undo
returned), then from `fresh` up, then from `freed`, which holds the others in the order in which they were freed, with region,
wave, and whether that wave is complete (R310). -/
structure TreeState where
  nodes  : List TreeNode
  counts : Tab (Option LpidRec)
  back   : List Nat
  fresh  : Nat
  freed  : List (Nat × Nat × Nat × Bool)
  stamp  : Nat
  deriving DecidableEq, Repr, Inhabited

/-- A prefix request as it reaches the tree home: the launching core, the operation, its scalar fields and the arrays
that its card names. -/
structure PrefixReq where
  chip  : Nat
  core  : Nat
  job   : Nat
  part  : Nat
  region : Nat
  wave  : Nat
  lane  : Nat
  seq   : Nat
  major : Nat
  f     : List Nat
  arr   : List Nat
  arr2  : List Nat
  deriving DecidableEq, Repr, Inhabited

/-- A prefix reply: where it goes, error, result, and the 32-bit words to write at offsets of the array. -/
structure PrefixRep where
  chip   : Nat
  core   : Nat
  job    : Nat
  lane   : Nat
  seq    : Nat
  err    : Nat
  result : Word
  writes : List (Nat × Nat)
  deriving DecidableEq, Repr, Inhabited

/-- A cow port of the chain (R306): its address and ring size, the credits, the tokens sent, the popped counts reported
by wave; the tokens (old, new, serial) that a roll-back has it send again (R311), held until the region goes on. -/
structure CowPort where
  port    : PortAddr
  region  : Nat
  entries : Nat
  credits : Nat
  sent    : Nat
  pops    : List (Nat × Nat)
  due     : List (Nat × Nat × Nat)
  held    : Bool
  deriving DecidableEq, Repr, Inhabited

/-- A served request of the undo log (R309, R311): its wave, region, the tree before and after it, and its cow token
(old, new, serial) with the sequence number on each cow port. -/
structure TreeLog where
  wave   : Nat
  region : Nat
  before : TreeState
  after  : TreeState
  cow    : Option (Nat × Nat × Nat)
  seqs   : List (PortAddr × Nat)
  deriving DecidableEq, Repr, Inhabited

/-- The prefix engine of a partition whose tree home is on this package (R302): its queue, and the replies that await the
visibility of a cow token, with the tokens outstanding (R294). -/
structure PrefixEngine where
  part    : Nat
  tree    : TreeState
  l       : Nat
  p       : Nat
  n       : Nat
  serial  : Nat
  ports   : List CowPort
  log     : List TreeLog
  queue   : List PrefixReq
  waiting : List (Nat × Nat × PrefixRep)
  deriving DecidableEq, Repr, Inhabited

/-! Regions (R354 to R363, R371, R401 to R415) -/

/-- Where a region stands. -/
inductive RegionPhase where
  | running
  | stopping
  | stopped
  | draining
  | drained
  deriving DecidableEq, Repr, Inhabited

/-- An entry of an ingress port's replay area (R408): a kept token, or the marker of a wave; `due` while it is to be
re-injected. -/
structure Replay where
  port  : PortAddr
  seq   : Nat
  tok   : Option Token
  wave  : Nat
  due   : Bool
  deriving DecidableEq, Repr, Inhabited

/-- An ingress port at the Plinth endpoint (R361): its credits, its sequence count, the capacity of its replay area, and
the control tokens that await a credit, by type and tag. -/
structure Ingress where
  port    : PortAddr
  credits : Nat
  count   : Nat
  cap     : Nat
  owed    : List (Nat × Nat)
  deriving DecidableEq, Repr, Inhabited

/-- A token held at an egress port (R407); `wave` is that of the first marker behind it, once one has come. -/
structure EgressTok where
  port : PortAddr
  tok  : Token
  wave : Option Nat
  deriving DecidableEq, Repr, Inhabited

/-- A region that this package carries. Its home keeps the fields of recovery as well: `reports`, the chips that have
answered the wave or order under way; `errors`, pending region errors by class, chip and core; `recover`, a recovery is
under way; `rolled`, its roll-back has been ordered; `again`, the wave last rolled back to and how often; `replaced`, the
packages that others have replaced since, `replacing`, the packages that are to replace others, with the channel and tag of the
request (R460, R478). `stray` marks a region stopped because every link of the package is down (R459), `gone`
one that is being abandoned; `issuer`, `drainer`: the core here whose PSTOP, or PDRAIN, awaits its record; `wasDrained`: it was drained when a stop came; `stopOn`: its stop wave has been started; `least`: the least quiet time of a hang; `drains`: its sources have injected
drains (R20). -/
structure Region where
  part    : Nat
  num     : Nat
  image   : Nat
  cfg     : ImagePart
  phase   : RegionPhase
  source  : Nat
  issuer  : Option Nat
  drainer : Option Nat
  closed  : Bool
  ready   : Bool
  readyTo : Option (Nat × Nat)
  sinks   : List Nat
  wave    : Nat
  waving  : Bool
  asked   : Nat
  sinkWave : List Nat
  reports : List Nat
  said    : Bool
  errors  : List (Nat × Nat × Nat)
  recover : Bool
  rolled  : Bool
  again   : Nat × Nat
  replaced : List Nat
  reinject : Bool
  ingress : List Ingress
  replay  : List Replay
  egress  : List EgressTok
  sent    : Nat
  recv    : Nat
  totals  : Option (Nat × Nat)
  used    : Nat × Nat
  abort   : Option (Nat × Nat)
  quiet   : Nat
  lost    : List Nat
  answer  : Option (Nat × Nat)
  replacing : List (Nat × Nat × Nat)
  stray   : Bool
  gone    : Bool
  wasDrained : Bool
  stopOn  : Bool
  least   : Nat
  drains  : Bool
  deriving DecidableEq, Repr, Inhabited

/-- A message body on its way to the host, before framing (R447). -/
inductive HostAns where
  | event (code chip core region : Nat) (value : Word) (ids : Option (Nat × Nat))
  | launch (image region status : Nat) (ports : List (PortAddr × Nat)) (chip reason : Nat)
  | vdata (bytes : List Byte)
  | egress (port : PortAddr) (tok : Token)
  | pagerd (off len : Nat)
  | pagewr (off : Nat) (data : List Byte)
  | telem (bytes : List Byte)
  | spdm (bytes : List Byte)
  | error (reason : Nat) (value : Word)
  | result (status : Nat) (value : Word) (chips : List (Nat × Nat))
  deriving DecidableEq, Repr, Inhabited

/-- A message for the host: channel and request number. A channel from 4096 on is one of another package: the channel
plus 4096 × (chip + 1) of the package through which the request came. -/
structure HostOut where
  channel : Nat
  tag     : Nat
  ans     : HostAns
  deriving DecidableEq, Repr, Inhabited

/-- An end of a link that was up at the last build of the tree: its chip and link, the far chip and link (R459). -/
structure Edge where
  chip    : Nat
  link    : Nat
  far     : Nat
  farLink : Nat
  deriving DecidableEq, Repr, Inhabited

/-- Messages between packages along the boot spanning tree (R410: stop, poll and completion messages; R357, R408,
R457, R459). Their encoding in region-control flits is not given (log entry 8). -/
inductive CtlMsg where
  | prepare (h : BitVec 128) (save : Option (BitVec 56 × Nat))
  | report (h : BitVec 128) (chip reason : Nat)
  | apply (h : BitVec 128)
  | abort (h : BitVec 128)
  | sinkReady (part region stage : Nat)
  | stopAsk (part region source : Nat)
  | stop (part region source : Nat)
  | stopped (part region chip : Nat)
  | stopDone (part region : Nat)
  | thawAsk (part region : Nat)
  | thaw (part region : Nat)
  | drain (part region : Nat)
  | drainStart (part region : Nat)
  | drainWrite (part region : Nat) (offs : List (Nat × Nat))
  | drained (part region chip : Nat)
  | drainEnd (part region : Nat) (ok : Bool)
  | waveStart (part region wave : Nat)
  | sinkWave (part region stage wave : Nat)
  | waveDone (part region wave : Nat)
  | error (part region cls chip core : Nat)
  | rollback (part region wave : Nat)
  | rolledBack (part region chip : Nat)
  | resume (part region wave : Nat) (abort : Option (Nat × Nat)) (reinject : Bool)
  | replace (part region lost new wave : Nat)
  | rewire (part region lost new : Nat)
  | replaced (part region lost chip : Nat) (ok : Bool)
  | abandon (part region : Nat)
  | linkUp (e : Edge)
  | linkDown (chip link : Nat)
  | chipLost (chip : Nat) (links : List Edge)
  | holds (part chip : Nat)
  | left (part chip : Nat)
  | bootStatus (session : Nat) (sts : List (Nat × Nat))
  | credit (producer : PortAddr) (n : Nat)
  | head (producer : PortAddr) (h : Nat)
  | ticketAsk (ring producer : PortAddr)
  | ticket (producer : PortAddr) (t : Nat)
  | cowBind (part region : Nat) (port : PortAddr) (entries popped : Nat)
  | cowBound (port : PortAddr)
  | cowPops (port : PortAddr) (wave count : Nat)
  | host (m : HostMsg)
  | answer (o : HostOut)
  deriving DecidableEq, Repr

/-- A launch in progress on this package (R357): the handle, the save area of a restore and its bytes read so far, the
host request that it answers at the entry package, the neighbour that the prepare came from, the neighbours whose
reports are awaited, the part found, the package's own verdict (0 accept), and the rejections reported. -/
structure Launch where
  handle  : BitVec 128
  save    : Option (BitVec 56 × Nat)
  area    : List Byte
  entry   : Option (Nat × Nat)
  via     : Nat
  kids    : List Nat
  part    : Option ImagePart
  verdict : Option Nat
  rejects : List (Nat × Nat)
  deriving DecidableEq, Repr

/-! Boot (R454 to R457) and the host port (R443 to R452) -/

/-- A boot session (R455 to R457): whether one is open; the BEGIN fields; the manifest bytes received; the bytes digested
so far; the status; the image-part bases and the cores' windows that it has written; whether all its DATA and CFG packets
addressed this package alone; the host request that it answers at the entry package, and the neighbour the packets come
from. `lastOk`: the last session closed here was such a session and ended in status 0. `unloaded`: the cores whose
windows count as unloaded. -/
structure Boot where
  opened   : Bool
  session  : Nat
  model    : BitVec 64
  hash     : List Byte
  manifest : Tab (Option Byte)
  mlen     : Nat
  entries  : Nat
  input    : List Byte
  status   : Nat
  bases    : List Nat
  windows  : List Nat
  alone    : Bool
  entry    : Option (Nat × Nat)
  via      : Nat
  lastOk   : Bool
  unloaded : List Nat
  deriving DecidableEq, Repr, Inhabited

/-- A boot session that has ended here and awaits the statuses of its neighbours (R457): the host request that it
answers at the entry package, the neighbour the packets came from, the statuses known, the neighbours still to report. -/
structure BootEnd where
  session  : Nat
  entry    : Option (Nat × Nat)
  via      : Nat
  statuses : List (Nat × Nat)
  waitFor  : List Nat
  sent     : Bool
  deriving DecidableEq, Repr, Inhabited

/-- A frame to send: its kind, last bit, tag and body, and the egress port whose credit returns when the host has
acknowledged it (R476). -/
structure OutFrame where
  kind   : Nat
  last   : Bool
  tag    : Nat
  body   : List Byte
  egress : Option PortAddr
  deriving DecidableEq, Repr, Inhabited

/-- A Plinth channel (R444 to R446). `asm` gathers the frames of a message that has not ended, `tmo` counts consecutive
timeouts; `renewed`, `renewedIn`: the key has been renewed since the sequence numbers sent, or received, last began at 0. -/
structure Channel where
  num     : Nat
  part    : Nat
  keyed   : Bool
  key     : BitVec 256
  rxNext  : Nat
  txNext  : Nat
  owed    : Bool
  unacked : List (PlinthFrame × Option PortAddr)
  queue   : List OutFrame
  asm     : List Byte
  tmo     : Nat
  renewed : Bool
  renewedIn : Bool
  deriving DecidableEq, Repr, Inhabited

/-- A VREAD or VWRITE under way (R447): its channel and request number, the bytes read so far or to write, how many
bytes are done, its translation, and whether a request of it is unanswered. -/
structure HostAcc where
  id    : Nat
  reply : Nat × Nat
  part  : Nat
  write : Bool
  va    : BitVec 80
  len   : Nat
  data  : List Byte
  done  : Nat
  walk  : Option Walk
  wait  : Bool
  deriving DecidableEq, Repr, Inhabited

/-- A host-tier request that a PAGERD or PAGEWR carries (R450). -/
structure PageReq where
  tag  : Nat
  flit : Flit
  deriving DecidableEq, Repr, Inhabited

/-- The SPDM responder (R449, R464): 0 nothing agreed, 1 version, 2 capabilities, 3 algorithms, 4 key exchange answered,
5 session open; the transcript; the secret of the key exchange; the session's data secrets of either direction. -/
structure Spdm where
  phase  : Nat
  script : List Byte
  secret : List Byte
  req    : List Byte
  rsp    : List Byte
  deriving DecidableEq, Repr, Inhabited

/-- How far a power-on has come (R465: the last step done), whether the firmware was refused, power management (R466,
R467), the boundary-scan port, the margin log, and the cores whose last plan found no offset, which the flash keeps. -/
structure Power where
  step    : Nat
  failed  : Bool
  mhz     : Nat
  limited : Bool
  hot     : Bool
  tap     : Nat
  ir      : List Bool
  dr      : List Bool
  log     : List (BitVec 512)
  short   : List Nat
  deriving DecidableEq, Repr, Inhabited

/-- The boot spanning tree as this package knows it (R453): how often it has been built, the root and its distance, the
parent's chip with the link to it, the children, the links to them with the chips of their subtrees; at the root, the
links up at the last build, and those reported down since; the chips lost; and the packages known to hold a partition. -/
structure Tree where
  epoch    : Nat
  root     : Nat
  dist     : Nat
  parent   : Option Nat
  up       : Nat
  children : List Nat
  below    : List (Nat × List Nat)
  built    : List Edge
  downs    : List (Nat × Nat)
  lost     : List Nat
  holders  : List (Nat × Nat)
  deriving DecidableEq, Repr, Inhabited


/-- An answer outside Plinth that the port gives (R443). -/
inductive NetAnswer where
  | arp (ip : BitVec 32)
  | neighbour (ip : BitVec 128)
  deriving DecidableEq, Repr, Inhabited

/-- Work of firmware and endpoints that is no row of the table: taking control message `n`; letting an abandoned region
go; reporting a drain's records; the next replay entry of an ingress port; looking again at ended boot sessions; framing
message `n` for the host; sending the next frame of a channel; sending the oldest control message as flits; taking a
region-control flit, or a boot flit, that has arrived; sending the next waiting flit of a stream; ending what a stream cannot
send; sending a cow token again; going on with a host access; management's assignment of an address (R443); letting a slot of an output of this package pass; a reading of a core's path monitor; the drains of a region's sources; answering a boot packet of no
kind. -/
inductive Work where
  | control (n : Nat)
  | abandon (part num : Nat)
  | drained (part num : Nat)
  | replay (part num : Nat) (port : PortAddr)
  | ends
  | toHost (n : Nat)
  | frame (ch : Nat)
  | sendControl
  | controlFlit
  | bootFlit
  | pump (dchip lane : Nat)
  | unsent (dchip lane : Nat)
  | cowDue (part : Nat)
  | access (id : Nat)
  | assign4 (ip : BitVec 32)
  | assign6 (ip : BitVec 128)
  | localSlot (out : Nat)
  | monitor (k : Nat)
  | drains (part num : Nat)
  | badBoot
  deriving DecidableEq, Repr

/-- What the machine does next: an event of the opcode table, an attempt of a core to issue its next bundle, or work of
firmware and endpoints that is no row of the table. -/
inductive Action where
  | event (i : Instr)
  | issue (k : Nat)
  | tidy (w : Work)
  deriving DecidableEq, Repr

/-- The state of the package. -/
structure State where
  cores   : Vector Core 16
  mem     : Tab Byte
  chip    : Nat
  parts   : List Partition
  cells   : List RangeCell
  wcache  : List WalkEntry
  router  : Router
  engines : List PrefixEngine
  regions : List Region
  launches : List Launch
  tree    : Tree
  ctlIn   : List (Nat × CtlMsg)
  ctlOut  : List (Nat × CtlMsg)
  /-- Control messages on their way whose loss their sender must hear of, by number. -/
  ctlSent : List (Nat × CtlMsg)
  ctlFrags : List (Nat × List (List Byte))
  boot    : Boot
  ends    : List BootEnd
  bases   : List Nat
  bootIn  : List (Nat × BootPacket)
  bootFrags : List (Nat × List Byte)
  channels : List Channel
  hostIn  : List HostMsg
  hostOut : List HostOut
  wire    : List PlinthFrame
  strays  : Nat
  accs    : List HostAcc
  /-- The VWRITEs, by channel and request number, that other packages have not answered (R283, R293). -/
  fwd     : List (Nat × Nat)
  pages   : List PageReq
  spdm    : Spdm
  ips     : List (BitVec 32)
  ip6s    : List (BitVec 128)
  net     : List NetAnswer
  power   : Power
  flips   : List (Nat × Bool)
  parity  : List (Nat × Who × Nat × Nat)
  corrected : Nat
  halted  : Bool
  /-- Core clocks counted: one for each issue attempt (log entry 5). -/
  clock   : Nat
  /-- The model's own: what is to happen next (log entry 3). -/
  agenda  : List Action
  /-- The model's own: the number of the next free value (log entry 3). -/
  counter : Nat
  /-- The model's own: the core whose bundle is issuing (log entry 3). -/
  cur     : Nat
  /-- The model's own: marks of the bundle that is issuing (log entry 3). -/
  scr     : Scratch
  deriving DecidableEq, Repr

/-! ### Reset -/

def Stream.reset : Stream := ⟨false, 0, [0, 0, 0, 0, 0, 0], false, none⟩

def BtReg.reset : BtReg := ⟨0, false, none⟩

/-- A chain stage at configuration: pass, constant 0, depth 0 (R205). -/
def ChainStage.reset : ChainStage := ⟨0, 0, 0⟩

def PlaneRec.reset : PlaneRec := ⟨0, 0, []⟩

/-- The mask unit at configuration (R218). -/
def MaskUnit.reset : MaskUnit := ⟨0, false, 0, 0, 0, 0, 0x3F800000, 0xFF800000, 0, [], []⟩

def Exact.zero : Exact := ⟨0, 0⟩

def RowSpan.reset : RowSpan := ⟨.zero, 0, none, false, false, [], []⟩

def ColSpan.reset : ColSpan := ⟨.zero, .zero, none, false⟩

def Span.reset : Span := ⟨[], [], [], 0, [], false, none⟩

/-- The registers at configuration (R59, R62, R205, R218). -/
def Regs.reset : Regs where
  x := Vector.replicate 32 0
  v := Vector.replicate 32 0
  m := Vector.replicate 16 0
  q := Vector.replicate 8 false
  xf := Vector.replicate 32 true
  vf := Vector.replicate 32 true
  mf := Vector.replicate 16 true
  qf := Vector.replicate 8 true
  bt := Vector.replicate 4 .reset
  st := Vector.replicate 16 .reset
  lc := Vector.replicate 6 0
  lt := Vector.replicate 6 0
  sl := 0
  loops := []
  am := Vector.replicate 4 0
  fst := 0
  frm := 0
  xbp := 0
  flight := []
  chain := Vector.replicate 6 .reset
  acode := 4
  wcode := 4
  front := false
  rec0 := .reset
  rec1 := .reset
  mask := .reset
  span := .reset
  fixEn := false
  ckres := 0
  ckloc := 0
  ckpol := 0
  next := .at 0

def PortIn.reset : PortIn := ⟨[], 0, 0, 0, 0, [], [], 0, 0, 0, false, false⟩

def PortOut.reset : PortOut := ⟨0, 0, 0, 0, [], [], [], [], 65535, 0, 0⟩

/-- The configuration of an empty slot. -/
def emptyCfg : StageCfg where
  core := 0
  ctx := false
  stage := 0
  prio := 0
  staged := false
  arrayUse := false
  first := 0
  size := 0
  program := []
  entry := 0
  trig := []
  need := []
  weights := []
  ins := []
  outs := []
  stateMap := []
  dataMap := []
  arena := .none
  evq := .none
  xbp := 0
  gang := []
  range := .none
  grain := 0
  shadow := 0
  snap := .none
  markMode := false
  windows := []
  fallback := .none
  data := []

/-- A resident slot with no context (R363). -/
def Context.reset : Context where
  status := .empty
  stopped := none
  cfg := emptyCfg
  image := 0
  region := 0
  live := .reset
  copy := .reset
  kcpc := 0
  ctol := Vector.replicate 8 0x0200
  ckcnt := 0
  pattern := 0
  retry := false
  cyc := 0
  fires := 0
  cnt := Vector.replicate 6 0
  producers := []
  withheld := []
  relq := []
  undo := []
  undoRows := []
  ins := Vector.replicate 8 .reset
  outs := Vector.replicate 8 .reset
  evHead := 0
  evPopped := 0
  evTail := 0
  rngGot := []
  rngReplay := []
  boundary := none
  mchk := none
  mmpbBusy := false
  macBusy := []
  bf16Busy := false
  firing := false
  memberDone := false
  rerun := .none
  sig := []
  bundles := 0
  restored := []
  marker := 0
  snaps := []
  ctlBusy := none
  why := none
  e := 0
  wait := 0
  starving := false
  took := 0

/-- A core after reset (R338): stage mode, nothing resident. -/
def Core.reset : Core where
  curator := false
  ctxA := .reset
  ctxB := .reset
  cur := .reset
  curProd := []
  kstat := 0
  kcause := 0
  kfpc := 0
  kcpc := 0
  kval := 0
  kvec := 0
  kscr := Vector.replicate 4 0
  partid := 0
  budget := 0x00100000
  shadowctl := 0
  margin := 0
  fqctl := 0
  fqPost := []
  acc := []
  stagedAcc := []
  plane0 := []
  plane1 := []
  mwld := none
  jobs := []
  nextSeq := 0
  tlb := []
  shadow0 := none
  shadow1 := none
  running := none
  lastBegun := none
  w := 0
  halted := false
  switchWait := none
  withdrawn := false
  faulted := false
  stopEntry := []
  prog := []
  arena := none

/-- No bundle is issuing. -/
def Scratch.reset : Scratch := ⟨0, [], 0, [], [], [], [], .none, false, none, none, false, none, [], [], none⟩

def KeySlot.reset : KeySlot := ⟨.unloaded, 0, 0, 0⟩

/-- A link that has not been trained. -/
def Link.reset : Link := ⟨false, 0, 0, [], [], 0, 0, [], [], false, false, 0, 0, (16, 4, 2), (0, 0, 0), 0⟩

def Router.reset : Router := ⟨[], [], [], [], [], [], [], 4096, 0, 0, [], [], [], [], [], [], []⟩

/-- The package right after reset. -/
def State.reset : State where
  cores := Vector.replicate 16 .reset
  mem := []
  chip := 0
  parts := []
  cells := []
  wcache := []
  router := .reset
  engines := []
  regions := []
  launches := []
  tree := ⟨0, 0, 0, none, 0, [], [], [], [], [], []⟩
  ctlIn := []
  ctlOut := []
  ctlSent := []
  ctlFrags := []
  boot := ⟨false, 0, 0, [], [], 0, 0, [], 0, [], [], true, none, 0, false, []⟩
  ends := []
  bases := []
  bootIn := []
  bootFrags := []
  channels := []
  hostIn := []
  hostOut := []
  wire := []
  strays := 0
  accs := []
  fwd := []
  pages := []
  spdm := ⟨0, [], [], [], []⟩
  ips := []
  ip6s := []
  net := []
  power := ⟨0, false, 1500, false, false, 0, [], [], [], []⟩
  flips := []
  parity := []
  corrected := 0
  halted := false
  clock := 0
  agenda := []
  counter := 0
  cur := 0
  scr := .reset

end Sys2Proof.Machine
end

