-- ==== Sys2Proof/Machine/Ops.lean ====
section
/-!
DEFINITION. The named operations over the state: cores and contexts, registers, storage with the stores that a
context withholds, rings, the fault queue, roll-back and commit (04 R104, R105), and taking a trap (15 R332) with the
return from one (15 R335).
-/
namespace Sys2Proof.Machine

/-- What a meaning answers. -/
abbrev Out := Host.Outcome State Fault Refusal

/-! ### Cores, contexts and registers -/

def getCore (s : State) (k : Nat) : Core := (s.cores[k]?).getD .reset

def setCore (s : State) (k : Nat) (c : Core) : State := { s with cores := s.cores.setIfInBounds k c }

def modCore (s : State) (k : Nat) (f : Core → Core) : State := setCore s k (f (getCore s k))

def getCtx (c : Core) (b : Bool) : Context := if b then c.ctxB else c.ctxA

def setCtx (c : Core) (b : Bool) (x : Context) : Core := if b then { c with ctxB := x } else { c with ctxA := x }

def modCtx (c : Core) (b : Bool) (f : Context → Context) : Core := setCtx c b (f (getCtx c b))

/-- Apply `f` to context `b` of core `k`. -/
def modCtxAt (s : State) (k : Nat) (b : Bool) (f : Context → Context) : State :=
  modCore s k fun c => modCtx c b f

def ctxAt (s : State) (k : Nat) (b : Bool) : Context := getCtx (getCore s k) b

def whoCtx (b : Bool) : Who := if b then .b else .a

/-- The context that a core in stage mode issues for; context A when none runs. -/
def runCtx (c : Core) : Bool := c.running.getD false

/-- Which register set a core's bundle uses (R328). -/
def actWho (c : Core) : Who := if c.curator then .cur else whoCtx (runCtx c)

def getRegs (c : Core) (w : Who) : Regs :=
  match w with
  | .a => c.ctxA.live
  | .b => c.ctxB.live
  | .cur => c.cur

def setRegs (c : Core) (w : Who) (r : Regs) : Core :=
  match w with
  | .a => { c with ctxA := { c.ctxA with live := r } }
  | .b => { c with ctxB := { c.ctxB with live := r } }
  | .cur => { c with cur := r }

/-- The core whose bundle is issuing. -/
def curCore (s : State) : Core := getCore s s.cur

/-- The registers that the issuing bundle reads. -/
def actRegs (s : State) : Regs := getRegs (curCore s) (actWho (curCore s))

def modRegsAt (s : State) (k : Nat) (w : Who) (f : Regs → Regs) : State :=
  modCore s k fun c => setRegs c w (f (getRegs c w))

/-- Apply `f` to the registers of the issuing bundle. -/
def modAct (s : State) (f : Regs → Regs) : State := modRegsAt s s.cur (actWho (curCore s)) f

/-- The context of the issuing bundle (stage mode). -/
def actCtx (s : State) : Context := getCtx (curCore s) (runCtx (curCore s))

def modActCtx (s : State) (f : Context → Context) : State := modCtxAt s s.cur (runCtx (curCore s)) f

def modScr (s : State) (f : Scratch → Scratch) : State := { s with scr := f s.scr }

/-- A free number for a choice that the spec leaves to timing (log entry 4). -/
def freshPick (s : State) : Nat × State := (Config.pick s.counter, { s with counter := s.counter + 1 })

/-! ### Register files (R59, R60): x0, m0 and q0 keep their values and are always full -/

def readX (r : Regs) (n : Nat) : Word := if n = 0 then 0 else r.x.getD n 0
def readV (r : Regs) (n : Nat) : VWord := r.v.getD n 0
def readM (r : Regs) (n : Nat) : BitVec 16 := if n = 0 then 0xFFFF else r.m.getD n 0
def readQ (r : Regs) (n : Nat) : Bool := if n = 0 then true else r.q.getD n false

/-- A register's value as a number. -/
def readReg (r : Regs) (n : RegName) : Nat :=
  match n.file with
  | .x => (readX r n.num).toNat
  | .v => (readV r n.num).toNat
  | .m => (readM r n.num).toNat
  | .q => b01 (readQ r n.num)

/-- Write a register; x0, m0 and q0 discard writes. -/
def writeReg (r : Regs) (n : RegName) (v : Nat) : Regs :=
  match n.file with
  | .x => if n.num = 0 then r else { r with x := r.x.setIfInBounds n.num (BitVec.ofNat 64 v) }
  | .v => { r with v := r.v.setIfInBounds n.num (BitVec.ofNat 2048 v) }
  | .m => if n.num = 0 then r else { r with m := r.m.setIfInBounds n.num (BitVec.ofNat 16 v) }
  | .q => if n.num = 0 then r else { r with q := r.q.setIfInBounds n.num (v % 2 == 1) }

/-- The full/empty bit (R87). -/
def isFull (r : Regs) (n : RegName) : Bool :=
  match n.file with
  | .x => n.num == 0 || r.xf.getD n.num true
  | .v => r.vf.getD n.num true
  | .m => n.num == 0 || r.mf.getD n.num true
  | .q => n.num == 0 || r.qf.getD n.num true

def setFull (r : Regs) (n : RegName) (f : Bool) : Regs :=
  match n.file with
  | .x => if n.num = 0 then r else { r with xf := r.xf.setIfInBounds n.num f }
  | .v => { r with vf := r.vf.setIfInBounds n.num f }
  | .m => if n.num = 0 then r else { r with mf := r.mf.setIfInBounds n.num f }
  | .q => if n.num = 0 then r else { r with qf := r.qf.setIfInBounds n.num f }

def xReg (n : Nat) : RegName := ⟨.x, n⟩
def vReg (n : Nat) : RegName := ⟨.v, n⟩
def mReg (n : Nat) : RegName := ⟨.m, n⟩
def qReg (n : Nat) : RegName := ⟨.q, n⟩

/-- The file code of R393 and R397. -/
def fileCode : RegFile → Nat
  | .x => 0
  | .v => 1
  | .m => 2
  | .q => 3

/-- Put a fixed-latency result in flight (R90). -/
def sendReg (s : State) (lat : Nat) (n : RegName) (v : Nat) : State :=
  modAct s fun r => { r with flight := r.flight ++ [⟨lat, n, v⟩] }

/-- A record of a register write for a rerun's signature (R397). -/
def sigReg (n : RegName) (v : Nat) : List Byte :=
  let w := match n.file with
    | .x => 8
    | .v => 256
    | .m => 2
    | .q => 1
  1 :: BitVec.ofNat 8 (fileCode n.file) :: BitVec.ofNat 8 n.num :: natLe w v

/-- The record of a write of a bt register, and of special register `n` (R397). -/
def btRec (n : Nat) (v : BitVec 16) : List Byte := 1 :: 4 :: BitVec.ofNat 8 n :: natLe 2 v.toNat
def sregRec (n v : Nat) : List Byte := 1 :: 5 :: BitVec.ofNat 8 n :: natLe 8 v

/-- A register write that reaches its register: a rerun records it. -/
def noteWrite (c : Core) (w : Who) (rec : List Byte) : Core :=
  match w with
  | .cur => c
  | .a => if c.ctxA.rerun = .none then c else { c with ctxA := { c.ctxA with sig := c.ctxA.sig ++ rec } }
  | .b => if c.ctxB.rerun = .none then c else { c with ctxB := { c.ctxB with sig := c.ctxB.sig ++ rec } }

/-- Deliver one fixed-latency result: it writes nothing while the register is empty (R89). -/
def deliverOne (w : Who) (c : Core) (f : InFlight) : Core :=
  let r := getRegs c w
  if isFull r f.dest then noteWrite (setRegs c w (writeReg r f.dest f.val)) w (sigReg f.dest f.val) else c

/-- Deliver every fixed-latency result that is due, in issue order, so that of two results for one register that arrive
at one point the later-issued one stays (R89, R90). An older result of longer latency that arrives after a newer one
overwrites it: DEDUCED, R89 orders only results at the same point (log entry 100). -/
def deliverDue (c : Core) (w : Who) : Core :=
  let r := getRegs c w
  let due := r.flight.filter fun f => f.count == 0
  let c := setRegs c w { r with flight := r.flight.filter fun f => f.count != 0 }
  due.foldl (deliverOne w) c

/-- One bundle has issued: every result in flight is one bundle nearer. -/
def ageFlight (r : Regs) : Regs :=
  { r with flight := r.flight.map fun f => { f with count := f.count - 1 } }

/-! ### Special registers (R62) -/

/-- The value of special register `n` of a context, zero above its width. -/
def readSreg (x : Context) (n : Nat) : Nat :=
  let r := x.live
  if n ≤ 5 then (r.lc.getD n 0).toNat
  else if 8 ≤ n ∧ n ≤ 13 then (r.lt.getD (n - 8) 0).toNat
  else if n = 0x10 then r.sl.toNat
  else if 0x20 ≤ n ∧ n ≤ 0x23 then (r.am.getD (n - 0x20) 0).toNat
  else if n = 0x30 then r.fst.toNat
  else if n = 0x31 then r.frm.toNat
  else if 0x40 ≤ n ∧ n ≤ 0x47 then (x.ctol.getD (n - 0x40) 0).toNat
  else if n = 0x48 then r.ckres.toNat
  else if n = 0x49 then r.ckloc.toNat
  else if n = 0x4A then x.ckcnt.toNat
  else if n = 0x4B then r.ckpol.toNat
  else if n = 0x50 then r.xbp.toNat
  else if n = 0x60 then x.cyc.toNat
  else if n = 0x61 then x.fires.toNat
  else 0

/-- Write special register `n`, ignoring bits above its width (R62, R175). ckpol keeps [2:1] zero (R64). -/
def writeSreg (x : Context) (n v : Nat) : Context :=
  let r := x.live
  if n ≤ 5 then { x with live := { r with lc := r.lc.setIfInBounds n (BitVec.ofNat 32 v) } }
  else if 8 ≤ n ∧ n ≤ 13 then { x with live := { r with lt := r.lt.setIfInBounds (n - 8) (BitVec.ofNat 32 v) } }
  else if n = 0x10 then { x with live := { r with sl := BitVec.ofNat 32 v } }
  else if 0x20 ≤ n ∧ n ≤ 0x23 then
    { x with live := { r with am := r.am.setIfInBounds (n - 0x20) (BitVec.ofNat 32 v) } }
  else if n = 0x30 then { x with live := { r with fst := BitVec.ofNat 7 v } }
  else if n = 0x31 then { x with live := { r with frm := BitVec.ofNat 2 v } }
  else if 0x40 ≤ n ∧ n ≤ 0x47 then { x with ctol := x.ctol.setIfInBounds (n - 0x40) (BitVec.ofNat 16 v) }
  else if n = 0x4B then { x with live := { r with ckpol := BitVec.ofNat 23 v &&& 0x7FFFF9 } }
  else if n = 0x50 then { x with live := { r with xbp := BitVec.ofNat 12 v } }
  else x

/-- The special registers that instructions write at once. -/
def sregNums : List Nat :=
  [0, 1, 2, 3, 4, 5, 8, 9, 10, 11, 12, 13, 0x10, 0x30, 0x31, 0x40, 0x41, 0x42, 0x43, 0x44, 0x45, 0x46, 0x47, 0x48, 0x49,
    0x4B, 0x50]

/-- The records of the special registers in which a context differs from what it was (R397, log entry 12). -/
def sregDiff (x y : Context) : List Byte :=
  sregNums.flatMap fun n => if readSreg x n = readSreg y n then [] else sregRec n (readSreg y n)

/-- A context whose special registers have changed: a rerun records it. -/
def noteSregs (x y : Context) : Context :=
  if y.rerun = .none then y else { y with sig := y.sig ++ sregDiff x y }

/-! ### Storage -/

/-- The key of a byte of a core's storage: window bytes are region 0, scratchpad bytes region 1 (R81, R82). -/
def spaceKey (k : Nat) (sp : Space) (a : Nat) : Nat :=
  match sp with
  | .win => k * 2 ^ 27 + a
  | .spad => 2 ^ 40 + k * 2 ^ 23 + a

/-- The bytes of a space (R66). -/
def spaceSize (sp : Space) : Nat :=
  match sp with
  | .win => 2 ^ 27
  | .spad => 2 ^ 23

/-- What a byte that nothing has written reads as (log entry 1). -/
def memDefault : Byte := 0

def memByte (s : State) (key : Nat) : Byte := tabGet memDefault s.mem key

def memRead (s : State) (key n : Nat) : List Byte := tabGetMany memDefault s.mem key n

/-- A write drops the errors of every aligned 8-byte word that it covers whole (R394). -/
def clearFlips (fl : List (Nat × Bool)) (key n : Nat) : List (Nat × Bool) :=
  fl.filter fun f =>
    let w := f.1 / 64 * 8
    !(decide (key ≤ w) && decide (w + 8 ≤ key + n))

def memWrite (s : State) (key : Nat) (bs : List Byte) : State :=
  { s with mem := tabSetMany memDefault s.mem key bs,
           flips := if s.flips.isEmpty then s.flips else clearFlips s.flips key bs.length }

def spRead (s : State) (k : Nat) (sp : Space) (a n : Nat) : List Byte := memRead s (spaceKey k sp a) n

def spWrite (s : State) (k : Nat) (sp : Space) (a : Nat) (bs : List Byte) : State :=
  memWrite s (spaceKey k sp a) bs

/-- Byte `i` of the latest of the stores that covers address `a` of the space, else `d`. -/
def overlayByte (sp : Space) (a : Nat) (d : Byte) : List Effect → Byte
  | [] => d
  | .store q b bs :: l =>
    overlayByte sp a (if q = sp ∧ b ≤ a ∧ a < b + bs.length then bs.getD (a - b) d else d) l
  | _ :: l => overlayByte sp a d l

/-- The stores that a context's own loads see: released ones first, then withheld ones (R99, R104). -/
def ownStores (x : Context) : List Effect := x.relq.map (·.eff) ++ x.withheld

/-- What a load of context `b` of core `k` reads (R99). -/
def viewRead (s : State) (k : Nat) (b : Bool) (sp : Space) (a n : Nat) : List Byte :=
  let st := ownStores (ctxAt s k b)
  let raw := spRead s k sp a n
  if st.isEmpty then raw
  else (List.range n).map fun i => overlayByte sp (a + i) (raw.getD i 0) st

/-- What a load of the issuing bundle reads: the curator sees no withheld store (R329), and no slot a store of its own
bundle (R86). -/
def actRead (s : State) (sp : Space) (a n : Nat) : List Byte :=
  let raw := if (curCore s).curator then spRead s s.cur sp a n else viewRead s s.cur (runCtx (curCore s)) sp a n
  if s.scr.before.isEmpty then raw
  else (List.range n).map fun i => overlayByte sp (a + i) (raw.getD i 0) s.scr.before

/-- A slot stores over `n` bytes: the other slots of its bundle go on reading what stood there (R86). -/
def noteBefore (s : State) (sp : Space) (a n : Nat) : State :=
  modScr s fun q => { q with before := q.before ++ [.store sp a (actRead s sp a n)] }

/-- A little-endian number from the scratchpad, as loads see it. -/
def actWord (s : State) (a n : Nat) : Nat := leNat (actRead s .spad a n)

/-! ### Memory errors (R394, R395) -/

/-- The flips of the aligned 8-byte word at `w`. -/
def wordFlips (s : State) (w : Nat) : List (Nat × Bool) := s.flips.filter fun f => f.1 / 64 * 8 == w

/-- The first word of a run whose ECC fails: more than one flipped bit. -/
def badWord (s : State) (key n : Nat) : Option Nat :=
  if s.flips.isEmpty then none
  else ((List.range ((key + n + 7) / 8 - key / 8)).map fun i => (key / 8 + i) * 8).find? fun w =>
    decide (2 ≤ (wordFlips s w).length)

/-- A store covers the aligned word at key `w` whole. -/
def coversWord (k w : Nat) : Effect → Bool
  | .store sp a bs => decide (spaceKey k sp a ≤ w) && decide (w + 8 ≤ spaceKey k sp a + bs.length)
  | _ => false

/-- The first word of a run whose ECC fails as the issuing bundle reads it: not one that its context's own stores, from which
the load takes its bytes, cover whole (R394, R99, log entry 140). -/
def actBad (s : State) (sp : Space) (a n : Nat) : Option Nat :=
  if s.flips.isEmpty then none
  else
    let own := if (curCore s).curator then [] else ownStores (actCtx s)
    let key := spaceKey s.cur sp a
    ((List.range ((key + n + 7) / 8 - key / 8)).map fun i => (key / 8 + i) * 8).find? fun w =>
      decide (2 ≤ (wordFlips s w).length) && !own.any (coversWord s.cur w)

/-- An error is persistent when the hard flips of the word alone make its second read fail (R394). -/
def persistent (s : State) (w : Nat) : Bool := decide (2 ≤ ((wordFlips s w).filter (·.2)).length)

/-- Slot `n` of core `k` in shadow storage begins here (R416, R82). -/
def shadowKey (k n : Nat) : Nat := 4 * 2 ^ 40 + (2 * k + n) * 0x180000

/-- The flip lies in the shadow slot. -/
def inShadow (k n : Nat) (f : Nat × Bool) : Bool :=
  decide (shadowKey k n ≤ f.1 / 8) && decide (f.1 / 8 < shadowKey k n + 0x180000)

/-- A persistent error lies in the shadow slot (R416). -/
def shadowBad (s : State) (k n : Nat) : Bool :=
  s.flips.any fun f => inShadow k n f && persistent s (f.1 / 64 * 8)

/-- A shadow slot is read whole: the words that this corrects are counted (R394). -/
def countShadow (s : State) (k n : Nat) : State :=
  let ws := ((s.flips.filter (inShadow k n)).map fun f => f.1 / 64 * 8).eraseDups
  { s with corrected := s.corrected + (ws.filter fun w => (wordFlips s w).length == 1).length }

/-- The shadow slot is written whole: its errors are gone (R394). -/
def dropShadowFlips (s : State) (k n : Nat) : State := { s with flips := s.flips.filter fun f => !inShadow k n f }

/-- The words of a run that a read corrects are counted (R394). -/
def countFixed (s : State) (key n : Nat) : State :=
  if s.flips.isEmpty then s
  else
    let ws := (List.range ((key + n + 7) / 8 - key / 8)).map fun i => (key / 8 + i) * 8
    { s with corrected := s.corrected + (ws.filter fun w => (wordFlips s w).length == 1).length }

/-! ### Footprint regions (R78 to R80) -/

/-- Two byte runs of one space overlap. -/
def fpOverlap (r : FpRegion) (sp : Space) (a n : Nat) : Bool := r.space == sp && overlaps r.start r.len a n

/-- `n` bytes of a card at byte `lo`, as a number. -/
def cField (bs : List Byte) (lo n : Nat) : Nat := leNat ((bs.drop lo).take n)

/-- The footprint region at word `i` of a card (R78). -/
def cardRegion (bs : List Byte) (i : Nat) : Option FpRegion :=
  let w := cField bs (16 + 8 * i) 8
  if bitOf w 28 then some ⟨if bitOf w 27 then .win else .spad, bitsOf w 0 27, bitsOf w 32 32, decide (2 ≤ i)⟩ else none

/-- The valid regions of a card and the card itself (R80). -/
def cardRegions (bs : List Byte) (card : Nat) : List FpRegion :=
  (List.range 4).filterMap (cardRegion bs) ++ [⟨.spad, card, 128, true⟩]

/-- The release queues of a core's contexts, resident and saved. -/
def relQueues (c : Core) : List (List Released) :=
  [c.ctxA.relq, c.ctxB.relq] ++ (match c.shadow0 with
    | some h => [h.saved.relq]
    | none => []) ++ (match c.shadow1 with
    | some h => [h.saved.relq]
    | none => [])

/-- Scratchpad bytes of core `k` as the effects of queue `q` released before `seq` leave them. -/
def releasedAt (s : State) (k : Nat) (q : List Released) (seq a n : Nat) : List Byte :=
  let raw := spRead s k .spad a n
  let st := (q.filter fun r => decide (r.seq < seq)).map (·.eff)
  (List.range n).map fun i => overlayByte .spad (a + i) (raw.getD i 0) st

/-- The footprint regions of the launches that FENCEs hold back, with their places in the release order: a launch is in
flight from the commit that releases it (R280). -/
def heldRegions (s : State) (k : Nat) : List (Nat × FpRegion) :=
  (relQueues (getCore s k)).flatMap fun q => q.flatMap fun r => match r.eff with
    | .launch _ card _ => (cardRegions (releasedAt s k q r.seq card 128) card).map fun f => (r.seq, f)
    | _ => []

/-- An earlier job in flight overlaps these bytes; `all`: any region of it, else a write region (R241). -/
def jobBefore (c : Core) (seq : Nat) (sp : Space) (a n : Nat) (all : Bool) : Bool :=
  c.jobs.any fun j => decide (j.seq < seq) && j.regions.any fun r => (all || r.write) && fpOverlap r sp a n

/-- The same, of jobs and of launches that FENCEs hold (R241, R280). -/
def busyBefore (s : State) (k seq : Nat) (sp : Space) (a n : Nat) (all : Bool) : Bool :=
  jobBefore (getCore s k) seq sp a n all
    || (heldRegions s k).any fun e => decide (e.1 < seq) && (all || e.2.write) && fpOverlap e.2 sp a n

/-- The input ports that control tokens concern: all but cow ports (R311). -/
def ctlPorts (x : Context) : List (Nat × RingCfg) := x.cfg.ins.filter fun e => !e.2.cow

/-- The range cell serves the stage of the context (R369). -/
def cellOf (part : Nat) (x : Context) (c : RangeCell) : Bool :=
  c.part == part && c.region == x.region && c.stage == x.cfg.stage

/-! ### Rings (R14 to R20, R73 to R75) -/

def ringCfg (x : Context) (p : Nat) : Option RingCfg := (x.cfg.ins.find? fun e => e.1 == p).map (·.2)

def outCfg (x : Context) (p : Nat) : Option OutCfg := (x.cfg.outs.find? fun e => e.1 == p).map (·.2)

def getIn (x : Context) (p : Nat) : PortIn := x.ins.getD p .reset

def getOut (x : Context) (p : Nat) : PortOut := x.outs.getD p .reset

def modIn (x : Context) (p : Nat) (f : PortIn → PortIn) : Context :=
  { x with ins := x.ins.setIfInBounds p (f (getIn x p)) }

def modOut (x : Context) (p : Nat) (f : PortOut → PortOut) : Context :=
  { x with outs := x.outs.setIfInBounds p (f (getOut x p)) }

/-- A control token's type (R12, R20). -/
def isControl (t : Nat) : Bool := t == 2 || t == 3 || t == 4

/-- The run of full slots from ticket `h` of a REORDER ring, at most `n` long (R16). -/
def reorderRun (toks : List RingTok) (h : Nat) : Nat → List RingTok
  | 0 => []
  | n + 1 =>
    match toks.find? fun t => t.ticket == h % 65536 with
    | none => []
    | some t => t :: reorderRun toks (h + 1) n

/-- The distance of ticket `t` from head `h` (R16). -/
def ticketDist (t h : Nat) : Nat := (t + 65536 - h % 65536) % 65536

/-- The first control record of each producer, of the type of the oldest record (R18). -/
def ctlFirsts : List CtlRec → List CtlRec
  | [] => []
  | r :: l => (r :: l).foldl (fun a e =>
      if e.type == r.type && !(a.any fun q => q.producer == e.producer) then a ++ [e] else a) []

/-- How far a ticket lies beyond head `h`; 0 when the head has passed it. -/
def beyondHead (t h : Nat) : Nat := if ticketDist t h < 2 ^ 15 then ticketDist t h else 0

/-- How many tickets from head `h` are visible while control tokens wait in the records: up to the greatest bound
noted (R18). -/
def ctlBound (p : PortIn) (h n : Nat) : Nat :=
  if p.ctl.isEmpty then n
  else Nat.min n ((ctlFirsts p.ctl).foldl (fun a r => Nat.max a (beyondHead r.bound h)) 0)

/-- The head ticket as the program sees it. -/
def liveHead (p : PortIn) : Nat := (p.head + p.popped) % 65536

/-- The visible tokens of an input port (R16, R18, R20). A REORDER ring with one producer treats control tokens as a
FIFO ring does (R18); its records hold them all the same. -/
def visibleToks (c : RingCfg) (p : PortIn) : List RingTok :=
  if c.reorder then reorderRun p.toks (liveHead p) (ctlBound p (liveHead p) (2 ^ c.n))
  else (p.toks.drop p.popped).takeWhile fun t => !isControl t.type

/-- The entry's scratchpad address (R73). -/
def entryAddr (c : RingCfg) (slot : Nat) : Nat := c.base + slot * c.es

/-- The length array of a ring (R73). -/
def lenArray (c : RingCfg) : Nat := c.base + roundUp (2 ^ c.n * c.es) 64

/-- The bytes that the length array takes (R75). -/
def lenBytes (c : RingCfg) : Nat := roundUp (2 * 2 ^ c.n) 64

/-- Does the byte run `[a, a + n)` break ring visibility at this port (R75)? -/
def ringClash (c : RingCfg) (p : PortIn) (a n : Nat) : Bool :=
  let size := 2 ^ c.n * c.es
  if overlaps a n (lenArray c) (lenBytes c) then true
  else if !overlaps a n c.base size then false
  else
    -- every byte inside the entries lies in a visible one
    let lo := Nat.max a c.base
    let hi := Nat.min (a + n) (c.base + size)
    let vis := (visibleToks c p).map (·.slot)
    !((rangeFrom ((lo - c.base) / c.es) ((hi - 1 - c.base) / c.es + 1)).all fun e => vis.contains e)

/-- The port of a context whose ring the run breaks. -/
def ctxRingClash (x : Context) (a n : Nat) : Option Nat :=
  if x.status = .empty ∨ x.status = .reserved then none
  else (x.cfg.ins.find? fun e => ringClash e.2 (getIn x e.1) a n).map (·.1)

/-- The port whose ring a run of the core's scratchpad breaks: of context `b`, else of the other (R75, log entry 139). -/
def coreRingClash (c : Core) (b : Bool) (a n : Nat) : Option Nat :=
  match ctxRingClash (getCtx c b) a n with
  | some p => some p
  | none => ctxRingClash (getCtx c (!b)) a n

/-! ### Remote barrier arrivals (R270, R292) -/

/-- The remote barrier arrivals of a core that have no acknowledgement yet: the curator's, or its stage contexts'. -/
def remoteBaras (s : State) (k : Nat) (cur : Bool) : List Word :=
  s.router.tx.flatMap fun t => (t.opens ++ t.queue).filterMap fun o => match o.who with
    | .bara c a b => if c = k ∧ b = cur then some a else none
    | _ => none

/-- A remote barrier arrival has no acknowledgement yet (R292), among those whose address `ok` admits. -/
def baraOpen (s : State) (k : Nat) (cur : Bool) (ok : Word → Bool) : Bool := (remoteBaras s k cur).any ok

/-- A fabric address lies within a scope of core `k` (R287): the core, its cluster, the package, anywhere. -/
def inScope (s : State) (k scope : Nat) (a : Word) : Bool :=
  let t := bitsOf a.toNat 0 40 / 2 ^ 23
  scope == 3 || (bitsOf a.toNat 44 12 == s.chip && (scope == 2 || (scope == 1 && t / 4 == k / 4) || t == k))

/-! ### Stages and their members -/

/-- A job of the resident context `b` (R346). -/
def ownJob (b : Bool) (j : Job) : Bool := j.owner == whoCtx b && j.saved.isNone

def partOf (c : Core) : Nat := c.partid.toNat % 256

/-- Every context of the package, in ascending core index and letter. -/
def allCtx : List (Nat × Bool) := (List.range 16).flatMap fun k => [(k, false), (k, true)]

/-- The context belongs to region `num` of partition `part`. -/
def inRegionCtx (s : State) (part num : Nat) (k : Nat) (b : Bool) : Bool :=
  let x := ctxAt s k b
  partOf (getCore s k) == part && x.region == num && x.status != .empty && x.status != .reserved

/-- The members of the stage of a context: itself, or every member of its gang (R22). -/
def membersOf (s : State) (k : Nat) (b : Bool) : List (Nat × Bool) :=
  let x := ctxAt s k b
  if x.cfg.gang.length ≤ 1 then [(k, b)]
  else allCtx.filter fun e => inRegionCtx s (partOf (getCore s k)) x.region e.1 e.2
    && (ctxAt s e.1 e.2).cfg.stage == x.cfg.stage

/-! ### Outputs: events to the host, the fault queue (R339), the event queue (R77) -/

/-- Post a Plinth event (R452) on channel 0. -/
def postEvent (s : State) (code core region value : Nat) : State :=
  { s with hostOut := s.hostOut ++ [⟨0, 0, .event code s.chip core region (BitVec.ofNat 64 value) none⟩] }

/-- Post a Plinth event that carries a partition and an image id besides (R372). -/
def postEventIds (s : State) (code core region value part image : Nat) : State :=
  { s with hostOut := s.hostOut ++ [⟨0, 0, .event code s.chip core region (BitVec.ofNat 64 value) (some (part, image))⟩] }

def fqBase (c : Core) : Nat := bitsOf c.fqctl.toNat 11 12 * 2048
def fqHead (c : Core) : Nat := bitsOf c.fqctl.toNat 24 6
def fqTail (c : Core) : Nat := bitsOf c.fqctl.toNat 32 6
def fqFull (c : Core) : Bool := (fqTail c + 1) % 64 == fqHead c
def fqEmpty (c : Core) : Bool := fqHead c == fqTail c

/-- Write waiting fault records while the queue has room, oldest first (R339). -/
def fqDrain (s : State) (k : Nat) : Nat → State
  | 0 => s
  | n + 1 =>
    let c := getCore s k
    match c.fqPost with
    | [] => s
    | r :: rest =>
      if fqFull c then s
      else
        let s := spWrite s k .spad (fqBase c + 32 * fqTail c) (natLe 32 r.toNat)
        let t := (fqTail c + 1) % 64
        fqDrain (setCore s k { c with fqPost := rest,
                                      fqctl := BitVec.ofNat 41 (setBits c.fqctl.toNat 32 6 t) }) k n

/-- A fault-queue record (R339). -/
def faultRecord (kind core region addr detail : Nat) : BitVec 256 :=
  BitVec.ofNat 256 (kind + core * 2 ^ 8 + region * 2 ^ 16 + addr * 2 ^ 64 + detail * 2 ^ 128)

/-- Post a record to core `k`'s fault queue; it waits while the queue is full. -/
def postFault (s : State) (k : Nat) (r : BitVec 256) : State :=
  let s := modCore s k fun c => { c with fqPost := c.fqPost ++ [r] }
  fqDrain s k ((getCore s k).fqPost.length)

/-- Tier-miss records that the epoch withholds: their places in the queue are taken (R77). -/
def missCount (x : Context) : Nat :=
  (x.withheld.filter fun e => match e with
    | .tierMiss _ _ _ => true
    | _ => false).length

/-- The event queue of 256 has room for one more record beside those that the epoch withholds (R77). -/
def evRoom (x : Context) : Bool := decide (x.evTail - x.evHead + missCount x < 256)

/-- An event record (R77). -/
def eventRecord (kind source info aux value : Nat) : BitVec 128 :=
  BitVec.ofNat 128 (kind + source % 16 * 2 ^ 8 + info % 65536 * 2 ^ 16 + aux % 2 ^ 32 * 2 ^ 32 + value * 2 ^ 64)

/-- The bytes of a record at the tail of a context's event queue. -/
def recordBytes (s : State) (k : Nat) (x : Context) (r : BitVec 128) : State :=
  match x.cfg.evq with
  | none => s
  | some base => spWrite s k .spad (base + 16 * (x.evTail % 256)) (natLe 16 r.toNat)

/-- The context once a record has entered; one without a queue posts none (R77). -/
def tookRecord (x : Context) : Context := if x.cfg.evq.isNone then x else { x with evTail := x.evTail + 1 }

/-- Post a record to a context's event queue, which has room (R77). -/
def postRecord (s : State) (k : Nat) (b : Bool) (r : BitVec 128) : State :=
  modCtxAt (recordBytes s k (ctxAt s k b) r) k b tookRecord

/-! ### Barriers (R76) -/

/-- One arrival on a barrier word: the new word. -/
def arriveWord (w : Nat) (err cancel : Bool) : Nat :=
  let w := if cancel then setBits w 33 1 1 else w
  let rem := bitsOf w 0 32
  if rem = 0 then setBits w 32 1 1
  else
    let w := setBits w 0 32 (rem - 1)
    let w := if err then setBits w 32 1 1 else w
    if rem = 1 then setBits w 48 16 (bitsOf w 48 16 + 1) else w

/-- An arrival on the barrier at scratchpad address `a` of core `k`, in one indivisible update. -/
def arrive (s : State) (k a : Nat) (err cancel : Bool) : State :=
  spWrite s k .spad a (natLe 8 (arriveWord (leNat (spRead s k .spad a 8)) err cancel))

/-- BARI at commit (R269). -/
def bariWord (w count : Nat) : Nat :=
  let w := setBits (setBits (setBits w 0 32 count) 32 1 0) 33 1 0
  if count % 2 ^ 32 = 0 then setBits w 48 16 (bitsOf w 48 16 + 1) else w

/-! ### Roll-back (R105) -/

/-- An input port after a roll-back: the epoch's pops are undone. -/
def PortIn.undo (p : PortIn) : PortIn := { p with popped := 0 }

/-- An output port after a roll-back: reserved credits return, the epoch's tickets are marked for replay (R17), and
tickets granted before it are held again. -/
def PortOut.undo (p : PortOut) : PortOut :=
  { p with credits := p.credits + p.reserved, reserved := 0,
           granted := (p.used ++ p.granted).filter fun t => !p.gotEpoch.contains t,
           used := [], replay := p.gotEpoch ++ p.replay, gotEpoch := [] }

/-- The registers of a checkpoint copy as they are restored: fetch buffers are no longer valid (R92). -/
def restoreRegs (r : Regs) : Regs := { r with bt := r.bt.map fun b => { b with fetched := false } }

/-- The bundle that a next-PC state issues next; the entry for one that opens a firing. -/
def nextIndex (x : Context) (n : NextPc) : Nat :=
  match n with
  | .at i => i
  | .delay i _ _ => i
  | .badTarget _ => 0xFFFF
  | .openFiring => x.cfg.entry

/-- R105 on a context. ckcnt and the retry record are not restored. -/
def rollBackCtx (x : Context) : Context :=
  { x with live := restoreRegs x.copy, producers := [], withheld := [], undo := [], undoRows := [],
           ins := x.ins.map PortIn.undo, outs := x.outs.map PortOut.undo, evPopped := 0,
           rngReplay := x.rngGot ++ x.rngReplay, rngGot := [],
           boundary := none, mchk := none, mmpbBusy := false, macBusy := [], bf16Busy := false,
           cnt := x.cnt.setIfInBounds 4 (x.cnt.getD 4 0 + 1) }

/-- The accumulator field with the undo area's rows written back (R101). -/
def undoRowsBack (acc : Tab AccRow) (u : List (Nat × AccRow)) : Tab AccRow :=
  u.foldl (fun a e => tabSet 0 a e.1 e.2) acc

/-- R105 on a core. A weight load issued since the checkpoint is abandoned; one issued before it goes on. -/
def rollBack (c : Core) (b : Bool) : Core :=
  let x := getCtx c b
  let c := { c with acc := undoRowsBack c.acc x.undo,
                    mwld := match c.mwld with
                      | some l => if l.ctx = b ∧ l.old = false then none else some l
                      | none => none }
  setCtx c b (rollBackCtx x)

/-! ### Taking a trap (R332) and returning (R335) -/

def setKstat (c : Core) (ctx async rerun idle gone : Bool) : Core :=
  { c with kstat := BitVec.ofNat 17 (setBits c.kstat.toNat 0 5
      (b01 ctx + 2 * b01 async + 4 * b01 rerun + 8 * b01 idle + 16 * b01 gone)) }

def kCtx (c : Core) : Bool := bitOf c.kstat.toNat 0
def kAsync (c : Core) : Bool := bitOf c.kstat.toNat 1
def kRerun (c : Core) : Bool := bitOf c.kstat.toNat 2
def kIdle (c : Core) : Bool := bitOf c.kstat.toNat 3
def kGone (c : Core) : Bool := bitOf c.kstat.toNat 4
/-- The FLOAT trap enables (R52). -/
def kFena (c : Core) : Nat := bitsOf c.kstat.toNat 8 5
def setKflag (c : Core) (i : Nat) (v : Bool) : Core :=
  { c with kstat := BitVec.ofNat 17 (setBits c.kstat.toNat i 1 (b01 v)) }

def kvecBase (c : Core) : Nat := bitsOf c.kvec.toNat 0 13
def kvecSize (c : Core) : Nat := bitsOf c.kvec.toNat 16 13

/-- A curator bundle lies in the curator share. -/
def inCurShare (c : Core) (n : Nat) : Bool := decide (kvecBase c ≤ n) && decide (n < kvecBase c + kvecSize c)

/-- A curator fault (R331): the core stops issuing and posts a Plinth event with the nested cause and the PC. -/
def curatorFault (s : State) (k cause pc : Nat) : State :=
  let c := getCore s k
  postEvent (setCore s k { c with faulted := true }) 0x01 k 0 (cause + pc * 2 ^ 16)

/-- The vector of a cause lies in the curator share (R331). -/
def vectorOk (c : Core) (cause : Nat) : Bool :=
  kvecSize c != 0 && inCurShare c (kvecBase c + 8 * cause)

/-- Curator mode at the vector of `cause` (R332). -/
def enterVector (c : Core) (cause : Nat) : Core :=
  { c with curator := true, cur := { c.cur with next := .at (kvecBase c + 8 * cause) } }

/-- The index of the bundle that a core is issuing. -/
def issueIndex (c : Core) : Nat :=
  match actWho c with
  | .a => nextIndex c.ctxA c.ctxA.live.next
  | .b => nextIndex c.ctxB c.ctxB.live.next
  | .cur => nextIndex c.ctxA c.cur.next

/-- A synchronous entry into curator mode (R332): the context is rolled back, the K registers are set and the core goes
to the vector; a curator fault when there is no share or the vector lies outside it (R331). -/
def enterTrap (s : State) (k : Nat) (b rerun : Bool) (t : TrapInfo) : State :=
  let c := getCore s k
  let fpc : BitVec 16 := t.fpc.getD (BitVec.ofNat 16 (issueIndex c))
  let c := rollBack c b
  if vectorOk c t.cause then
    let c := { c with kcause := BitVec.ofNat 12 (t.cause + (if t.noslot then 0 else t.slot) * 2 ^ 8 + b01 t.noslot * 2 ^ 11),
                      kfpc := fpc, kcpc := BitVec.ofNat 13 (getCtx c b).kcpc, kval := t.val }
    setCore s k (enterVector (setKstat c b false rerun false false) t.cause)
  else curatorFault (setCore s k c) k t.cause fpc.toNat

/-- CRC-32C (R397), one byte at a time. -/
def crcBits : Nat → Nat → Nat
  | 0, c => c
  | n + 1, c => crcBits n (if c % 2 = 1 then Nat.xor (c / 2) 0x82F63B78 else c / 2)

def crcStep (c : Nat) (b : Byte) : Nat := crcBits 8 (Nat.xor c b.toNat)

def crc32c (bs : List Byte) : BitVec 32 := BitVec.ofNat 32 (Nat.xor (bs.foldl crcStep 0xFFFFFFFF) 0xFFFFFFFF)

/-- A context leaves a rerun pair. -/
def endRerun (x : Context) : Context := { x with rerun := .none, sig := [], bundles := 0 }

/-- A trap raised by a context (R332, R398): in rerun 1 it is noted and rerun 2 begins; in rerun 2 it must agree with
rerun 1's, or DIVERGE is taken. -/
def takeTrap (s : State) (k : Nat) (b : Bool) (t : TrapInfo) : State :=
  let c := getCore s k
  let x := getCtx c b
  let fpc : BitVec 16 := t.fpc.getD (BitVec.ofNat 16 (issueIndex c))
  match x.rerun with
  | .none => enterTrap s k b false t
  | .pending => enterTrap s k b false t
  | .first =>
    if t.cause = 0x0A then enterTrap (modCtxAt s k b endRerun) k b true { t with fpc := some fpc }
    else
      let c := rollBack c b
      setCore s k (modCtx c b fun x =>
        { x with rerun := .second (crc32c x.sig) x.bundles (some (t.cause, fpc, t.val)), sig := [], bundles := 0 })
  | .second sg _ tr =>
    let s' := modCtxAt s k b endRerun
    if t.cause = 0x0A then enterTrap s' k b true { t with fpc := some fpc }
    else if tr = some (t.cause, fpc, t.val) ∧ sg = crc32c x.sig then enterTrap s' k b true { t with fpc := some fpc }
    else
      enterTrap s' k b true ⟨0x0B, 0, false, some fpc, BitVec.ofNat 64 (sg.toNat + (crc32c x.sig).toNat * 2 ^ 32)⟩

/-- A trap at the bundle that is issuing: a curator fault in curator mode (R331). -/
def trapCore (s : State) (k : Nat) (t : TrapInfo) : State :=
  let c := getCore s k
  if c.curator then curatorFault s k t.cause (issueIndex c) else takeTrap s k (runCtx c) t

/-- A slot of the issuing bundle raises a trap. -/
def raise (s : State) (cause : Nat) (val : Nat) : State :=
  let t : TrapInfo := ⟨cause, s.scr.slot, false, none, BitVec.ofNat 64 val⟩
  modScr (trapCore s s.cur t) fun q => { q with trapped := some t }

/-- The issuing bundle freezes (R91). -/
def freeze (s : State) (f : Freeze) : State := modScr s fun q => { q with frozen := some f }

/-- The issuing bundle forces an implicit checkpoint at the boundary before it (R103). -/
def forceCkpt (s : State) : State := modScr s fun q => { q with implicit := true }

/-- An asynchronous entry (R333, R411): the registers saved, nothing committed and nothing rolled back. -/
def enterAsync (s : State) (k : Nat) (ctx idle : Bool) (cause fpc val : Nat) : State :=
  let c := getCore s k
  if vectorOk c cause then
    let c := { c with kcause := BitVec.ofNat 12 (cause + 2 ^ 11), kfpc := BitVec.ofNat 16 fpc,
                      kcpc := if idle then c.kcpc else BitVec.ofNat 13 (getCtx c ctx).kcpc, kval := BitVec.ofNat 64 val }
    setCore s k (enterVector (setKstat c ctx true false idle false) cause)
  else curatorFault s k cause fpc

/-- The return from curator mode (R335). A context entered synchronously resumes from the state that the roll-back
restored; one entered asynchronously resumes at the boundary at which it was taken; after an idle entry, or one whose
context is gone, the arbiter chooses. -/
def leaveCurator (c : Core) : Core :=
  if kIdle c ∨ kGone c then { c with curator := false, running := none }
  else { c with curator := false, running := some (kCtx c) }

/-! ### Commit (R104) -/

/-- max(amN, magnitude) for FP32 patterns (R55): an amN that MTS set negative or to -0 lies below every magnitude. A NaN
that MTS left there stays: DESIGN CHOICE, R55 does not say what the maximum then is (log entry 98). -/
def amMax (a m : Nat) : Nat :=
  if 0x7F800000 < a % 2 ^ 31 then a else if 2 ^ 31 ≤ a then m else if a < m then m else a

/-- Apply a max-magnitude effect (R55) to the registers. -/
def applyAm (r : Regs) : Effect → Regs
  | .amax n ms nan =>
    let a := ms.foldl amMax (r.am.getD n 0).toNat
    { r with am := r.am.setIfInBounds n (BitVec.ofNat 32 a), fst := if nan then r.fst ||| fAMNAN else r.fst }
  | .amset n v => { r with am := r.am.setIfInBounds n v }
  | _ => r

def isAm : Effect → Bool
  | .amax _ _ _ => true
  | .amset _ _ => true
  | _ => false

/-- A withheld effect of the store-withholding buffer. -/
def isStore : Effect → Bool
  | .store _ _ _ => true
  | _ => false

def isLaunch : Effect → Bool
  | .launch _ _ _ => true
  | .bari _ _ => true
  | .bara _ _ => true
  | _ => false

/-- How many entries of the store buffer and of the pending-effect list are in use (R99). -/
def storeCount (x : Context) : Nat := (x.withheld.filter isStore).length
def pendCount (x : Context) : Nat := (x.withheld.filter fun e => !isStore e).length

/-- Withhold an effect, forcing an implicit checkpoint where it would exceed a limit (R103). -/
def withhold (s : State) (e : Effect) : State :=
  let x := actCtx s
  if (isStore e && decide (256 ≤ storeCount x)) || (!isStore e && decide (64 ≤ pendCount x)) then forceCkpt s
  else modActCtx s fun x => { x with withheld := x.withheld ++ [e] }

/-- The rows of the undo area in use, an ACLD's counted from its issue (R101). -/
def undoUse (x : Context) : List Nat := x.undo.map (·.1) ++ x.undoRows.filter fun r => !(x.undo.map (·.1)).contains r

def accRow (c : Core) (r : Nat) : AccRow := tabGet 0 c.acc r

/-- Save a row to the undo area at its first modification in the epoch (R101). -/
def saveRow (c : Core) (b : Bool) (r : Nat) : Core :=
  modCtx c b fun x =>
    if (x.undo.map (·.1)).contains r then x else { x with undo := x.undo ++ [(r, accRow c r)] }

/-- Would modifying these rows exceed the undo area (R103)? A bundle that by itself modifies more than 32 rows exceeds it
in every epoch, and forces implicit checkpoints for ever: DEDUCED, R103 makes no exception (log entry 101). -/
def undoOver (x : Context) (rows : List Nat) : Bool :=
  let u := undoUse x
  decide (32 < (u ++ rows.filter fun r => !u.contains r).eraseDups.length)

end Sys2Proof.Machine
end

