-- ==== Sys2Proof/Machine/Router.lean ====
section
/-!
DEFINITION. What the router does with flits that start or end on this package (19 R419 to R435): streams and their
sequence numbers, the choice of links, tokens as flits, replies.
-/
namespace Sys2Proof.Config

/-- The route-table entries that link training yields, by tree and destination: the spec leaves them to firmware (R417,
R424, log entry 21). -/
opaque trainedRoute : Nat → Nat → BitVec 32

end Sys2Proof.Config

namespace Sys2Proof.Machine

/-! ### Addresses -/

/-- The host tier (R81). -/
def hostChip : Nat := 0xFFF

/-- A port address as its 20 bits (R25). -/
def portBits (p : PortAddr) : Nat := p.port % 8 + b01 p.ctx * 8 + p.core % 16 * 16 + p.chip % 4096 * 256

def portOf (n : Nat) : PortAddr := ⟨bitsOf n 8 12, bitsOf n 4 4, bitOf n 3, bitsOf n 0 3⟩

def findPart (s : State) (p : Nat) : Option Partition := s.parts.find? fun q => q.params.num == p

/-- Does the partition's host-tier traffic leave by this package's Plinth port (R340, R424)? -/
def plinthHere (s : State) (part : Nat) : Bool :=
  match findPart s part with
  | some p => p.params.plinth == s.chip
  | none => false

/-! ### Links and candidates (R424) -/

def getLink (s : State) (l : Nat) : Link := tabGet .reset s.router.links l

def setLink (s : State) (l : Nat) (x : Link) : State :=
  { s with router := { s.router with links := tabSet .reset s.router.links l x } }

def modLink (s : State) (l : Nat) (f : Link → Link) : State := setLink s l (f (getLink s l))

/-- The chip towards which a flit is routed: the partition's Plinth package for the host tier. -/
def routeChip (s : State) (part dchip : Nat) : Nat :=
  if dchip = hostChip then
    match findPart s part with
    | some p => p.params.plinth
    | none => dchip
  else dchip

/-- The route-table entry of a chip: what management wrote, else what training yielded. -/
def routeEntry (s : State) (chip : Nat) : Nat :=
  match tabGet none s.router.route chip with
  | some e => e.toNat
  | none => if s.tree.epoch = 0 then 0 else (Config.trainedRoute s.tree.epoch chip).toNat

/-- The links that an entry names as valid candidates, lowest index first. -/
def entryLinks (e : Nat) : List Nat :=
  (List.range 4).filterMap fun i => if bitOf e (8 * i + 7) then some (bitsOf e (8 * i) 7) else none

/-- The valid candidates of a chip: links that are up. -/
def candidates (s : State) (chip : Nat) : List Nat := (entryLinks (routeEntry s chip)).filter fun l => (getLink s l).up

/-- The link of the boot spanning tree towards a chip: down to the child below which it lies, else up (R424). -/
def treeLink (s : State) (chip : Nat) : Option Nat :=
  match s.tree.below.find? fun e => e.2.contains chip with
  | some e => some e.1
  | none => s.tree.parent.map fun _ => s.tree.up

/-- The escape link of a chip, when its entry is valid: the entry that management wrote, else the tree's. -/
def escapeLink (s : State) (chip : Nat) : Option Nat :=
  let l := match tabGet none s.router.escape chip with
    | some e => if bitOf e.toNat 7 then some (bitsOf e.toNat 0 7) else none
    | none => treeLink s chip
  l.filter fun l => (getLink s l).up

/-- Is the flit for a unit of this package? -/
def flitHere (s : State) (f : Flit) : Bool :=
  f.dchip == s.chip || (f.dchip == hostChip && plinthHere s f.partition)

/-- Some way towards the flit's chip exists. -/
def routable (s : State) (f : Flit) : Bool :=
  flitHere s f || !(candidates s (routeChip s f.partition f.dchip)).isEmpty
    || (escapeLink s (routeChip s f.partition f.dchip)).isSome

/-- The input port that the live slot table names for output `out` in a slot; none where the entry is free, or dead
because its output or input is a down link (R422). -/
def slotInput (s : State) (out slot : Nat) : Option Nat :=
  let i := tabGet 0xFF s.router.slots (out * 256 + slot)
  let dead : Nat → Bool := fun p => decide (p < 128) && !(getLink s p).up
  if i = 0xFF ∨ dead i ∨ dead out then none else some i

/-- A circuit flit at input `inp` has lost its circuit: entries name the input for outputs towards its chip, and each of
them is dead (R442). -/
def deadCircuit (s : State) (inp : Nat) (f : Flit) : Bool :=
  let mine := s.router.slots.filter fun e =>
    e.2 == inp && (entryLinks (routeEntry s (routeChip s f.partition f.dchip))).contains (e.1 / 256)
  !mine.isEmpty && mine.all fun e => !(getLink s (e.1 / 256)).up

/-- A circuit flit without its circuit travels as best-effort (R442). -/
def asRouted (s : State) (inp : Nat) (f : Flit) : Flit := if f.cls = 0 ∧ deadCircuit s inp f then { f with cls := 1 } else f

/-- A flit that stood at link input `w.inp` leaves its buffer: the credit goes back with a trailer (R427, R428). -/
def freeEntry (s : State) (w : Waiting) : State :=
  if 128 ≤ w.inp then s
  else match w.came with
    | 1 => modLink s w.inp fun l => { l with ret := (l.ret.1 + 1, l.ret.2.1, l.ret.2.2) }
    | 2 => modLink s w.inp fun l => { l with ret := (l.ret.1, l.ret.2.1 + 1, l.ret.2.2) }
    | _ => s

/-! ### What a router discards (R435) -/

/-- The registers that a partition keeps on the package, at reset (R337, R338), for a partition with no record here. -/
def partReset (n : Nat) : Partition :=
  { params := { num := n, asid := 0, cores := [], kvec := 0, fqbase := 0, first := 0, count := 0, krow := 0, ptbase := 0,
                tree := none, l := 0, p := 0, n := 0, save := none, plinth := 0, channel := 0 },
    ptbase := 0, sltctl := 0, linkctl := 0x1800000000000, hangint := 0x40000000, ctolmin := 0x0100 }

def getPart (s : State) (n : Nat) : Partition := (findPart s n).getD (partReset n)

/-- The core that hears of a partition's links: LINKCTL.ecore. -/
def ecoreOf (s : State) (part : Nat) : Nat := bitsOf (getPart s part).linkctl.toNat 49 4

/-- The kind 0x03 record of a discarded flit (R435, R339). -/
def mismatchRecord (core : Nat) (f : Flit) : BitVec 256 :=
  faultRecord 0x03 core 0 0 (f.schip % 2 ^ 12 + f.partition % 2 ^ 8 * 2 ^ 12 + f.type % 32 * 2 ^ 20)

/-- A router discards a flit for its own reasons: it is counted, and the record goes to partition 0's ecore (R435). -/
def discardFlit (s : State) (f : Flit) : State :=
  postFault { s with router := { s.router with dropped := s.router.dropped + 1 } } (ecoreOf s 0) (mismatchRecord (ecoreOf s 0) f)

/-! ### Routing -/

/-- The job that awaits a reply to this flit of this package's own learns that it has no way (R433): its eighth resend
counts as made. -/
def unsent (s : State) (f : Flit) : State :=
  { s with router := { s.router with tx := s.router.tx.map fun t =>
      if t.dchip = f.dchip then { t with opens := t.opens.map fun o =>
        if { o.flit with cls := f.cls, kslot := f.kslot } = f then { o with tries := 9 } else o } else t } }

/-- A best-effort flit has no way: at its source router it is not sent; elsewhere it is discarded (R433). -/
def noWay (s : State) (w : Waiting) : State :=
  freeEntry (if w.flit.schip = s.chip then
      unsent { s with router := { s.router with dropped := s.router.dropped + 1 } } w.flit
    else discardFlit s w.flit) w

/-- A flit enters the router at input `inp`: among the arrivals when its target is here; otherwise it waits for an output.
A best-effort flit without a way is discarded and counted (R433). -/
def routeFlit (s : State) (inp : Nat) (f : Flit) : State :=
  let r := s.router
  if flitHere s f then { s with router := { r with arrived := r.arrived ++ [⟨inp, f, f.cls⟩] } }
  else
    let c := f.cls
    let f := asRouted s inp f
    if f.cls ≠ 1 ∨ routable s f then { s with router := { r with waiting := r.waiting ++ [⟨inp, f, c⟩] } }
    else noWay s ⟨inp, f, c⟩

/-! ### Outputs of this package (R422 to R425) -/

def reqRegion (f : Flit) : Nat := bitsOf f.route.toNat 4 4
def reqOff (f : Flit) : Nat := bitsOf f.route.toNat 8 40

/-- The core that an offset names (R82). -/
def offCore (region off : Nat) : Nat :=
  match region with
  | 1 => off / 2 ^ 23
  | 3 => off / 2 ^ 20
  | _ => off / 2 ^ 27

def tokenPort (f : Flit) : PortAddr := portOf (bitsOf f.route.toNat 0 20)

/-- The output by which a flit for this package leaves its router (R424): the core port of its target, Plinth for the host
tier. Flits that name no core leave by the output of boot and management (log entry 21). -/
def flitOut (f : Flit) : Nat :=
  if f.dchip = hostChip then 144
  else if f.type = 1 ∨ f.type = 2 then 128 + (tokenPort f).core
  else if (f.type = 3 ∨ f.type = 4 ∨ f.type = 6) ∧ reqRegion f ≤ 3 then 128 + offCore (reqRegion f) (reqOff f % 2 ^ 39) % 16
  else 145

def localSlot (s : State) (o : Nat) : Nat := tabGet 0 s.router.lslot o % 256

/-- One slot of output `o` has passed. -/
def passSlot (s : State) (o : Nat) : State :=
  { s with router := { s.router with lslot := tabSet 0 s.router.lslot o ((localSlot s o + 1) % 256) } }

/-- The flit that output `o` of this package takes in its slot among those that `ok` admits (R423, R425): the oldest circuit
flit of the input that its live entry names; with none, the oldest escape flit, then the oldest best-effort flit. A flit
that its stream held back has left the router. -/
def localPick (s : State) (o : Nat) (ok : Flit → Bool) : Option Waiting :=
  let ws := s.router.arrived.filter fun w => flitOut w.flit == o && ok w.flit
  let circuit := (slotInput s o (localSlot s o)).bind fun i => ws.find? fun w => w.inp == i && w.flit.cls == 0
  (((ws.find? fun w => w.inp == 146).or circuit).or (ws.find? fun w => w.flit.cls == 2)).or
    (ws.find? fun w => w.flit.cls != 0 && w.flit.cls != 2)

/-! ### Streams (R431) -/

/-- The lane of token flits. -/
def tokenLane : Nat := 16

def findTx (s : State) (dchip lane : Nat) : TxStream :=
  (s.router.tx.find? fun t => t.dchip == dchip && t.lane == lane).getD ⟨dchip, lane, 0, [], []⟩

def putTx (s : State) (t : TxStream) : State :=
  let rest := s.router.tx.filter fun u => !(u.dchip == t.dchip && u.lane == t.lane)
  { s with router := { s.router with tx := rest ++ [t] } }

/-- Number a flit and send it. -/
def emitFlit (s : State) (o : OpenFlit) (lane : Nat) : State :=
  let t := findTx s o.flit.dchip lane
  let f := { o.flit with seq := t.next }
  let s := putTx s { t with next := (t.next + 1) % 2 ^ 32, opens := t.opens ++ [{ o with seq := t.next, flit := f }] }
  routeFlit s (128 + o.core) f

/-- Send a request or token flit on its stream; the 1025th unreplied one waits (R431). A lost chip is rewritten to its
replacement before the number is assigned (R460). -/
def sendFlit (s : State) (lane : Nat) (o : OpenFlit) : State :=
  let d := match s.router.rewrites.find? fun w => w.1 == o.part && w.2.1 == o.flit.dchip with
    | some w => w.2.2
    | none => o.flit.dchip
  let o := { o with flit := { o.flit with dchip := d } }
  let t := findTx s d lane
  if 1024 ≤ t.opens.length ∨ t.queue ≠ [] then putTx s { t with queue := t.queue ++ [o] } else emitFlit s o lane

/-- A waiting flit of the stream leaves once there is room. -/
def pumpStream (s : State) (dchip lane : Nat) : State :=
  let t := findTx s dchip lane
  match t.queue with
  | [] => s
  | o :: q => if 1024 ≤ t.opens.length ∨ (o.flit.cls = 1 ∧ routable s o.flit = false) then s else emitFlit (putTx s { t with queue := q }) o lane

/-- The first reply of a sequence number closes its flit (R432); a later one finds nothing. -/
def closeFlit (s : State) (dchip lane seq : Nat) : Option OpenFlit × State :=
  let t := findTx s dchip lane
  match t.opens.find? fun o => o.seq == seq with
  | none => (none, s)
  | some o => (some o, pumpStream (putTx s { t with opens := t.opens.filter fun u => u.seq != seq }) dchip lane)

/-! ### Flits (R419 to R421) -/

/-- The route word of a request. -/
def reqRoute (cls region off : Nat) : BitVec 48 := BitVec.ofNat 48 (cls % 16 + region % 16 * 16 + off * 256)

/-- A request flit to a fabric address, in the class of its job. -/
def mkReq (s : State) (type part cls addr : Nat) (payload : List Byte) : Flit :=
  { dchip := bitsOf addr 44 12, schip := s.chip, partition := part, cls := 1, kslot := 0, type := type,
    length := payload.length, seq := 0, route := reqRoute cls (bitsOf addr 40 4) (bitsOf addr 0 40), payload := payload }

/-- The bytes of a fabric run that travel as one flit: at most 224, and of a longer run so many that 8 or more are left
(R420). A run is cut between aligned 8-byte words, which are written whole (R282). -/
def flitLen (addr n : Nat) : Nat :=
  if n ≤ 224 then n
  else
    let m := 224 - addr % 8
    if n - m < 8 then m - 8 else m

/-- Send a request of class `cls` (R420). -/
def sendReq (s : State) (type part region core cls addr : Nat) (payload : List Byte) (who : Waiter) : State :=
  sendFlit s cls ⟨0, mkReq s type part cls addr payload, who, part, region, 0, core⟩

/-- The answer to a request: the sequence number and lane of the request (R431). -/
def sendReply (s : State) (q : Flit) (type : Nat) (extra : Nat) (payload : List Byte) : State :=
  let lane := if q.type = 1 ∨ q.type = 2 then 0 else bitsOf q.route.toNat 0 4
  routeFlit s 144 { dchip := q.schip, schip := s.chip, partition := q.partition, cls := 1, kslot := 0, type := type,
                    length := payload.length, seq := q.seq,
                    route := BitVec.ofNat 48 ((if q.type = 1 ∨ q.type = 2 then 16 else lane) + extra * 256), payload := payload }

/-- A token's header (R74) as 16 bytes. -/
def headerBytes (t : Token) : List Byte :=
  natLe 16 (t.seq % 2 ^ 32 + t.ticket % 2 ^ 16 * 2 ^ 32 + t.type % 256 * 2 ^ 48 + t.source % 256 * 2 ^ 56 + t.tag.toNat * 2 ^ 64)

/-- The token that a header and payload make. -/
def tokenOf (h : Nat) (payload : List Byte) : Token :=
  ⟨bitsOf h 0 32, bitsOf h 32 16, bitsOf h 48 8, bitsOf h 56 8, BitVec.ofNat 64 (bitsOf h 64 64), payload⟩

/-- Continuation flits of a token (R421). -/
def restFlits (f : Flit) (port : Nat) : Nat → Nat → List Byte → List Flit
  | 0, _, _ => []
  | n + 1, i, bs =>
    if bs.isEmpty then []
    else
      { f with type := 2, length := (bs.take 224).length, route := BitVec.ofNat 48 (port + i * 2 ^ 20), payload := bs.take 224 }
        :: restFlits f port n (i + 1) (bs.drop 224)

/-- A token as flits (R421). -/
def tokenFlits (s : State) (part : Nat) (dst : PortAddr) (t : Token) : List Flit :=
  let bs := headerBytes t ++ t.payload
  let p := portBits dst
  let f : Flit := { dchip := dst.chip, schip := s.chip, partition := part, cls := 0, kslot := 0, type := 1,
                    length := (bs.take 224).length, seq := 0,
                    route := BitVec.ofNat 48 (p + bs.length / 16 * 2 ^ 20), payload := bs.take 224 }
  f :: restFlits f p 20 1 (bs.drop 224)

/-- Send a token on its way to a port. -/
def sendToken (s : State) (part region core : Nat) (dst : PortAddr) (t : Token) : State :=
  (tokenFlits s part dst t).foldl (fun s f => sendFlit s tokenLane ⟨0, f, .token, part, region, 0, core⟩) s

/-! ### Region control -/

/-- The firmware's stream to another package carries a message of the boot spanning tree (R420). A message to this
package is taken at once. -/
def sendCtl (s : State) (chip : Nat) (m : CtlMsg) : State :=
  if chip = s.chip then { s with ctlIn := s.ctlIn ++ [(s.chip, m)] } else { s with ctlOut := s.ctlOut ++ [(chip, m)] }

/-- The neighbours on the boot spanning tree. -/
def treeNext (s : State) : List Nat := s.tree.children ++ s.tree.parent.toList

/-- Send a message to every tree neighbour but `from_`, whence it came. -/
def relayCtl (s : State) (from_ : Nat) (m : CtlMsg) : State :=
  ((treeNext s).filter fun c => c != from_).foldl (fun s c => sendCtl s c m) s

/-- Send a message to every tree neighbour. -/
def floodCtl (s : State) (m : CtlMsg) : State := (treeNext s).foldl (fun s c => sendCtl s c m) s

/-- Send a message to every package: it is taken here, and whoever takes it relays it on. -/
def sendAll (s : State) (m : CtlMsg) : State := sendCtl s s.chip m

/-! ### Regions -/

def findRegion (s : State) (part num : Nat) : Option Region :=
  s.regions.find? fun r => r.part == part && r.num == num

def modRegion (s : State) (part num : Nat) (f : Region → Region) : State :=
  { s with regions := s.regions.map fun r => if r.part = part ∧ r.num = num then f r else r }

/-- Progress of a region on this package (R371). -/
def progress (s : State) (part num : Nat) : State := modRegion s part num fun r => { r with quiet := s.clock }

/-- Is this package the monitor and recovery home of the region (R354, R400)? -/
def isHome (s : State) (r : Region) : Bool := r.cfg.homeChip == s.chip

/-- Raise a region error (R400): its recovery home hears of it. -/
def raiseRegion (s : State) (part num cls core : Nat) : State :=
  match findRegion s part num with
  | none => s
  | some r => sendCtl s r.cfg.homeChip (.error part num cls s.chip core)

end Sys2Proof.Machine
end

