-- ==== Sys2Proof/Machine/Card.lean ====
section
/-!
DEFINITION. Job cards (03 R78 to R80, 09 R256 to R273): their fields, footprints, the checks that make a card
malformed, and the making of a job from a launch (09 R254).
-/
namespace Sys2Proof.Machine

def cardEvent (bs : List Byte) : Bool := bitOf (cField bs 0 4) 17
def cardPublish (bs : List Byte) : Bool := bitOf (cField bs 0 4) 16
def cardBarrier (bs : List Byte) : Bool := bitOf (cField bs 0 4) 18
def cardVirtual (bs : List Byte) : Bool := bitOf (cField bs 0 4) 19
def cardClass (bs : List Byte) : Nat := bitsOf (cField bs 0 4) 8 4
def cardBarAddr (bs : List Byte) : Nat := bitsOf (cField bs 8 8) 0 23
def cardPmap (bs : List Byte) : Nat := cField bs 120 4
def cardPval (bs : List Byte) : Nat := cField bs 124 4

/-- A run `[a, a + n)` lies wholly inside a region of the given direction. -/
def inRegion (rs : List FpRegion) (write : Bool) (sp : Space) (a : Int) (n : Nat) : Bool :=
  rs.any fun r => r.space == sp && r.write == write && decide ((r.start : Int) ≤ a) && decide (a + n ≤ r.start + r.len)

/-- The card's own regions, its implicit one left out. -/
def ownRegions (bs : List Byte) : List FpRegion := (List.range 4).filterMap (cardRegion bs)

/-- A card field breaks the rules of R78 and R258 that hold for every opcode. A barrier address that is no multiple of 8
breaks none: DEDUCED, no rule names an error for it, and the job arrives on the word at that address (log entry 109). -/
def cardIllegal (bs : List Byte) (major : Nat) (noQueue : Bool) : Bool :=
  let w := cField bs 0 8
  bitsOf w 0 8 != major || bitsOf w 12 4 != 0 || bitsOf w 20 12 != 0 || bitsOf w 48 16 != 0
    || bitsOf (cField bs 8 8) 23 41 != 0 || bitsOf (cField bs 56 8) 12 52 != 0
    || (List.range 4).any (fun i =>
      let f := cField bs (16 + 8 * i) 8
      bitsOf f 29 3 != 0 || (bitOf f 28 && bitsOf f 32 32 == 0))
    || (if cardPublish bs then
          bitsOf (cardPmap bs) 23 9 != 0 || cardPmap bs % 4 != 0 || !inRegion (ownRegions bs) true .spad (cardPmap bs : Nat) 4
        else cField bs 120 8 != 0)
    || (cardEvent bs && noQueue)

/-! ### Operands (R256) -/

/-- The address of an operand of a kind. -/
def opAddr (kind w : Nat) : Nat :=
  match kind with
  | 0 => bitsOf w 0 23
  | 1 => bitsOf w 0 27
  | 2 => bitsOf w 0 56
  | _ => bitsOf w 0 80

/-- An unused bit of an operand is set, or kind 3 stands without the virtual flag. -/
def opIllegal (bs : List Byte) (kind w : Nat) : Bool :=
  opAddr kind w != w || (kind == 3 && !cardVirtual bs)

/-- The errors of a local operand: outside its space, or below the arena base for a stage-mode write (0x02); outside
the footprint (0x03). -/
def localErr (rs : List FpRegion) (arena : Option Nat) (cur write : Bool) (sp : Space) (a : Int) (n : Nat) : Nat :=
  let below : Bool := match arena with
    | some b => decide (a < b)
    | none => true
  if a < 0 ∨ (spaceSize sp : Int) < a + n then 2
  else if (sp == .win && write && !cur && below) = true then 2
  else if inRegion rs write sp a n then 0 else 3

/-- The first error of a list. -/
def firstErr (l : List Nat) : Nat := (l.find? fun e => e != 0).getD 0

/-- A word of bytes that must be zero is not. -/
def dirty (bs : List Byte) (lo hi : Nat) : Bool := cField bs lo (hi + 1 - lo) != 0

/-- The fields of a copy (R261). -/
structure CpyCard where
  src  : Nat
  dst  : Nat
  len  : Nat
  rows : Nat
  sk   : Nat
  dk   : Nat
  ss   : Int
  ds   : Int
  deriving DecidableEq, Repr

def cpyCard (bs : List Byte) : CpyCard :=
  let k := cField bs 102 1
  ⟨cField bs 64 16, cField bs 80 16, cField bs 96 4, cField bs 100 2, bitsOf k 0 2, bitsOf k 2 2,
    sextNat 32 (cField bs 104 4), sextNat 32 (cField bs 108 4)⟩

/-- The least and greatest address of strided rows. -/
def stridedRun (a : Nat) (len rows : Nat) (st : Int) : Int × Nat :=
  let last := (a : Int) + (rows - 1 : Nat) * st
  let lo : Int := if last < a then last else a
  let hi : Int := if last < a then a else last
  (lo, (hi - lo).toNat + len)

def localSpace (k : Nat) : Space := if k = 1 then .win else .spad

def cpyErr (bs : List Byte) (rs : List FpRegion) (arena : Option Nat) (cur : Bool) : Nat :=
  let c := cpyCard bs
  if dirty bs 103 103 || dirty bs 112 119 || bitsOf (cField bs 102 1) 4 4 != 0 || c.len == 0 || decide (2 ^ 24 < c.len)
      || c.rows == 0 || opIllegal bs c.sk c.src || opIllegal bs c.dk c.dst then 1
  else
    let s := stridedRun c.src c.len c.rows c.ss
    let d := stridedRun c.dst c.len c.rows c.ds
    let es := (if c.sk < 2 then [localErr rs arena cur false (localSpace c.sk) s.1 s.2] else [])
      ++ (if c.dk < 2 then [localErr rs arena cur true (localSpace c.dk) d.1 d.2] else [])
    if es.contains 2 then 2 else firstErr es

/-- The element size of an SCA format. -/
def scaSize (fmt : Nat) : Nat := if fmt = 3 then 8 else 4

def scaErr (bs : List Byte) (rs : List FpRegion) : Nat :=
  let idx := cField bs 64 4
  let val := cField bs 68 4
  let dst := cField bs 72 4
  let n := cField bs 76 4
  let op := cField bs 80 1
  let fmt := cField bs 81 1
  let z := scaSize fmt
  if dirty bs 82 119 || n == 0 || decide (2 ^ 24 < n) || decide (4 < op) || !(fmt == 0 || fmt == 3 || (fmt == 9 && op != 4))
      || decide (2 ^ 23 ≤ idx) || decide (2 ^ 23 ≤ val) || decide (2 ^ 23 ≤ dst) then 1
  else if idx % 4 ≠ 0 ∨ val % z ≠ 0 ∨ (op = 4 ∧ dst % 16 ≠ 0) then 4
  else
    let es := [localErr rs none false false .spad idx (4 * n), localErr rs none false false .spad val (z * n)]
      ++ (if op = 3 then [localErr rs none true true .spad val (z * n)] else [])
    if es.contains 2 then 2 else firstErr es

def blockErr (bs : List Byte) (rs : List FpRegion) (load : Bool) : Nat :=
  let loc := cField bs 80 4
  let len := cField bs 84 2
  let k := cField bs 86 1
  if dirty bs 87 119 || !(k == 2 || k == 3) || opIllegal bs k (cField bs 64 16) || decide (2 ^ 23 ≤ loc)
      || decide (len < 8) || decide (224 < len) || len % 8 != 0 then 1
  else if loc % 8 ≠ 0 ∨ cField bs 64 16 % 8 ≠ 0 then 4
  else localErr rs none false load .spad loc len

def fatmErr (bs : List Byte) : Nat :=
  let op := cField bs 80 1
  let af := cField bs 81 1
  let k := cField bs 82 1
  if dirty bs 83 87 || dirty bs 112 119 || decide (5 < op) || (if op = 1 then !(af == 0 || af == 3) else af != 0)
      || !(k == 2 || k == 3) || opIllegal bs k (cField bs 64 16) || (op != 5 && dirty bs 96 103) then 1
  else if cField bs 64 16 % (if op = 1 then 16 else 8) ≠ 0 then 4 else 0

def frepErr (bs : List Byte) (rs : List FpRegion) : Nat :=
  let src := cField bs 64 4
  let len := cField bs 68 4
  let tab := cField bs 72 4
  let n := cField bs 76 2
  if dirty bs 78 119 || n == 0 || decide (1024 < n) || decide (len < 16) || decide (65536 < len) || len % 16 != 0
      || decide (2 ^ 23 ≤ src) || decide (2 ^ 23 ≤ tab) then 1
  else if src % 16 ≠ 0 ∨ tab % 8 ≠ 0 then 4
  else
    let es := [localErr rs none false false .spad src len, localErr rs none false false .spad tab (8 * n)]
    if es.contains 2 then 2 else firstErr es

/-- Arrays of a prefix card: address, words, write. -/
def pfxArrays (bs : List Byte) (major : Nat) : List (Nat × Nat × Bool) :=
  let f := fun i => cField bs i 4
  match major with
  | 0x0B => [(f 64, f 68, false), (f 72, f 76, true)]
  | 0x0C => [(f 64, f 68, false), (f 72 + 4 * f 76, f 80, false), (f 72 + 4 * f 76, f 80, true)]
  | 0x0D => [(f 64, f 68, false)]
  | 0x0E => [(f 64, 1, false), (f 64, 1, true)]
  | _ => [(f 68, f 64, true)]

/-- The address fields of a prefix card, 23 bits each. -/
def pfxAddrs (bs : List Byte) (major : Nat) : List Nat :=
  let f := fun i => cField bs i 4
  match major with
  | 0x0B => [f 64, f 72]
  | 0x0C => [f 64, f 72]
  | 0x0D => [f 64]
  | 0x0E => [f 64]
  | _ => [f 68]

/-- The last byte of the fields of a prefix card. -/
def pfxEnd (major : Nat) : Nat :=
  match major with
  | 0x0B => 80
  | 0x0C => 84
  | 0x0D => 76
  | 0x0E => 68
  | _ => 72

def pfxErr (bs : List Byte) (rs : List FpRegion) (major : Nat) : Nat :=
  let as := pfxArrays bs major
  if dirty bs (pfxEnd major) 119 || (pfxAddrs bs major).any (fun a => decide (2 ^ 23 ≤ a)) then 1
  else
    let es := as.map fun a => if a.2.1 = 0 then 0 else localErr rs none false a.2.2 .spad a.1 (4 * a.2.1)
    if es.contains 2 then 2 else firstErr es

/-- The element size of a page format. -/
def mrgSize (kf : Nat) : Nat := if kf = 0 then 4 else if kf = 1 then 2 else 1

/-- A merge of a page of `p` tokens (R273, R296). More tokens than a page has places are refused: DEDUCED (log entry 159). -/
def mrgErr (bs : List Byte) (rs : List FpRegion) (arena : Option Nat) (p : Nat) : Nat :=
  let slot := cField bs 64 4
  let n := cField bs 68 2
  let hd := cField bs 70 2
  let kf := cField bs 72 1
  let mult := cField bs 80 4
  let bias := cField bs 84 4
  let page := 2 * p * 1024 * mrgSize kf
  if dirty bs 73 75 || dirty bs 88 119 || decide (n < 2) || decide (64 < n) || decide (p < n) || decide (hd < 16) || decide (1024 < hd)
      || hd % 16 != 0 || !(kf == 0 || kf == 1 || kf == 4 || kf == 5) || decide (2 ^ 27 ≤ slot) || decide (2 ^ 23 ≤ mult)
      || decide (2 ^ 23 ≤ bias) then 1
  else if slot % page ≠ 0 then 4
  else
    let es := [localErr rs arena false true .win slot page, localErr rs none false false .spad mult (4 * n),
      localErr rs none false true .spad mult (4 * n), localErr rs none false true .spad bias (4 * n)]
    if es.contains 2 then 2 else firstErr es

/-- The error with which a card fails before any write (R254, R260): 0 for none. -/
def cardErr (bs : List Byte) (major : Nat) (noQueue cur : Bool) (arena : Option Nat) (p : Nat) : Nat :=
  let rs := ownRegions bs
  if cardIllegal bs major noQueue then 1
  else match major with
    | 0x01 => cpyErr bs rs arena cur
    | 0x02 => scaErr bs rs
    | 0x05 => blockErr bs rs true
    | 0x06 => blockErr bs rs false
    | 0x07 => fatmErr bs
    | 0x08 => frepErr bs rs
    | 0x10 => mrgErr bs rs arena p
    | m => if 0x0B ≤ m ∧ m ≤ 0x0F then pfxErr bs rs m else 1

/-- The chip of a fabric address (R81). -/
def faChip (a : Nat) : Nat := bitsOf a 44 12

/-- The chips that a job's fabric accesses go to, as far as its card tells: none when it makes none; nothing known of a
translated operand or of a replication's table. -/
def jobChips (j : Job) : Option (List Nat) :=
  let f := cField j.bytes
  let chip := fun (kind lo : Nat) => if kind = 2 then some [faChip (f lo 16)] else if kind = 3 then none else some []
  match j.major with
  | 0x01 =>
    match chip (cpyCard j.bytes).sk 64, chip (cpyCard j.bytes).dk 80 with
    | some a, some b => some (a ++ b)
    | _, _ => none
  | 0x05 => chip (f 86 1) 64
  | 0x06 => chip (f 86 1) 64
  | 0x07 => chip (f 82 1) 64
  | 0x08 => none
  | _ => some []

/-- The job may make fabric accesses of the chip. -/
def mayReach (j : Job) (chip : Nat) : Bool :=
  match jobChips j with
  | some l => l.contains chip
  | none => true

/-! ### Making a job (R254) -/

/-- The region, the wave number and the xbp that a launch of `w` on core `k` carries. -/
def launchCtx (c : Core) (w : Who) : Nat × Nat × BitVec 12 :=
  match w with
  | .a => (c.ctxA.region, c.ctxA.marker, c.ctxA.live.xbp)
  | .b => (c.ctxB.region, c.ctxB.marker, c.ctxB.live.xbp)
  | .cur => (0, 0, (getCtx c (kCtx c)).live.xbp)

/-- Does a launcher lack an event queue (R77)? The curator's records go to the fault queue. -/
def lacksQueue (c : Core) (w : Who) : Bool :=
  match w with
  | .a => c.ctxA.cfg.evq.isNone
  | .b => c.ctxB.cfg.evq.isNone
  | .cur => false

/-- A launch's job: the card as read, xbp captured, the status to be cleared. -/
def makeJob (s : State) (k : Nat) (w : Who) (major card : Nat) (bs : List Byte) : Job :=
  let c := getCore s k
  let (region, wave, xbp) := launchCtx c w
  let err := cardErr bs major (lacksQueue c w) (w == .cur) c.arena (((findPart s (partOf c)).map (·.params.p)).getD 0)
  { id := c.nextSeq, seq := c.nextSeq, owner := w, saved := none, part := partOf c, region := region, wave := wave, major := major,
    card := card, bytes := bs, xbp := xbp, cls := cardClass bs, asid := BitVec.ofNat 16 (bitsOf c.partid.toNat 8 16),
    regions := cardRegions bs card, state := .queued, progress := 0, err := err, xflags := 0, result := 0,
    cancel := false, silent := err == 1 && cardEvent bs && lacksQueue c w, killed := false, pend := [], got := [],
    refused := [], walk := none }

/-- Status and progress fields of a card in storage (R79). -/
def writeStatus (s : State) (k card st : Nat) : State := spWrite s k .spad (card + 4) (natLe 2 st)

/-- A launch takes its place among the core's jobs: xbp captured in the card, the status cleared (R254, R78). -/
def addJob (s : State) (k : Nat) (j : Job) : State :=
  let s := writeStatus s k j.card 0
  let s := spWrite s k .spad (j.card + 48) (natLe 10 (j.xbp.toNat * 2 ^ 64))
  modCore s k fun c => { c with jobs := c.jobs ++ [j], nextSeq := c.nextSeq + 1 }

end Sys2Proof.Machine
end

