-- ==== Sys2Proof/WellFormed.lean ====
section
/-!
DEFINITION. Which field values of a slot instruction the spec allows (05 R117 to R137, 07 R182, 08 R215): every
other value is a reserved value and traps ILLEGAL (R84). An event is well-formed when the core, link or port that
it names exists.
-/
namespace Sys2Proof

/-- A sequencer level (R118). -/
def levelOk (v : BitVec 3) : Bool := v.toNat ≤ 5

/-- A rounding field (R38). -/
def roundOk (r : BitVec 3) : Bool := r.toNat ≤ 4

/-- A vector operand from a v register or from a broadcast x register (R129). -/
def subRB (u : BitVec 2) : Bool := u == 0 || u == 1

/-- The element width of a vector fmt (R129, R177); 0 for the reserved code. -/
def fmtBits (t : BitVec 3) : Nat :=
  match t.toNat with
  | 0 => 32 | 1 => 16 | 2 => 16 | 3 => 64 | 4 => 32 | 5 => 16 | 6 => 8 | _ => 0

/-- The codes that VCVT accepts (R197). -/
def cvtCode (c : Nat) : Bool := c ≤ 5 || (9 ≤ c && c ≤ 13)

/-- The permitted pairs of activation and weight formats (R215). -/
def mfmtPair (a w : Nat) : Bool :=
  (4 ≤ a && a ≤ 7 && 4 ≤ w && w ≤ 7) || (a == 8 && w == 8) || (a == 1 && w == 1)

/-- The numbers of the control registers (R337). -/
def cregListed (c : Nat) : Bool := c ≤ 5 || (8 ≤ c && c ≤ 11) || (16 ≤ c && c ≤ 25)

/-- The numbers of the special registers (R62). -/
def sregListed (n : Nat) : Bool :=
  n ≤ 5 || (8 ≤ n && n ≤ 13) || n == 0x10 || (0x20 ≤ n && n ≤ 0x23) || n == 0x30 || n == 0x31
    || (0x40 ≤ n && n ≤ 0x4B) || n == 0x50 || n == 0x60 || n == 0x61

/-- The special registers that MTS may write (R62). -/
def sregWritable (n : Nat) : Bool :=
  sregListed n && !(n == 0x48 || n == 0x49 || n == 0x4A || n == 0x60 || n == 0x61)

/-- An instruction whose every field value is legal. -/
def Instr.wf : Instr → Bool
  | .nop => true
  | .pbr _ _ => true
  | .pbrx _ _ _ _ _ => true
  | .br _ _ _ => true
  | .call _ _ _ _ => true
  | .loopImm v _ _ => levelOk v
  | .loopReg v _ _ _ => levelOk v
  | .loopKeep v _ => levelOk v
  | .loopsl v _ _ => levelOk v
  | .lbrk v _ _ => levelOk v
  | .waitb _ _ _ _ _ _ _ => true
  | .waitt _ _ _ _ _ => true
  | .done _ _ => true
  | .ckpt _ _ => true
  | .fence k _ _ _ _ => k != 0
  | .trap _ _ _ => true
  | .brk _ _ _ => true
  | .getid _ _ _ => true
  | .evpop d b _ _ => d != b || d == 0
  | .rdct _ c _ _ => c.toNat ≤ 7
  | .rng _ v _ _ => levelOk v
  | .mfc _ c _ _ => cregListed c.toNat
  | .mtc _ _ c _ _ => cregListed c.toNat && c.toNat != 3
  | .mtcKcpc _ _ _ _ => true
  | .tret _ _ => true
  | .halt _ _ _ _ => true
  | .haltResume _ _ _ _ => true
  | .pstop _ _ _ _ => true
  | .pstopThaw _ _ _ _ => true
  | .pdrain _ _ _ _ => true
  | .csave _ _ _ _ _ _ => true
  | .cload _ _ _ _ _ _ => true
  | .tlbiAsid _ _ _ _ _ _ => true
  | .tlbiPage _ _ _ _ _ _ => true
  | .tlbiAll _ _ _ _ _ _ => true
  | .sltw _ _ _ _ _ _ => true
  | .sltwCommit _ _ _ _ _ _ => true
  | .lkey _ _ _ _ _ _ => true
  | .lksw _ _ _ _ => true
  | .retc _ _ _ _ => true
  | .retcCore _ _ _ _ => true
  | .jrsm _ _ _ _ => true
  | .jkil _ _ _ _ => true
  | .add _ _ _ _ _ _ => true
  | .sub _ _ _ _ _ _ => true
  | .and _ _ _ _ _ _ => true
  | .or _ _ _ _ _ _ => true
  | .xor _ _ _ _ _ _ => true
  | .andn _ _ _ _ _ _ => true
  | .sll _ _ _ _ _ _ => true
  | .srl _ _ _ _ _ _ => true
  | .sra _ _ _ _ _ _ => true
  | .rol _ _ _ _ _ _ => true
  | .min _ _ _ _ _ _ => true
  | .max _ _ _ _ _ _ => true
  | .minu _ _ _ _ _ _ => true
  | .maxu _ _ _ _ _ _ => true
  | .mul _ _ _ _ _ _ => true
  | .mulh _ _ _ _ _ _ => true
  | .mulhu _ _ _ _ _ _ => true
  | .div _ _ _ _ _ _ => true
  | .divu _ _ _ _ _ _ => true
  | .rem _ _ _ _ _ _ => true
  | .remu _ _ _ _ _ _ => true
  | .clz _ _ _ _ => true
  | .ctz _ _ _ _ => true
  | .popc _ _ _ _ => true
  | .brev _ _ _ _ => true
  | .extb _ _ _ _ => true
  | .exth _ _ _ _ => true
  | .extw _ _ _ _ => true
  | .exbu _ _ _ _ => true
  | .exhu _ _ _ _ => true
  | .exwu _ _ _ _ => true
  | .addi _ _ _ _ _ => true
  | .andi _ _ _ _ _ => true
  | .ori _ _ _ _ _ => true
  | .xori _ _ _ _ _ => true
  | .slli _ _ _ _ _ => true
  | .srli _ _ _ _ _ => true
  | .srai _ _ _ _ _ => true
  | .muli _ _ _ _ _ => true
  | .lim _ _ _ _ => true
  | .lik _ _ _ _ => true
  | .cmp _ c _ _ _ _ _ => c.toNat ≤ 13
  | .cmpi _ c _ _ _ _ => c.toNat ≤ 9
  | .sel _ _ _ _ _ _ _ => true
  | .pand _ _ _ _ _ _ => true
  | .por _ _ _ _ _ _ => true
  | .pxor _ _ _ _ _ _ => true
  | .pnot _ _ _ _ => true
  | .dadd _ _ _ _ _ r _ => roundOk r
  | .dsub _ _ _ _ _ r _ => roundOk r
  | .dmul _ _ _ _ _ r _ => roundOk r
  | .ddiv _ _ _ _ _ r _ => roundOk r
  | .dsqrt _ _ _ r _ => roundOk r
  | .dmin _ _ _ _ _ _ => true
  | .dmax _ _ _ _ _ _ => true
  | .dabs _ _ _ _ => true
  | .dneg _ _ _ _ => true
  | .dfma _ _ _ _ _ r _ => roundOk r
  | .dfms _ _ _ _ _ r _ => roundOk r
  | .dnfma _ _ _ _ _ r _ => roundOk r
  | .dnfms _ _ _ _ _ r _ => roundOk r
  | .fadd _ _ _ _ _ r _ => roundOk r
  | .fsub _ _ _ _ _ r _ => roundOk r
  | .fmul _ _ _ _ _ r _ => roundOk r
  | .fdiv _ _ _ _ _ r _ => roundOk r
  | .fsqrt _ _ _ r _ => roundOk r
  | .fmin _ _ _ _ _ _ => true
  | .fmax _ _ _ _ _ _ => true
  | .ffma _ _ _ _ _ r _ => roundOk r
  | .i2d _ _ _ r _ => roundOk r
  | .u2d _ _ _ r _ => roundOk r
  | .d2i _ _ _ r _ => roundOk r
  | .d2u _ _ _ r _ => roundOk r
  | .f2d _ _ _ r _ => roundOk r
  | .d2f _ _ _ r _ => roundOk r
  | .i2f _ _ _ r _ => roundOk r
  | .f2i _ _ _ r _ => roundOk r
  | .mfs _ s _ => sregListed s.toNat
  | .mts _ _ s _ => sregWritable s.toNat
  | .vadd _ _ _ _ _ t _ u => t != 7 && subRB u
  | .vsub _ _ _ _ _ t _ u => t != 7 && subRB u
  | .vmul _ _ _ _ _ t _ u => t != 7 && subRB u
  | .vfma _ _ _ _ _ t _ u => t != 7 && subRB u
  | .vfms _ _ _ _ _ t _ u => t != 7 && subRB u
  | .vmin _ _ _ _ _ t _ u => t != 7 && subRB u
  | .vmax _ _ _ _ _ t _ u => t != 7 && subRB u
  | .vmaxm _ _ _ _ _ t _ u => t != 7 && subRB u
  | .vabs _ _ _ t _ => t != 7
  | .vneg _ _ _ t _ => t != 7
  | .vcmpeq _ _ _ _ _ t _ u => t != 7 && subRB u
  | .vcmplt _ _ _ _ _ t _ u => t != 7 && (subRB u || (u == 2 && 4 ≤ t.toNat))
  | .vcmple _ _ _ _ _ t _ u => t != 7 && (subRB u || (u == 2 && 4 ≤ t.toNat))
  | .vcmpun _ _ _ _ _ t _ u => t.toNat ≤ 3 && subRB u
  | .vcmpm _ _ _ => true
  | .vand _ _ _ _ _ t _ u => t != 7 && subRB u
  | .vor _ _ _ _ _ t _ u => t != 7 && subRB u
  | .vxor _ _ _ _ _ t _ u => t != 7 && subRB u
  | .vshl _ _ _ b f t _ u => 4 ≤ t.toNat && t != 7 && (subRB u || (u == 2 && !f && b.toNat < fmtBits t))
  | .vshr _ _ _ b f t _ u => 4 ≤ t.toNat && t != 7 && (subRB u || (u == 2 && !f && b.toNat < fmtBits t))
  | .vsra _ _ _ b f t _ u => 4 ≤ t.toNat && t != 7 && (subRB u || (u == 2 && !f && b.toNat < fmtBits t))
  | .vbld _ _ _ _ _ t _ u => t != 7 && subRB u
  | .vbc _ _ _ t _ => t != 7
  | .vins _ _ _ _ _ t _ => t != 7
  | .vext _ _ _ _ _ t => t != 7
  | .vperm _ _ _ _ _ t _ => t != 7
  | .vrot _ _ _ _ f t _ u => t != 7 && (u == 1 || (u == 2 && !f))
  | .vred _ _ _ o t _ => t != 7 && o.toNat ≤ 3
  | .vscan _ _ _ o t _ => t != 7 && o.toNat ≤ 2
  | .vcvt _ _ _ r c s t _ => t != 7 && cvtCode c.toNat && (!s || (!r && (c == 4 || c == 5)))
  | .vqnt _ _ _ _ _ t _ => t.toNat ≤ 2
  | .vdqnt _ _ _ _ _ t _ => t.toNat ≤ 2
  | .vhad _ _ _ _ s t _ => t == 0 && 1 ≤ s.toNat && s.toNat ≤ 5
  | .vsmrg _ _ _ t _ => t == 0
  | .vsmup d _ _ b _ t _ => t == 0 && d != b
  | .vchc s o _ _ t _ u => s.toNat ≤ 5 && o.toNat ≤ 9 && t == 0 && subRB u
  | .vch _ _ _ t _ => t == 0
  | .mand _ _ _ _ _ => true
  | .mor _ _ _ _ _ => true
  | .mxor _ _ _ _ _ => true
  | .mnot _ _ _ => true
  | .mfx _ _ _ => true
  | .mtx _ _ _ => true
  | .mbitSet _ _ _ _ => true
  | .mbitClr _ _ _ _ => true
  | .mbitInv _ _ _ _ => true
  | .vexp2 _ _ _ t _ => t.toNat ≤ 2
  | .vlog2 _ _ _ t _ => t.toNat ≤ 2
  | .vrcp _ _ _ t _ => t.toNat ≤ 2
  | .vrsq _ _ _ t _ => t.toNat ≤ 2
  | .vsqrt _ _ _ t _ => t.toNat ≤ 2
  | .vsincos d _ _ t _ => t.toNat ≤ 2 && d.toNat % 2 == 0
  | .vtanh _ _ _ t _ => t.toNat ≤ 2
  | .mac _ s o e _ => o.toNat ≤ 1 && (!e || 16 ≤ s.toNat)
  | .mwld _ _ _ => true
  | .mswp _ => true
  | .mdrn _ _ _ _ _ _ => true
  | .mfmt a w _ => mfmtPair a.toNat w.toNat
  | .mchk _ => true
  | .mloc _ => true
  | .mfix _ => true
  | .mmpb _ _ _ => true
  | .mclr r c _ => r.toNat + c.toNat + 1 ≤ 256
  | .vld _ _ _ => true
  | .vst _ _ _ _ => true
  | .vlda _ _ _ _ _ _ => true
  | .vsta _ _ _ _ _ _ _ => true
  | .lds _ _ _ _ z g _ _ => !(g && z == 3)
  | .sts _ _ _ _ _ _ _ _ => true
  | .acst _ _ _ _ _ => true
  | .acld _ _ _ _ _ => true
  | .stcfg _ _ _ _ _ => true
  | .stget _ _ l _ => l != 7
  | .stset v _ _ l _ => l != 7 && (l != 6 || v == 0)
  | .stadv _ l _ => levelOk l
  | .rpop _ _ => true
  | .xrd _ _ _ _ _ => true
  | .cpy _ _ _ _ => true
  | .sca _ _ _ _ => true
  | .tsend t _ _ _ _ _ _ => t == 1 || t == 6
  | .tktg _ _ _ => true
  | .fld _ _ _ _ => true
  | .fst _ _ _ _ => true
  | .fatm _ _ _ _ => true
  | .frep _ _ _ _ => true
  | .bara _ _ _ _ => true
  | .bari _ _ _ _ _ => true
  | .pfxlk _ _ _ _ => true
  | .pfxin _ _ _ _ => true
  | .pfxref _ _ _ _ => true
  | .pfxapp _ _ _ _ => true
  | .pfxev _ _ _ _ => true
  | .kvmrg _ _ _ _ => true
  | .mark _ => true
  | .jstat _ _ _ _ => true
  | .branchFetchComplete k _ _ => k < 16
  | .fixedResultDelivery k _ => k < 16
  | .longLatencyWriteback k _ _ => k < 16
  | .checkpointCommit k _ => k < 16
  | .withheldStorePerform k _ => k < 16
  | .rerunPairCompare k _ => k < 16
  | .queueEntry k => k < 16
  | .arbiterDecide k => k < 16
  | .candidateStarving k _ => k < 16
  | .preempt k => k < 16
  | .budgetExpiry k => k < 16
  | .handover k => k < 16
  | .gangFiringOpen _ => true
  | .rngAnswer k _ => k < 16
  | .tktgGrant k _ _ _ => k < 16
  | .evpopRecordFill k _ => k < 16
  | .tokenFirstFlit => true
  | .tokenContinuationFlit => true
  | .creditReturn _ => true
  | .headAdvanceNotice _ => true
  | .cfgdoneAction k _ => k < 16
  | .markerAction k _ => k < 16
  | .drainAction k _ => k < 16
  | .sourceHardwareMark k _ => k < 16
  | .jobStart k _ => k < 16
  | .jobComplete k _ => k < 16
  | .mwldBeatLand k => k < 16
  | .caliperCompare k _ => k < 16
  | .pageWalk k _ => k < 16
  | .writeRequest => true
  | .readRequest => true
  | .readReply => true
  | .atomicRequest => true
  | .atomicReply => true
  | .acknowledgement => true
  | .refusal => true
  | .prefixRequest => true
  | .prefixReply => true
  | .frameTransmit l => l < 128
  | .linkFrameReceive l _ => l < 128
  | .linkRetryTimeout l => l < 128
  | .lossOfSignal l => l < 128
  | .escapeTimeout _ => true
  | .e2eResendTimeout _ _ _ => true
  | .heldSlotRelease l _ => l < 128
  | .slotTableSwitch => true
  | .linkTraining _ => true
  | .powerOn _ => true
  | .marginPlan k => k < 16
  | .powerLimit _ => true
  | .clockRestore _ => true
  | .thermalLimit _ => true
  | .thermalShutdown => true
  | .plinthFrameReceive _ => true
  | .plinthRetransmitTimeout _ => true
  | .plinthAckTimer _ => true
  | .config => true
  | .handle => true
  | .launchPrepare => true
  | .prepareReport => true
  | .launchApply => true
  | .launchAbort => true
  | .readyReport => true
  | .vread => true
  | .vwrite => true
  | .inject => true
  | .pagedata => true
  | .result => true
  | .bootBegin => true
  | .bootManifest => true
  | .bootData => true
  | .bootCfg => true
  | .bootEnd => true
  | .bootStatusReport => true
  | .mgmtCreatePartition => true
  | .mgmtDestroyPartition => true
  | .mgmtOpenChannel => true
  | .mgmtCloseChannel => true
  | .mgmtRestartCurator => true
  | .mgmtRetireCore => true
  | .mgmtInstallStorageKey => true
  | .mgmtAbortSegment => true
  | .mgmtRollBackRegion => true
  | .mgmtReplacePackage => true
  | .mgmtWriteRouting => true
  | .mgmtReadTelemetry => true
  | .mgmtAbandonRegion => true
  | .spdmVersion => true
  | .spdmCapabilities => true
  | .spdmAlgorithms => true
  | .spdmDigests => true
  | .spdmCertificate => true
  | .spdmChallenge => true
  | .spdmMeasurements => true
  | .spdmKeyExchange => true
  | .spdmFinish => true
  | .spdmKeyUpdate => true
  | .spdmEndSession => true
  | .hangPoll _ _ _ => true
  | .stopWavePackage => true
  | .stopReport => true
  | .drainPoll _ _ _ => true
  | .regionError => true
  | .regionRollback => true
  | .markerWaveStart _ _ => true
  | .sinkWaveReport => true
  | .waveCompletionBroadcast => true
  | .linkDownReport => true
  | .illegal _ _ => true
  | .softError _ => true
  | .mmpbLoadDone k _ => k < 16
  | .arrayInterlockExpiry k _ _ => k < 16
  | .arp _ => true
  | .neighbourDiscovery _ => true
  | .boundaryScan _ _ => true
  | .powerLoss => true

end Sys2Proof
end

