-- ==== Sys2Proof/Decode.lean ====
section
/-!
DEFINITION. Decoding and encoding of slot words (05 R117 to R137). A word is decoded in its slot, by its major and
then by the fixed fields of the table; a word that no row covers, or whose fields hold a reserved value, is refused
by name. Six rows share their words with another row and differ by what an operand register holds: the decoder gives
the first of each, and both meanings read the operand.
-/
namespace Sys2Proof

open Sys2Proof.Machine (bitsOf bitOf tabGet tabSet)

/-- Why a slot word is not an instruction (R84). -/
inductive DecodeError where
  /-- Major 0x00 with another bit set. -/
  | majorZero
  /-- A major not assigned in this slot, 0x3F among them. -/
  | unassigned (major : Nat)
  /-- An assigned major with a nonzero reserved field, or an operation code that its major does not list. -/
  | reservedField (major : Nat)
  /-- A reserved value in a field. -/
  | reservedValue (major : Nat)
  deriving DecidableEq, Repr

/-- What a slot holds (R83): control, scalar, vector A, vector B, matrix, load/store, engine. -/
inductive SlotKind where
  | c
  | s
  | va
  | vb
  | mx
  | ls
  | en
  deriving DecidableEq, Repr

/-- The kind of slots 0 to 7 (R83). -/
def slotKind (n : Nat) : SlotKind :=
  match n with
  | 0 => .c | 1 => .s | 2 => .s | 3 => .va | 4 => .vb | 5 => .mx | 6 => .ls | _ => .en

/-- Field `[lo + n - 1 : lo]` of a slot word. -/
def fld (w lo n : Nat) : BitVec n := BitVec.ofNat n (w / 2 ^ lo)

/-- Control slot, major 0x01. -/
def decC01 (w : Nat) : Option Instr :=
  some (.pbr (fld w 24 2) (fld w 0 24))

/-- Control slot, major 0x02. -/
def decC02 (w : Nat) : Option Instr :=
  if bitsOf w 6 9 = 0 ∧ bitsOf w 21 5 = 0 then some (.pbrx (fld w 16 5) (bitOf w 15) (fld w 4 2) (bitOf w 3) (fld w 0 3))
  else none

/-- Control slot, major 0x03. -/
def decC03 (w : Nat) : Option Instr :=
  if bitsOf w 6 20 = 0 then some (.br (fld w 4 2) (bitOf w 3) (fld w 0 3))
  else none

/-- Control slot, major 0x04. -/
def decC04 (w : Nat) : Option Instr :=
  if bitsOf w 6 15 = 0 then some (.call (fld w 21 5) (fld w 4 2) (bitOf w 3) (fld w 0 3))
  else none

/-- Control slot, major 0x05. -/
def decC05 (w : Nat) : Option Instr :=
  if bitsOf w 14 1 = 0 then some (.loopImm (fld w 23 3) (fld w 15 8) (fld w 0 14))
  else if bitsOf w 0 8 = 0 ∧ bitsOf w 14 1 = 1 then some (.loopReg (fld w 23 3) (fld w 15 8) (fld w 9 5) (bitOf w 8))
  else if bitsOf w 0 15 = 16512 then some (.loopKeep (fld w 23 3) (fld w 15 8))
  else none

/-- Control slot, major 0x06. -/
def decC06 (w : Nat) : Option Instr :=
  if bitsOf w 0 11 = 0 then some (.loopsl (fld w 23 3) (fld w 15 8) (fld w 11 4))
  else none

/-- Control slot, major 0x07. -/
def decC07 (w : Nat) : Option Instr :=
  if bitsOf w 7 19 = 0 then some (.lbrk (fld w 4 3) (bitOf w 3) (fld w 0 3))
  else none

/-- Control slot, major 0x08. -/
def decC08 (w : Nat) : Option Instr :=
  if bitsOf w 4 5 = 0 then some (.waitb (fld w 21 5) (fld w 16 5) (bitOf w 15) (fld w 10 5) (bitOf w 9) (bitOf w 3) (fld w 0 3))
  else none

/-- Control slot, major 0x09. -/
def decC09 (w : Nat) : Option Instr :=
  if bitsOf w 7 8 = 0 ∧ bitsOf w 21 5 = 0 then some (.waitt (fld w 16 5) (bitOf w 15) (fld w 4 3) (bitOf w 3) (fld w 0 3))
  else none

/-- Control slot, major 0x0A. -/
def decC0A (w : Nat) : Option Instr :=
  if bitsOf w 4 22 = 0 then some (.done (bitOf w 3) (fld w 0 3))
  else none

/-- Control slot, major 0x0B. -/
def decC0B (w : Nat) : Option Instr :=
  if bitsOf w 4 22 = 0 then some (.ckpt (bitOf w 3) (fld w 0 3))
  else none

/-- Control slot, major 0x0C. -/
def decC0C (w : Nat) : Option Instr :=
  if bitsOf w 4 2 = 0 then some (.fence (fld w 24 2) (fld w 22 2) (fld w 6 16) (bitOf w 3) (fld w 0 3))
  else none

/-- Control slot, major 0x0D. -/
def decC0D (w : Nat) : Option Instr :=
  if bitsOf w 4 6 = 0 then some (.trap (fld w 10 16) (bitOf w 3) (fld w 0 3))
  else none

/-- Control slot, major 0x10. -/
def decC10 (w : Nat) : Option Instr :=
  if bitsOf w 4 6 = 0 then some (.brk (fld w 10 16) (bitOf w 3) (fld w 0 3))
  else none

/-- Control slot, major 0x0E. -/
def decC0E (w : Nat) : Option Instr :=
  if bitsOf w 4 17 = 0 then some (.getid (fld w 21 5) (bitOf w 3) (fld w 0 3))
  else none

/-- Control slot, major 0x0F. -/
def decC0F (w : Nat) : Option Instr :=
  if bitsOf w 4 6 = 0 ∧ bitsOf w 15 6 = 0 then some (.evpop (fld w 21 5) (fld w 10 5) (bitOf w 3) (fld w 0 3))
  else none

/-- Control slot, major 0x11. -/
def decC11 (w : Nat) : Option Instr :=
  if bitsOf w 9 12 = 0 then some (.rdct (fld w 21 5) (fld w 4 5) (bitOf w 3) (fld w 0 3))
  else none

/-- Control slot, major 0x12. -/
def decC12 (w : Nat) : Option Instr :=
  if bitsOf w 7 14 = 0 then some (.rng (fld w 21 5) (fld w 4 3) (bitOf w 3) (fld w 0 3))
  else none

/-- Control slot, major 0x30. -/
def decC30 (w : Nat) : Option Instr :=
  if bitsOf w 15 6 = 0 then some (.mfc (fld w 21 5) (fld w 4 11) (bitOf w 3) (fld w 0 3))
  else none

/-- Control slot, major 0x31. -/
def decC31 (w : Nat) : Option Instr :=
  if bitsOf w 4 11 = 3 ∧ bitsOf w 21 5 = 0 then some (.mtcKcpc (fld w 16 5) (bitOf w 15) (bitOf w 3) (fld w 0 3))
  else if bitsOf w 21 5 = 0 then some (.mtc (fld w 16 5) (bitOf w 15) (fld w 4 11) (bitOf w 3) (fld w 0 3))
  else none

/-- Control slot, major 0x32. -/
def decC32 (w : Nat) : Option Instr :=
  if bitsOf w 4 22 = 0 then some (.tret (bitOf w 3) (fld w 0 3))
  else none

/-- Control slot, major 0x33. -/
def decC33 (w : Nat) : Option Instr :=
  if bitsOf w 4 11 = 0 ∧ bitsOf w 21 5 = 0 then some (.halt (fld w 16 5) (bitOf w 15) (bitOf w 3) (fld w 0 3))
  else none

/-- Control slot, major 0x34. -/
def decC34 (w : Nat) : Option Instr :=
  if bitsOf w 4 11 = 0 ∧ bitsOf w 21 5 = 0 then some (.pstop (fld w 16 5) (bitOf w 15) (bitOf w 3) (fld w 0 3))
  else none

/-- Control slot, major 0x35. -/
def decC35 (w : Nat) : Option Instr :=
  if bitsOf w 4 11 = 0 ∧ bitsOf w 21 5 = 0 then some (.pdrain (fld w 16 5) (bitOf w 15) (bitOf w 3) (fld w 0 3))
  else none

/-- Control slot, major 0x36. -/
def decC36 (w : Nat) : Option Instr :=
  if bitsOf w 4 5 = 0 ∧ bitsOf w 21 5 = 0 then some (.csave (fld w 16 5) (bitOf w 15) (fld w 10 5) (bitOf w 9) (bitOf w 3) (fld w 0 3))
  else none

/-- Control slot, major 0x37. -/
def decC37 (w : Nat) : Option Instr :=
  if bitsOf w 4 5 = 0 ∧ bitsOf w 21 5 = 0 then some (.cload (fld w 16 5) (bitOf w 15) (fld w 10 5) (bitOf w 9) (bitOf w 3) (fld w 0 3))
  else none

/-- Control slot, major 0x38. -/
def decC38 (w : Nat) : Option Instr :=
  if bitsOf w 4 5 = 0 ∧ bitsOf w 21 5 = 0 then some (.tlbiAsid (fld w 16 5) (bitOf w 15) (fld w 10 5) (bitOf w 9) (bitOf w 3) (fld w 0 3))
  else none

/-- Control slot, major 0x39. -/
def decC39 (w : Nat) : Option Instr :=
  if bitsOf w 4 5 = 0 ∧ bitsOf w 21 5 = 0 then some (.sltw (fld w 16 5) (bitOf w 15) (fld w 10 5) (bitOf w 9) (bitOf w 3) (fld w 0 3))
  else none

/-- Control slot, major 0x3A. -/
def decC3A (w : Nat) : Option Instr :=
  if bitsOf w 4 5 = 0 ∧ bitsOf w 21 5 = 0 then some (.lkey (fld w 16 5) (bitOf w 15) (fld w 10 5) (bitOf w 9) (bitOf w 3) (fld w 0 3))
  else none

/-- Control slot, major 0x3B. -/
def decC3B (w : Nat) : Option Instr :=
  if bitsOf w 4 11 = 0 ∧ bitsOf w 21 5 = 0 then some (.lksw (fld w 16 5) (bitOf w 15) (bitOf w 3) (fld w 0 3))
  else none

/-- Control slot, major 0x3C. -/
def decC3C (w : Nat) : Option Instr :=
  if bitsOf w 4 11 = 0 ∧ bitsOf w 21 5 = 0 then some (.retc (fld w 16 5) (bitOf w 15) (bitOf w 3) (fld w 0 3))
  else none

/-- Control slot, major 0x3D. -/
def decC3D (w : Nat) : Option Instr :=
  if bitsOf w 4 11 = 0 ∧ bitsOf w 21 5 = 0 then some (.jrsm (fld w 16 5) (bitOf w 15) (bitOf w 3) (fld w 0 3))
  else none

/-- Control slot, major 0x3E. -/
def decC3E (w : Nat) : Option Instr :=
  if bitsOf w 4 11 = 0 ∧ bitsOf w 21 5 = 0 then some (.jkil (fld w 16 5) (bitOf w 15) (bitOf w 3) (fld w 0 3))
  else none

/-- Scalar slot, major 0x01. -/
def decS01 (w : Nat) : Option Instr :=
  if bitsOf w 3 6 = 0 then some (.add (fld w 21 5) (fld w 16 5) (bitOf w 15) (fld w 10 5) (bitOf w 9) (fld w 0 3))
  else if bitsOf w 3 6 = 1 then some (.sub (fld w 21 5) (fld w 16 5) (bitOf w 15) (fld w 10 5) (bitOf w 9) (fld w 0 3))
  else if bitsOf w 3 6 = 2 then some (.and (fld w 21 5) (fld w 16 5) (bitOf w 15) (fld w 10 5) (bitOf w 9) (fld w 0 3))
  else if bitsOf w 3 6 = 3 then some (.or (fld w 21 5) (fld w 16 5) (bitOf w 15) (fld w 10 5) (bitOf w 9) (fld w 0 3))
  else if bitsOf w 3 6 = 4 then some (.xor (fld w 21 5) (fld w 16 5) (bitOf w 15) (fld w 10 5) (bitOf w 9) (fld w 0 3))
  else if bitsOf w 3 6 = 5 then some (.andn (fld w 21 5) (fld w 16 5) (bitOf w 15) (fld w 10 5) (bitOf w 9) (fld w 0 3))
  else if bitsOf w 3 6 = 6 then some (.sll (fld w 21 5) (fld w 16 5) (bitOf w 15) (fld w 10 5) (bitOf w 9) (fld w 0 3))
  else if bitsOf w 3 6 = 7 then some (.srl (fld w 21 5) (fld w 16 5) (bitOf w 15) (fld w 10 5) (bitOf w 9) (fld w 0 3))
  else if bitsOf w 3 6 = 8 then some (.sra (fld w 21 5) (fld w 16 5) (bitOf w 15) (fld w 10 5) (bitOf w 9) (fld w 0 3))
  else if bitsOf w 3 6 = 9 then some (.rol (fld w 21 5) (fld w 16 5) (bitOf w 15) (fld w 10 5) (bitOf w 9) (fld w 0 3))
  else if bitsOf w 3 6 = 10 then some (.min (fld w 21 5) (fld w 16 5) (bitOf w 15) (fld w 10 5) (bitOf w 9) (fld w 0 3))
  else if bitsOf w 3 6 = 11 then some (.max (fld w 21 5) (fld w 16 5) (bitOf w 15) (fld w 10 5) (bitOf w 9) (fld w 0 3))
  else if bitsOf w 3 6 = 12 then some (.minu (fld w 21 5) (fld w 16 5) (bitOf w 15) (fld w 10 5) (bitOf w 9) (fld w 0 3))
  else if bitsOf w 3 6 = 13 then some (.maxu (fld w 21 5) (fld w 16 5) (bitOf w 15) (fld w 10 5) (bitOf w 9) (fld w 0 3))
  else none

/-- Scalar slot, major 0x02. -/
def decS02 (w : Nat) : Option Instr :=
  if bitsOf w 3 6 = 0 then some (.mul (fld w 21 5) (fld w 16 5) (bitOf w 15) (fld w 10 5) (bitOf w 9) (fld w 0 3))
  else if bitsOf w 3 6 = 1 then some (.mulh (fld w 21 5) (fld w 16 5) (bitOf w 15) (fld w 10 5) (bitOf w 9) (fld w 0 3))
  else if bitsOf w 3 6 = 2 then some (.mulhu (fld w 21 5) (fld w 16 5) (bitOf w 15) (fld w 10 5) (bitOf w 9) (fld w 0 3))
  else if bitsOf w 3 6 = 3 then some (.div (fld w 21 5) (fld w 16 5) (bitOf w 15) (fld w 10 5) (bitOf w 9) (fld w 0 3))
  else if bitsOf w 3 6 = 4 then some (.divu (fld w 21 5) (fld w 16 5) (bitOf w 15) (fld w 10 5) (bitOf w 9) (fld w 0 3))
  else if bitsOf w 3 6 = 5 then some (.rem (fld w 21 5) (fld w 16 5) (bitOf w 15) (fld w 10 5) (bitOf w 9) (fld w 0 3))
  else if bitsOf w 3 6 = 6 then some (.remu (fld w 21 5) (fld w 16 5) (bitOf w 15) (fld w 10 5) (bitOf w 9) (fld w 0 3))
  else none

/-- Scalar slot, major 0x03. -/
def decS03 (w : Nat) : Option Instr :=
  if bitsOf w 3 12 = 0 then some (.clz (fld w 21 5) (fld w 16 5) (bitOf w 15) (fld w 0 3))
  else if bitsOf w 3 12 = 1 then some (.ctz (fld w 21 5) (fld w 16 5) (bitOf w 15) (fld w 0 3))
  else if bitsOf w 3 12 = 2 then some (.popc (fld w 21 5) (fld w 16 5) (bitOf w 15) (fld w 0 3))
  else if bitsOf w 3 12 = 3 then some (.brev (fld w 21 5) (fld w 16 5) (bitOf w 15) (fld w 0 3))
  else if bitsOf w 3 12 = 4 then some (.extb (fld w 21 5) (fld w 16 5) (bitOf w 15) (fld w 0 3))
  else if bitsOf w 3 12 = 5 then some (.exth (fld w 21 5) (fld w 16 5) (bitOf w 15) (fld w 0 3))
  else if bitsOf w 3 12 = 6 then some (.extw (fld w 21 5) (fld w 16 5) (bitOf w 15) (fld w 0 3))
  else if bitsOf w 3 12 = 7 then some (.exbu (fld w 21 5) (fld w 16 5) (bitOf w 15) (fld w 0 3))
  else if bitsOf w 3 12 = 8 then some (.exhu (fld w 21 5) (fld w 16 5) (bitOf w 15) (fld w 0 3))
  else if bitsOf w 3 12 = 9 then some (.exwu (fld w 21 5) (fld w 16 5) (bitOf w 15) (fld w 0 3))
  else none

/-- Scalar slot, major 0x04. -/
def decS04 (w : Nat) : Option Instr :=
  some (.addi (fld w 21 5) (fld w 16 5) (bitOf w 15) (fld w 3 12) (fld w 0 3))

/-- Scalar slot, major 0x05. -/
def decS05 (w : Nat) : Option Instr :=
  some (.andi (fld w 21 5) (fld w 16 5) (bitOf w 15) (fld w 3 12) (fld w 0 3))

/-- Scalar slot, major 0x06. -/
def decS06 (w : Nat) : Option Instr :=
  some (.ori (fld w 21 5) (fld w 16 5) (bitOf w 15) (fld w 3 12) (fld w 0 3))

/-- Scalar slot, major 0x07. -/
def decS07 (w : Nat) : Option Instr :=
  some (.xori (fld w 21 5) (fld w 16 5) (bitOf w 15) (fld w 3 12) (fld w 0 3))

/-- Scalar slot, major 0x08. -/
def decS08 (w : Nat) : Option Instr :=
  if bitsOf w 9 6 = 0 then some (.slli (fld w 21 5) (fld w 16 5) (bitOf w 15) (fld w 3 6) (fld w 0 3))
  else none

/-- Scalar slot, major 0x09. -/
def decS09 (w : Nat) : Option Instr :=
  if bitsOf w 9 6 = 0 then some (.srli (fld w 21 5) (fld w 16 5) (bitOf w 15) (fld w 3 6) (fld w 0 3))
  else none

/-- Scalar slot, major 0x0A. -/
def decS0A (w : Nat) : Option Instr :=
  if bitsOf w 9 6 = 0 then some (.srai (fld w 21 5) (fld w 16 5) (bitOf w 15) (fld w 3 6) (fld w 0 3))
  else none

/-- Scalar slot, major 0x0B. -/
def decS0B (w : Nat) : Option Instr :=
  some (.muli (fld w 21 5) (fld w 16 5) (bitOf w 15) (fld w 3 12) (fld w 0 3))

/-- Scalar slot, major 0x0C. -/
def decS0C (w : Nat) : Option Instr :=
  some (.lim (fld w 21 5) (fld w 19 2) (fld w 3 16) (fld w 0 3))

/-- Scalar slot, major 0x0D. -/
def decS0D (w : Nat) : Option Instr :=
  some (.lik (fld w 21 5) (fld w 19 2) (fld w 3 16) (fld w 0 3))

/-- Scalar slot, major 0x0E. -/
def decS0E (w : Nat) : Option Instr :=
  if bitsOf w 3 4 = 0 then some (.cmp (fld w 23 3) (fld w 19 4) (fld w 14 5) (bitOf w 13) (fld w 8 5) (bitOf w 7) (fld w 0 3))
  else none

/-- Scalar slot, major 0x0F. -/
def decS0F (w : Nat) : Option Instr :=
  some (.cmpi (fld w 23 3) (fld w 19 4) (fld w 14 5) (bitOf w 13) (fld w 3 10) (fld w 0 3))

/-- Scalar slot, major 0x10. -/
def decS10 (w : Nat) : Option Instr :=
  if bitsOf w 6 3 = 0 then some (.sel (fld w 21 5) (fld w 16 5) (bitOf w 15) (fld w 10 5) (bitOf w 9) (fld w 3 3) (fld w 0 3))
  else none

/-- Scalar slot, major 0x11. -/
def decS11 (w : Nat) : Option Instr :=
  if bitsOf w 3 6 = 0 ∧ bitsOf w 13 2 = 0 ∧ bitsOf w 19 2 = 0 ∧ bitsOf w 24 2 = 0 then some (.pand (fld w 21 3) (fld w 16 3) (bitOf w 15) (fld w 10 3) (bitOf w 9) (fld w 0 3))
  else if bitsOf w 3 6 = 1 ∧ bitsOf w 13 2 = 0 ∧ bitsOf w 19 2 = 0 ∧ bitsOf w 24 2 = 0 then some (.por (fld w 21 3) (fld w 16 3) (bitOf w 15) (fld w 10 3) (bitOf w 9) (fld w 0 3))
  else if bitsOf w 3 6 = 2 ∧ bitsOf w 13 2 = 0 ∧ bitsOf w 19 2 = 0 ∧ bitsOf w 24 2 = 0 then some (.pxor (fld w 21 3) (fld w 16 3) (bitOf w 15) (fld w 10 3) (bitOf w 9) (fld w 0 3))
  else if bitsOf w 3 12 = 3 ∧ bitsOf w 19 2 = 0 ∧ bitsOf w 24 2 = 0 then some (.pnot (fld w 21 3) (fld w 16 3) (bitOf w 15) (fld w 0 3))
  else none

/-- Scalar slot, major 0x12. -/
def decS12 (w : Nat) : Option Instr :=
  if bitsOf w 6 3 = 0 then some (.dadd (fld w 21 5) (fld w 16 5) (bitOf w 15) (fld w 10 5) (bitOf w 9) (fld w 3 3) (fld w 0 3))
  else if bitsOf w 6 3 = 1 then some (.dsub (fld w 21 5) (fld w 16 5) (bitOf w 15) (fld w 10 5) (bitOf w 9) (fld w 3 3) (fld w 0 3))
  else if bitsOf w 6 3 = 2 then some (.dmul (fld w 21 5) (fld w 16 5) (bitOf w 15) (fld w 10 5) (bitOf w 9) (fld w 3 3) (fld w 0 3))
  else if bitsOf w 6 3 = 3 then some (.ddiv (fld w 21 5) (fld w 16 5) (bitOf w 15) (fld w 10 5) (bitOf w 9) (fld w 3 3) (fld w 0 3))
  else if bitsOf w 6 9 = 4 then some (.dsqrt (fld w 21 5) (fld w 16 5) (bitOf w 15) (fld w 3 3) (fld w 0 3))
  else if bitsOf w 3 6 = 40 then some (.dmin (fld w 21 5) (fld w 16 5) (bitOf w 15) (fld w 10 5) (bitOf w 9) (fld w 0 3))
  else if bitsOf w 3 6 = 41 then some (.dmax (fld w 21 5) (fld w 16 5) (bitOf w 15) (fld w 10 5) (bitOf w 9) (fld w 0 3))
  else if bitsOf w 3 12 = 42 then some (.dabs (fld w 21 5) (fld w 16 5) (bitOf w 15) (fld w 0 3))
  else if bitsOf w 3 12 = 43 then some (.dneg (fld w 21 5) (fld w 16 5) (bitOf w 15) (fld w 0 3))
  else none

/-- Scalar slot, major 0x13. -/
def decS13 (w : Nat) : Option Instr :=
  if bitsOf w 6 3 = 0 then some (.dfma (fld w 21 5) (fld w 16 5) (bitOf w 15) (fld w 10 5) (bitOf w 9) (fld w 3 3) (fld w 0 3))
  else if bitsOf w 6 3 = 1 then some (.dfms (fld w 21 5) (fld w 16 5) (bitOf w 15) (fld w 10 5) (bitOf w 9) (fld w 3 3) (fld w 0 3))
  else if bitsOf w 6 3 = 2 then some (.dnfma (fld w 21 5) (fld w 16 5) (bitOf w 15) (fld w 10 5) (bitOf w 9) (fld w 3 3) (fld w 0 3))
  else if bitsOf w 6 3 = 3 then some (.dnfms (fld w 21 5) (fld w 16 5) (bitOf w 15) (fld w 10 5) (bitOf w 9) (fld w 3 3) (fld w 0 3))
  else none

/-- Scalar slot, major 0x14. -/
def decS14 (w : Nat) : Option Instr :=
  if bitsOf w 6 3 = 0 then some (.fadd (fld w 21 5) (fld w 16 5) (bitOf w 15) (fld w 10 5) (bitOf w 9) (fld w 3 3) (fld w 0 3))
  else if bitsOf w 6 3 = 1 then some (.fsub (fld w 21 5) (fld w 16 5) (bitOf w 15) (fld w 10 5) (bitOf w 9) (fld w 3 3) (fld w 0 3))
  else if bitsOf w 6 3 = 2 then some (.fmul (fld w 21 5) (fld w 16 5) (bitOf w 15) (fld w 10 5) (bitOf w 9) (fld w 3 3) (fld w 0 3))
  else if bitsOf w 6 3 = 3 then some (.fdiv (fld w 21 5) (fld w 16 5) (bitOf w 15) (fld w 10 5) (bitOf w 9) (fld w 3 3) (fld w 0 3))
  else if bitsOf w 6 9 = 4 then some (.fsqrt (fld w 21 5) (fld w 16 5) (bitOf w 15) (fld w 3 3) (fld w 0 3))
  else if bitsOf w 3 6 = 40 then some (.fmin (fld w 21 5) (fld w 16 5) (bitOf w 15) (fld w 10 5) (bitOf w 9) (fld w 0 3))
  else if bitsOf w 3 6 = 48 then some (.fmax (fld w 21 5) (fld w 16 5) (bitOf w 15) (fld w 10 5) (bitOf w 9) (fld w 0 3))
  else if bitsOf w 6 3 = 7 then some (.ffma (fld w 21 5) (fld w 16 5) (bitOf w 15) (fld w 10 5) (bitOf w 9) (fld w 3 3) (fld w 0 3))
  else none

/-- Scalar slot, major 0x15. -/
def decS15 (w : Nat) : Option Instr :=
  if bitsOf w 6 9 = 0 then some (.i2d (fld w 21 5) (fld w 16 5) (bitOf w 15) (fld w 3 3) (fld w 0 3))
  else if bitsOf w 6 9 = 1 then some (.u2d (fld w 21 5) (fld w 16 5) (bitOf w 15) (fld w 3 3) (fld w 0 3))
  else if bitsOf w 6 9 = 2 then some (.d2i (fld w 21 5) (fld w 16 5) (bitOf w 15) (fld w 3 3) (fld w 0 3))
  else if bitsOf w 6 9 = 3 then some (.d2u (fld w 21 5) (fld w 16 5) (bitOf w 15) (fld w 3 3) (fld w 0 3))
  else if bitsOf w 6 9 = 4 then some (.f2d (fld w 21 5) (fld w 16 5) (bitOf w 15) (fld w 3 3) (fld w 0 3))
  else if bitsOf w 6 9 = 5 then some (.d2f (fld w 21 5) (fld w 16 5) (bitOf w 15) (fld w 3 3) (fld w 0 3))
  else if bitsOf w 6 9 = 6 then some (.i2f (fld w 21 5) (fld w 16 5) (bitOf w 15) (fld w 3 3) (fld w 0 3))
  else if bitsOf w 6 9 = 7 then some (.f2i (fld w 21 5) (fld w 16 5) (bitOf w 15) (fld w 3 3) (fld w 0 3))
  else none

/-- Scalar slot, major 0x16. -/
def decS16 (w : Nat) : Option Instr :=
  if bitsOf w 15 6 = 0 then some (.mfs (fld w 21 5) (fld w 3 12) (fld w 0 3))
  else none

/-- Scalar slot, major 0x17. -/
def decS17 (w : Nat) : Option Instr :=
  if bitsOf w 21 5 = 0 then some (.mts (fld w 16 5) (bitOf w 15) (fld w 3 12) (fld w 0 3))
  else none

/-- Vector slot, major 0x01. -/
def decV01 (w : Nat) : Option Instr :=
  some (.vadd (fld w 21 5) (fld w 16 5) (bitOf w 15) (fld w 10 5) (bitOf w 9) (fld w 6 3) (fld w 2 4) (fld w 0 2))

/-- Vector slot, major 0x02. -/
def decV02 (w : Nat) : Option Instr :=
  some (.vsub (fld w 21 5) (fld w 16 5) (bitOf w 15) (fld w 10 5) (bitOf w 9) (fld w 6 3) (fld w 2 4) (fld w 0 2))

/-- Vector slot, major 0x03. -/
def decV03 (w : Nat) : Option Instr :=
  some (.vmul (fld w 21 5) (fld w 16 5) (bitOf w 15) (fld w 10 5) (bitOf w 9) (fld w 6 3) (fld w 2 4) (fld w 0 2))

/-- Vector slot, major 0x04. -/
def decV04 (w : Nat) : Option Instr :=
  some (.vfma (fld w 21 5) (fld w 16 5) (bitOf w 15) (fld w 10 5) (bitOf w 9) (fld w 6 3) (fld w 2 4) (fld w 0 2))

/-- Vector slot, major 0x05. -/
def decV05 (w : Nat) : Option Instr :=
  some (.vfms (fld w 21 5) (fld w 16 5) (bitOf w 15) (fld w 10 5) (bitOf w 9) (fld w 6 3) (fld w 2 4) (fld w 0 2))

/-- Vector slot, major 0x06. -/
def decV06 (w : Nat) : Option Instr :=
  some (.vmin (fld w 21 5) (fld w 16 5) (bitOf w 15) (fld w 10 5) (bitOf w 9) (fld w 6 3) (fld w 2 4) (fld w 0 2))

/-- Vector slot, major 0x07. -/
def decV07 (w : Nat) : Option Instr :=
  some (.vmax (fld w 21 5) (fld w 16 5) (bitOf w 15) (fld w 10 5) (bitOf w 9) (fld w 6 3) (fld w 2 4) (fld w 0 2))

/-- Vector slot, major 0x08. -/
def decV08 (w : Nat) : Option Instr :=
  some (.vmaxm (fld w 21 5) (fld w 16 5) (bitOf w 15) (fld w 10 5) (bitOf w 9) (fld w 6 3) (fld w 2 4) (fld w 0 2))

/-- Vector slot, major 0x09. -/
def decV09 (w : Nat) : Option Instr :=
  if bitsOf w 0 2 = 0 ∧ bitsOf w 9 6 = 0 then some (.vabs (fld w 21 5) (fld w 16 5) (bitOf w 15) (fld w 6 3) (fld w 2 4))
  else none

/-- Vector slot, major 0x0A. -/
def decV0A (w : Nat) : Option Instr :=
  if bitsOf w 0 2 = 0 ∧ bitsOf w 9 6 = 0 then some (.vneg (fld w 21 5) (fld w 16 5) (bitOf w 15) (fld w 6 3) (fld w 2 4))
  else none

/-- Vector slot, major 0x0B. -/
def decV0B (w : Nat) : Option Instr :=
  some (.vcmpeq (fld w 21 5) (fld w 16 5) (bitOf w 15) (fld w 10 5) (bitOf w 9) (fld w 6 3) (fld w 2 4) (fld w 0 2))

/-- Vector slot, major 0x0C. -/
def decV0C (w : Nat) : Option Instr :=
  some (.vcmplt (fld w 21 5) (fld w 16 5) (bitOf w 15) (fld w 10 5) (bitOf w 9) (fld w 6 3) (fld w 2 4) (fld w 0 2))

/-- Vector slot, major 0x0D. -/
def decV0D (w : Nat) : Option Instr :=
  some (.vcmple (fld w 21 5) (fld w 16 5) (bitOf w 15) (fld w 10 5) (bitOf w 9) (fld w 6 3) (fld w 2 4) (fld w 0 2))

/-- Vector slot, major 0x0E. -/
def decV0E (w : Nat) : Option Instr :=
  some (.vcmpun (fld w 21 5) (fld w 16 5) (bitOf w 15) (fld w 10 5) (bitOf w 9) (fld w 6 3) (fld w 2 4) (fld w 0 2))

/-- Vector slot, major 0x0F. -/
def decV0F (w : Nat) : Option Instr :=
  if bitsOf w 0 15 = 0 ∧ bitsOf w 25 1 = 0 then some (.vcmpm (fld w 21 4) (fld w 16 5) (bitOf w 15))
  else none

/-- Vector slot, major 0x10. -/
def decV10 (w : Nat) : Option Instr :=
  some (.vand (fld w 21 5) (fld w 16 5) (bitOf w 15) (fld w 10 5) (bitOf w 9) (fld w 6 3) (fld w 2 4) (fld w 0 2))

/-- Vector slot, major 0x11. -/
def decV11 (w : Nat) : Option Instr :=
  some (.vor (fld w 21 5) (fld w 16 5) (bitOf w 15) (fld w 10 5) (bitOf w 9) (fld w 6 3) (fld w 2 4) (fld w 0 2))

/-- Vector slot, major 0x12. -/
def decV12 (w : Nat) : Option Instr :=
  some (.vxor (fld w 21 5) (fld w 16 5) (bitOf w 15) (fld w 10 5) (bitOf w 9) (fld w 6 3) (fld w 2 4) (fld w 0 2))

/-- Vector slot, major 0x13. -/
def decV13 (w : Nat) : Option Instr :=
  some (.vshl (fld w 21 5) (fld w 16 5) (bitOf w 15) (fld w 10 5) (bitOf w 9) (fld w 6 3) (fld w 2 4) (fld w 0 2))

/-- Vector slot, major 0x14. -/
def decV14 (w : Nat) : Option Instr :=
  some (.vshr (fld w 21 5) (fld w 16 5) (bitOf w 15) (fld w 10 5) (bitOf w 9) (fld w 6 3) (fld w 2 4) (fld w 0 2))

/-- Vector slot, major 0x15. -/
def decV15 (w : Nat) : Option Instr :=
  some (.vsra (fld w 21 5) (fld w 16 5) (bitOf w 15) (fld w 10 5) (bitOf w 9) (fld w 6 3) (fld w 2 4) (fld w 0 2))

/-- Vector slot, major 0x18. -/
def decV18 (w : Nat) : Option Instr :=
  some (.vbld (fld w 21 5) (fld w 16 5) (bitOf w 15) (fld w 10 5) (bitOf w 9) (fld w 6 3) (fld w 2 4) (fld w 0 2))

/-- Vector slot, major 0x19. -/
def decV19 (w : Nat) : Option Instr :=
  if bitsOf w 0 2 = 1 ∧ bitsOf w 15 6 = 0 then some (.vbc (fld w 21 5) (fld w 10 5) (bitOf w 9) (fld w 6 3) (fld w 2 4))
  else none

/-- Vector slot, major 0x1A. -/
def decV1A (w : Nat) : Option Instr :=
  if bitsOf w 0 2 = 1 then some (.vins (fld w 21 5) (fld w 16 5) (bitOf w 15) (fld w 10 5) (bitOf w 9) (fld w 6 3) (fld w 2 4))
  else none

/-- Vector slot, major 0x1B. -/
def decV1B (w : Nat) : Option Instr :=
  if bitsOf w 0 6 = 1 then some (.vext (fld w 21 5) (fld w 16 5) (bitOf w 15) (fld w 10 5) (bitOf w 9) (fld w 6 3))
  else none

/-- Vector slot, major 0x1C. -/
def decV1C (w : Nat) : Option Instr :=
  if bitsOf w 0 2 = 0 then some (.vperm (fld w 21 5) (fld w 16 5) (bitOf w 15) (fld w 10 5) (bitOf w 9) (fld w 6 3) (fld w 2 4))
  else none

/-- Vector slot, major 0x1D. -/
def decV1D (w : Nat) : Option Instr :=
  some (.vrot (fld w 21 5) (fld w 16 5) (bitOf w 15) (fld w 10 5) (bitOf w 9) (fld w 6 3) (fld w 2 4) (fld w 0 2))

/-- Vector slot, major 0x1E. -/
def decV1E (w : Nat) : Option Instr :=
  if bitsOf w 0 2 = 0 ∧ bitsOf w 9 1 = 0 then some (.vred (fld w 21 5) (fld w 16 5) (bitOf w 15) (fld w 10 5) (fld w 6 3) (fld w 2 4))
  else none

/-- Vector slot, major 0x1F. -/
def decV1F (w : Nat) : Option Instr :=
  if bitsOf w 0 2 = 0 ∧ bitsOf w 9 1 = 0 then some (.vscan (fld w 21 5) (fld w 16 5) (bitOf w 15) (fld w 10 5) (fld w 6 3) (fld w 2 4))
  else none

/-- Vector slot, major 0x20. -/
def decV20 (w : Nat) : Option Instr :=
  if bitsOf w 0 2 = 0 then some (.vcvt (fld w 21 5) (fld w 16 5) (bitOf w 15) (bitOf w 14) (fld w 10 4) (bitOf w 9) (fld w 6 3) (fld w 2 4))
  else none

/-- Vector slot, major 0x21. -/
def decV21 (w : Nat) : Option Instr :=
  if bitsOf w 0 2 = 1 then some (.vqnt (fld w 21 5) (fld w 16 5) (bitOf w 15) (fld w 10 5) (bitOf w 9) (fld w 6 3) (fld w 2 4))
  else none

/-- Vector slot, major 0x22. -/
def decV22 (w : Nat) : Option Instr :=
  if bitsOf w 0 2 = 1 then some (.vdqnt (fld w 21 5) (fld w 16 5) (bitOf w 15) (fld w 10 5) (bitOf w 9) (fld w 6 3) (fld w 2 4))
  else none

/-- Vector slot, major 0x23. -/
def decV23 (w : Nat) : Option Instr :=
  if bitsOf w 0 2 = 0 ∧ bitsOf w 9 1 = 0 ∧ bitsOf w 14 1 = 0 then some (.vhad (fld w 21 5) (fld w 16 5) (bitOf w 15) (bitOf w 13) (fld w 10 3) (fld w 6 3) (fld w 2 4))
  else none

/-- Vector slot, major 0x24. -/
def decV24 (w : Nat) : Option Instr :=
  if bitsOf w 0 2 = 0 ∧ bitsOf w 9 6 = 0 then some (.vsmrg (fld w 21 5) (fld w 16 5) (bitOf w 15) (fld w 6 3) (fld w 2 4))
  else none

/-- Vector slot, major 0x25. -/
def decV25 (w : Nat) : Option Instr :=
  if bitsOf w 0 2 = 0 then some (.vsmup (fld w 21 5) (fld w 16 5) (bitOf w 15) (fld w 10 5) (bitOf w 9) (fld w 6 3) (fld w 2 4))
  else none

/-- Vector slot, major 0x26. -/
def decV26 (w : Nat) : Option Instr :=
  if bitsOf w 15 1 = 0 ∧ bitsOf w 24 2 = 0 then some (.vchc (fld w 21 3) (fld w 16 5) (fld w 10 5) (bitOf w 9) (fld w 6 3) (fld w 2 4) (fld w 0 2))
  else none

/-- Vector slot, major 0x27. -/
def decV27 (w : Nat) : Option Instr :=
  if bitsOf w 0 2 = 0 ∧ bitsOf w 9 6 = 0 then some (.vch (fld w 21 5) (fld w 16 5) (bitOf w 15) (fld w 6 3) (fld w 2 4))
  else none

/-- Vector slot, major 0x2C. -/
def decV2C (w : Nat) : Option Instr :=
  if bitsOf w 0 9 = 0 ∧ bitsOf w 14 1 = 0 ∧ bitsOf w 20 1 = 0 ∧ bitsOf w 25 1 = 0 then some (.mand (fld w 21 4) (fld w 16 4) (bitOf w 15) (fld w 10 4) (bitOf w 9))
  else none

/-- Vector slot, major 0x2D. -/
def decV2D (w : Nat) : Option Instr :=
  if bitsOf w 0 9 = 0 ∧ bitsOf w 14 1 = 0 ∧ bitsOf w 20 1 = 0 ∧ bitsOf w 25 1 = 0 then some (.mor (fld w 21 4) (fld w 16 4) (bitOf w 15) (fld w 10 4) (bitOf w 9))
  else none

/-- Vector slot, major 0x2E. -/
def decV2E (w : Nat) : Option Instr :=
  if bitsOf w 0 9 = 0 ∧ bitsOf w 14 1 = 0 ∧ bitsOf w 20 1 = 0 ∧ bitsOf w 25 1 = 0 then some (.mxor (fld w 21 4) (fld w 16 4) (bitOf w 15) (fld w 10 4) (bitOf w 9))
  else none

/-- Vector slot, major 0x2F. -/
def decV2F (w : Nat) : Option Instr :=
  if bitsOf w 0 15 = 0 ∧ bitsOf w 20 1 = 0 ∧ bitsOf w 25 1 = 0 then some (.mnot (fld w 21 4) (fld w 16 4) (bitOf w 15))
  else none

/-- Vector slot, major 0x30. -/
def decV30 (w : Nat) : Option Instr :=
  if bitsOf w 0 15 = 0 ∧ bitsOf w 20 1 = 0 then some (.mfx (fld w 21 5) (fld w 16 4) (bitOf w 15))
  else none

/-- Vector slot, major 0x31. -/
def decV31 (w : Nat) : Option Instr :=
  if bitsOf w 0 15 = 0 ∧ bitsOf w 25 1 = 0 then some (.mtx (fld w 21 4) (fld w 16 5) (bitOf w 15))
  else none

/-- Vector slot, major 0x32. -/
def decV32 (w : Nat) : Option Instr :=
  if bitsOf w 0 10 = 0 ∧ bitsOf w 14 1 = 0 ∧ bitsOf w 20 1 = 0 ∧ bitsOf w 25 1 = 0 then some (.mbitSet (fld w 21 4) (fld w 16 4) (bitOf w 15) (fld w 10 4))
  else if bitsOf w 0 10 = 2 ∧ bitsOf w 14 1 = 0 ∧ bitsOf w 20 1 = 0 ∧ bitsOf w 25 1 = 0 then some (.mbitClr (fld w 21 4) (fld w 16 4) (bitOf w 15) (fld w 10 4))
  else if bitsOf w 0 10 = 3 ∧ bitsOf w 14 1 = 0 ∧ bitsOf w 20 1 = 0 ∧ bitsOf w 25 1 = 0 then some (.mbitInv (fld w 21 4) (fld w 16 4) (bitOf w 15) (fld w 10 4))
  else none

/-- Vector slot, major 0x38. -/
def decV38 (w : Nat) : Option Instr :=
  if bitsOf w 0 2 = 0 ∧ bitsOf w 9 6 = 0 then some (.vexp2 (fld w 21 5) (fld w 16 5) (bitOf w 15) (fld w 6 3) (fld w 2 4))
  else none

/-- Vector slot, major 0x39. -/
def decV39 (w : Nat) : Option Instr :=
  if bitsOf w 0 2 = 0 ∧ bitsOf w 9 6 = 0 then some (.vlog2 (fld w 21 5) (fld w 16 5) (bitOf w 15) (fld w 6 3) (fld w 2 4))
  else none

/-- Vector slot, major 0x3A. -/
def decV3A (w : Nat) : Option Instr :=
  if bitsOf w 0 2 = 0 ∧ bitsOf w 9 6 = 0 then some (.vrcp (fld w 21 5) (fld w 16 5) (bitOf w 15) (fld w 6 3) (fld w 2 4))
  else none

/-- Vector slot, major 0x3B. -/
def decV3B (w : Nat) : Option Instr :=
  if bitsOf w 0 2 = 0 ∧ bitsOf w 9 6 = 0 then some (.vrsq (fld w 21 5) (fld w 16 5) (bitOf w 15) (fld w 6 3) (fld w 2 4))
  else none

/-- Vector slot, major 0x3C. -/
def decV3C (w : Nat) : Option Instr :=
  if bitsOf w 0 2 = 0 ∧ bitsOf w 9 6 = 0 then some (.vsqrt (fld w 21 5) (fld w 16 5) (bitOf w 15) (fld w 6 3) (fld w 2 4))
  else none

/-- Vector slot, major 0x3D. -/
def decV3D (w : Nat) : Option Instr :=
  if bitsOf w 0 2 = 0 ∧ bitsOf w 9 6 = 0 then some (.vsincos (fld w 21 5) (fld w 16 5) (bitOf w 15) (fld w 6 3) (fld w 2 4))
  else none

/-- Vector slot, major 0x3E. -/
def decV3E (w : Nat) : Option Instr :=
  if bitsOf w 0 2 = 0 ∧ bitsOf w 9 6 = 0 then some (.vtanh (fld w 21 5) (fld w 16 5) (bitOf w 15) (fld w 6 3) (fld w 2 4))
  else none

/-- Matrix slot, major 0x01. -/
def decM01 (w : Nat) : Option Instr :=
  if bitsOf w 3 7 = 0 then some (.mac (fld w 18 8) (fld w 13 5) (fld w 11 2) (bitOf w 10) (fld w 0 3))
  else none

/-- Matrix slot, major 0x02. -/
def decM02 (w : Nat) : Option Instr :=
  if bitsOf w 3 10 = 0 ∧ bitsOf w 17 1 = 0 ∧ bitsOf w 24 2 = 0 then some (.mwld (fld w 18 6) (fld w 13 4) (fld w 0 3))
  else none

/-- Matrix slot, major 0x03. -/
def decM03 (w : Nat) : Option Instr :=
  if bitsOf w 3 23 = 0 then some (.mswp (fld w 0 3))
  else none

/-- Matrix slot, major 0x04. -/
def decM04 (w : Nat) : Option Instr :=
  if bitsOf w 3 4 = 0 then some (.mdrn (fld w 21 5) (fld w 13 8) (fld w 9 4) (bitOf w 8) (bitOf w 7) (fld w 0 3))
  else none

/-- Matrix slot, major 0x05. -/
def decM05 (w : Nat) : Option Instr :=
  if bitsOf w 3 15 = 0 then some (.mfmt (fld w 22 4) (fld w 18 4) (fld w 0 3))
  else none

/-- Matrix slot, major 0x06. -/
def decM06 (w : Nat) : Option Instr :=
  if bitsOf w 3 23 = 0 then some (.mchk (fld w 0 3))
  else none

/-- Matrix slot, major 0x07. -/
def decM07 (w : Nat) : Option Instr :=
  if bitsOf w 3 23 = 0 then some (.mloc (fld w 0 3))
  else none

/-- Matrix slot, major 0x08. -/
def decM08 (w : Nat) : Option Instr :=
  if bitsOf w 3 23 = 0 then some (.mfix (fld w 0 3))
  else none

/-- Matrix slot, major 0x09. -/
def decM09 (w : Nat) : Option Instr :=
  if bitsOf w 3 7 = 0 ∧ bitsOf w 11 2 = 0 ∧ bitsOf w 18 8 = 0 then some (.mmpb (fld w 13 5) (bitOf w 10) (fld w 0 3))
  else none

/-- Matrix slot, major 0x0A. -/
def decM0A (w : Nat) : Option Instr :=
  if bitsOf w 3 7 = 0 ∧ bitsOf w 15 3 = 0 then some (.mclr (fld w 18 8) (fld w 10 5) (fld w 0 3))
  else none

/-- Load/store slot, major 0x01. -/
def decL01 (w : Nat) : Option Instr :=
  if bitsOf w 3 14 = 0 then some (.vld (fld w 21 5) (fld w 17 4) (fld w 0 3))
  else none

/-- Load/store slot, major 0x02. -/
def decL02 (w : Nat) : Option Instr :=
  if bitsOf w 3 13 = 0 then some (.vst (fld w 21 5) (fld w 17 4) (bitOf w 16) (fld w 0 3))
  else none

/-- Load/store slot, major 0x03. -/
def decL03 (w : Nat) : Option Instr :=
  if bitsOf w 14 1 = 0 then some (.vlda (fld w 21 5) (fld w 16 5) (bitOf w 15) (bitOf w 13) (fld w 3 10) (fld w 0 3))
  else none

/-- Load/store slot, major 0x04. -/
def decL04 (w : Nat) : Option Instr :=
  some (.vsta (fld w 21 5) (fld w 16 5) (bitOf w 15) (bitOf w 14) (bitOf w 13) (fld w 3 10) (fld w 0 3))

/-- Load/store slot, major 0x05. -/
def decL05 (w : Nat) : Option Instr :=
  if bitsOf w 14 1 = 0 then some (.lds (fld w 21 5) (fld w 16 5) (bitOf w 15) (bitOf w 13) (fld w 11 2) (bitOf w 10) (fld w 3 7) (fld w 0 3))
  else none

/-- Load/store slot, major 0x06. -/
def decL06 (w : Nat) : Option Instr :=
  if bitsOf w 10 1 = 0 then some (.sts (fld w 21 5) (fld w 16 5) (bitOf w 15) (bitOf w 14) (bitOf w 13) (fld w 11 2) (fld w 3 7) (fld w 0 3))
  else none

/-- Load/store slot, major 0x07. -/
def decL07 (w : Nat) : Option Instr :=
  if bitsOf w 3 5 = 0 then some (.acst (fld w 18 8) (fld w 14 4) (fld w 9 5) (bitOf w 8) (fld w 0 3))
  else none

/-- Load/store slot, major 0x08. -/
def decL08 (w : Nat) : Option Instr :=
  if bitsOf w 3 5 = 0 then some (.acld (fld w 18 8) (fld w 14 4) (fld w 9 5) (bitOf w 8) (fld w 0 3))
  else none

/-- Load/store slot, major 0x09. -/
def decL09 (w : Nat) : Option Instr :=
  if bitsOf w 13 2 = 0 ∧ bitsOf w 25 1 = 0 then some (.stcfg (fld w 21 4) (fld w 16 5) (bitOf w 15) (fld w 3 10) (fld w 0 3))
  else none

/-- Load/store slot, major 0x0A. -/
def decL0A (w : Nat) : Option Instr :=
  if bitsOf w 3 10 = 0 ∧ bitsOf w 16 1 = 0 then some (.stget (fld w 21 5) (fld w 17 4) (fld w 13 3) (fld w 0 3))
  else none

/-- Load/store slot, major 0x0B. -/
def decL0B (w : Nat) : Option Instr :=
  if bitsOf w 3 10 = 0 then some (.stset (fld w 21 5) (fld w 17 4) (bitOf w 16) (fld w 13 3) (fld w 0 3))
  else none

/-- Load/store slot, major 0x0C. -/
def decL0C (w : Nat) : Option Instr :=
  if bitsOf w 3 10 = 0 ∧ bitsOf w 16 1 = 0 ∧ bitsOf w 21 5 = 0 then some (.stadv (fld w 17 4) (fld w 13 3) (fld w 0 3))
  else none

/-- Load/store slot, major 0x0D. -/
def decL0D (w : Nat) : Option Instr :=
  if bitsOf w 3 18 = 0 ∧ bitsOf w 24 2 = 0 then some (.rpop (fld w 21 3) (fld w 0 3))
  else none

/-- Load/store slot, major 0x0E. -/
def decL0E (w : Nat) : Option Instr :=
  if bitsOf w 13 2 = 0 then some (.xrd (fld w 21 5) (fld w 16 5) (bitOf w 15) (fld w 3 10) (fld w 0 3))
  else none

/-- Engine slot, major 0x01. -/
def decE01 (w : Nat) : Option Instr :=
  if bitsOf w 3 3 = 0 ∧ bitsOf w 21 5 = 0 then some (.cpy (fld w 16 5) (bitOf w 15) (fld w 6 9) (fld w 0 3))
  else none

/-- Engine slot, major 0x02. -/
def decE02 (w : Nat) : Option Instr :=
  if bitsOf w 3 3 = 0 ∧ bitsOf w 21 5 = 0 then some (.sca (fld w 16 5) (bitOf w 15) (fld w 6 9) (fld w 0 3))
  else none

/-- Engine slot, major 0x03. -/
def decE03 (w : Nat) : Option Instr :=
  if bitsOf w 6 3 = 0 then some (.tsend (fld w 21 5) (fld w 16 5) (bitOf w 15) (fld w 10 5) (bitOf w 9) (fld w 3 3) (fld w 0 3))
  else none

/-- Engine slot, major 0x04. -/
def decE04 (w : Nat) : Option Instr :=
  if bitsOf w 6 15 = 0 then some (.tktg (fld w 21 5) (fld w 3 3) (fld w 0 3))
  else none

/-- Engine slot, major 0x05. -/
def decE05 (w : Nat) : Option Instr :=
  if bitsOf w 3 3 = 0 ∧ bitsOf w 21 5 = 0 then some (.fld (fld w 16 5) (bitOf w 15) (fld w 6 9) (fld w 0 3))
  else none

/-- Engine slot, major 0x06. -/
def decE06 (w : Nat) : Option Instr :=
  if bitsOf w 3 3 = 0 ∧ bitsOf w 21 5 = 0 then some (.fst (fld w 16 5) (bitOf w 15) (fld w 6 9) (fld w 0 3))
  else none

/-- Engine slot, major 0x07. -/
def decE07 (w : Nat) : Option Instr :=
  if bitsOf w 3 3 = 0 ∧ bitsOf w 21 5 = 0 then some (.fatm (fld w 16 5) (bitOf w 15) (fld w 6 9) (fld w 0 3))
  else none

/-- Engine slot, major 0x08. -/
def decE08 (w : Nat) : Option Instr :=
  if bitsOf w 3 3 = 0 ∧ bitsOf w 21 5 = 0 then some (.frep (fld w 16 5) (bitOf w 15) (fld w 6 9) (fld w 0 3))
  else none

/-- Engine slot, major 0x09. -/
def decE09 (w : Nat) : Option Instr :=
  if bitsOf w 3 5 = 0 ∧ bitsOf w 9 6 = 0 ∧ bitsOf w 21 5 = 0 then some (.bara (fld w 16 5) (bitOf w 15) (bitOf w 8) (fld w 0 3))
  else none

/-- Engine slot, major 0x0A. -/
def decE0A (w : Nat) : Option Instr :=
  if bitsOf w 3 6 = 0 ∧ bitsOf w 21 5 = 0 then some (.bari (fld w 16 5) (bitOf w 15) (fld w 10 5) (bitOf w 9) (fld w 0 3))
  else none

/-- Engine slot, major 0x0B. -/
def decE0B (w : Nat) : Option Instr :=
  if bitsOf w 3 3 = 0 ∧ bitsOf w 21 5 = 0 then some (.pfxlk (fld w 16 5) (bitOf w 15) (fld w 6 9) (fld w 0 3))
  else none

/-- Engine slot, major 0x0C. -/
def decE0C (w : Nat) : Option Instr :=
  if bitsOf w 3 3 = 0 ∧ bitsOf w 21 5 = 0 then some (.pfxin (fld w 16 5) (bitOf w 15) (fld w 6 9) (fld w 0 3))
  else none

/-- Engine slot, major 0x0D. -/
def decE0D (w : Nat) : Option Instr :=
  if bitsOf w 3 3 = 0 ∧ bitsOf w 21 5 = 0 then some (.pfxref (fld w 16 5) (bitOf w 15) (fld w 6 9) (fld w 0 3))
  else none

/-- Engine slot, major 0x0E. -/
def decE0E (w : Nat) : Option Instr :=
  if bitsOf w 3 3 = 0 ∧ bitsOf w 21 5 = 0 then some (.pfxapp (fld w 16 5) (bitOf w 15) (fld w 6 9) (fld w 0 3))
  else none

/-- Engine slot, major 0x0F. -/
def decE0F (w : Nat) : Option Instr :=
  if bitsOf w 3 3 = 0 ∧ bitsOf w 21 5 = 0 then some (.pfxev (fld w 16 5) (bitOf w 15) (fld w 6 9) (fld w 0 3))
  else none

/-- Engine slot, major 0x10. -/
def decE10 (w : Nat) : Option Instr :=
  if bitsOf w 3 3 = 0 ∧ bitsOf w 21 5 = 0 then some (.kvmrg (fld w 16 5) (bitOf w 15) (fld w 6 9) (fld w 0 3))
  else none

/-- Engine slot, major 0x11. -/
def decE11 (w : Nat) : Option Instr :=
  if bitsOf w 3 23 = 0 then some (.mark (fld w 0 3))
  else none

/-- Engine slot, major 0x12. -/
def decE12 (w : Nat) : Option Instr :=
  if bitsOf w 3 12 = 0 ∧ bitsOf w 24 2 = 0 then some (.jstat (fld w 21 3) (fld w 16 5) (bitOf w 15) (fld w 0 3))
  else none

/-- The majors of the ctl slot: `none` for a major that is not assigned there, `some none` for fields that no row covers. -/
def ctlMajor (w : Nat) : Option (Option Instr) :=
  match w / 2 ^ 26 with
  | 1 => some (decC01 w)
  | 2 => some (decC02 w)
  | 3 => some (decC03 w)
  | 4 => some (decC04 w)
  | 5 => some (decC05 w)
  | 6 => some (decC06 w)
  | 7 => some (decC07 w)
  | 8 => some (decC08 w)
  | 9 => some (decC09 w)
  | 10 => some (decC0A w)
  | 11 => some (decC0B w)
  | 12 => some (decC0C w)
  | 13 => some (decC0D w)
  | 14 => some (decC0E w)
  | 15 => some (decC0F w)
  | 16 => some (decC10 w)
  | 17 => some (decC11 w)
  | 18 => some (decC12 w)
  | 48 => some (decC30 w)
  | 49 => some (decC31 w)
  | 50 => some (decC32 w)
  | 51 => some (decC33 w)
  | 52 => some (decC34 w)
  | 53 => some (decC35 w)
  | 54 => some (decC36 w)
  | 55 => some (decC37 w)
  | 56 => some (decC38 w)
  | 57 => some (decC39 w)
  | 58 => some (decC3A w)
  | 59 => some (decC3B w)
  | 60 => some (decC3C w)
  | 61 => some (decC3D w)
  | 62 => some (decC3E w)
  | _ => none

/-- The majors of the scalar slot: `none` for a major that is not assigned there, `some none` for fields that no row covers. -/
def scalarMajor (w : Nat) : Option (Option Instr) :=
  match w / 2 ^ 26 with
  | 1 => some (decS01 w)
  | 2 => some (decS02 w)
  | 3 => some (decS03 w)
  | 4 => some (decS04 w)
  | 5 => some (decS05 w)
  | 6 => some (decS06 w)
  | 7 => some (decS07 w)
  | 8 => some (decS08 w)
  | 9 => some (decS09 w)
  | 10 => some (decS0A w)
  | 11 => some (decS0B w)
  | 12 => some (decS0C w)
  | 13 => some (decS0D w)
  | 14 => some (decS0E w)
  | 15 => some (decS0F w)
  | 16 => some (decS10 w)
  | 17 => some (decS11 w)
  | 18 => some (decS12 w)
  | 19 => some (decS13 w)
  | 20 => some (decS14 w)
  | 21 => some (decS15 w)
  | 22 => some (decS16 w)
  | 23 => some (decS17 w)
  | _ => none

/-- The majors of the vector slot: `none` for a major that is not assigned there, `some none` for fields that no row covers. -/
def vectorMajor (w : Nat) : Option (Option Instr) :=
  match w / 2 ^ 26 with
  | 1 => some (decV01 w)
  | 2 => some (decV02 w)
  | 3 => some (decV03 w)
  | 4 => some (decV04 w)
  | 5 => some (decV05 w)
  | 6 => some (decV06 w)
  | 7 => some (decV07 w)
  | 8 => some (decV08 w)
  | 9 => some (decV09 w)
  | 10 => some (decV0A w)
  | 11 => some (decV0B w)
  | 12 => some (decV0C w)
  | 13 => some (decV0D w)
  | 14 => some (decV0E w)
  | 15 => some (decV0F w)
  | 16 => some (decV10 w)
  | 17 => some (decV11 w)
  | 18 => some (decV12 w)
  | 19 => some (decV13 w)
  | 20 => some (decV14 w)
  | 21 => some (decV15 w)
  | 24 => some (decV18 w)
  | 25 => some (decV19 w)
  | 26 => some (decV1A w)
  | 27 => some (decV1B w)
  | 28 => some (decV1C w)
  | 29 => some (decV1D w)
  | 30 => some (decV1E w)
  | 31 => some (decV1F w)
  | 32 => some (decV20 w)
  | 33 => some (decV21 w)
  | 34 => some (decV22 w)
  | 35 => some (decV23 w)
  | 36 => some (decV24 w)
  | 37 => some (decV25 w)
  | 38 => some (decV26 w)
  | 39 => some (decV27 w)
  | 44 => some (decV2C w)
  | 45 => some (decV2D w)
  | 46 => some (decV2E w)
  | 47 => some (decV2F w)
  | 48 => some (decV30 w)
  | 49 => some (decV31 w)
  | 50 => some (decV32 w)
  | 56 => some (decV38 w)
  | 57 => some (decV39 w)
  | 58 => some (decV3A w)
  | 59 => some (decV3B w)
  | 60 => some (decV3C w)
  | 61 => some (decV3D w)
  | 62 => some (decV3E w)
  | _ => none

/-- The majors of the matrix slot: `none` for a major that is not assigned there, `some none` for fields that no row covers. -/
def matrixMajor (w : Nat) : Option (Option Instr) :=
  match w / 2 ^ 26 with
  | 1 => some (decM01 w)
  | 2 => some (decM02 w)
  | 3 => some (decM03 w)
  | 4 => some (decM04 w)
  | 5 => some (decM05 w)
  | 6 => some (decM06 w)
  | 7 => some (decM07 w)
  | 8 => some (decM08 w)
  | 9 => some (decM09 w)
  | 10 => some (decM0A w)
  | _ => none

/-- The majors of the mem slot: `none` for a major that is not assigned there, `some none` for fields that no row covers. -/
def memMajor (w : Nat) : Option (Option Instr) :=
  match w / 2 ^ 26 with
  | 1 => some (decL01 w)
  | 2 => some (decL02 w)
  | 3 => some (decL03 w)
  | 4 => some (decL04 w)
  | 5 => some (decL05 w)
  | 6 => some (decL06 w)
  | 7 => some (decL07 w)
  | 8 => some (decL08 w)
  | 9 => some (decL09 w)
  | 10 => some (decL0A w)
  | 11 => some (decL0B w)
  | 12 => some (decL0C w)
  | 13 => some (decL0D w)
  | 14 => some (decL0E w)
  | _ => none

/-- The majors of the engine slot: `none` for a major that is not assigned there, `some none` for fields that no row covers. -/
def engineMajor (w : Nat) : Option (Option Instr) :=
  match w / 2 ^ 26 with
  | 1 => some (decE01 w)
  | 2 => some (decE02 w)
  | 3 => some (decE03 w)
  | 4 => some (decE04 w)
  | 5 => some (decE05 w)
  | 6 => some (decE06 w)
  | 7 => some (decE07 w)
  | 8 => some (decE08 w)
  | 9 => some (decE09 w)
  | 10 => some (decE0A w)
  | 11 => some (decE0B w)
  | 12 => some (decE0C w)
  | 13 => some (decE0D w)
  | 14 => some (decE0E w)
  | 15 => some (decE0F w)
  | 16 => some (decE10 w)
  | 17 => some (decE11 w)
  | 18 => some (decE12 w)
  | _ => none

/-- The fields of a decoded instruction hold no reserved value. -/
def fieldsLegal (i : Instr) : Bool := i.wf

/-- The majors that a slot of each kind assigns; the special functions are decoded in VB only (R131). -/
def slotMajor (k : SlotKind) (w : Nat) : Option (Option Instr) :=
  match k with
  | .c => ctlMajor w
  | .s => scalarMajor w
  | .va => if 0x38 ≤ w / 2 ^ 26 then none else vectorMajor w
  | .vb => vectorMajor w
  | .mx => matrixMajor w
  | .ls => memMajor w
  | .en => engineMajor w

/-- The instruction of slot word `w` in slot `n` (R84). -/
def decodeSlot (n w : Nat) : Except DecodeError Instr :=
  if w = 0 then .ok .nop
  else if w / 2 ^ 26 = 0 then .error .majorZero
  else match slotMajor (slotKind n) w with
    | none => .error (.unassigned (w / 2 ^ 26))
    | some none => .error (.reservedField (w / 2 ^ 26))
    | some (some i) => if fieldsLegal i then .ok i else .error (.reservedValue (w / 2 ^ 26))

/-! ### Encoding -/

/-- 0 or 1 for a one-bit field. -/
def bitNat (b : Bool) : Nat := if b then 1 else 0

/-- A word from its fixed bits and its fields, each with the place of its lowest bit. -/
def packWord (base : Nat) : List (Nat × Nat) → Nat
  | [] => base
  | (v, lo) :: l => packWord (base + v * 2 ^ lo) l

/-- The slot word of an instruction, written from the same formats; an event has none. -/
def encode : Instr → Option Nat
  | .nop => some (packWord 0x00000000 [])
  | .pbr b o => some (packWord 0x04000000 [(b.toNat, 24), (o.toNat, 0)])
  | .pbrx a e b n p => some (packWord 0x08000000 [(a.toNat, 16), (bitNat e, 15), (b.toNat, 4), (bitNat n, 3), (p.toNat, 0)])
  | .br b n p => some (packWord 0x0C000000 [(b.toNat, 4), (bitNat n, 3), (p.toNat, 0)])
  | .call d b n p => some (packWord 0x10000000 [(d.toNat, 21), (b.toNat, 4), (bitNat n, 3), (p.toNat, 0)])
  | .loopImm v l t => some (packWord 0x14000000 [(v.toNat, 23), (l.toNat, 15), (t.toNat, 0)])
  | .loopReg v l a e => some (packWord 0x14004000 [(v.toNat, 23), (l.toNat, 15), (a.toNat, 9), (bitNat e, 8)])
  | .loopKeep v l => some (packWord 0x14004080 [(v.toNat, 23), (l.toNat, 15)])
  | .loopsl v l h => some (packWord 0x18000000 [(v.toNat, 23), (l.toNat, 15), (h.toNat, 11)])
  | .lbrk v n p => some (packWord 0x1C000000 [(v.toNat, 4), (bitNat n, 3), (p.toNat, 0)])
  | .waitb d a e b f n p => some (packWord 0x20000000 [(d.toNat, 21), (a.toNat, 16), (bitNat e, 15), (b.toNat, 10), (bitNat f, 9), (bitNat n, 3), (p.toNat, 0)])
  | .waitt a e o n p => some (packWord 0x24000000 [(a.toNat, 16), (bitNat e, 15), (o.toNat, 4), (bitNat n, 3), (p.toNat, 0)])
  | .done n p => some (packWord 0x28000000 [(bitNat n, 3), (p.toNat, 0)])
  | .ckpt n p => some (packWord 0x2C000000 [(bitNat n, 3), (p.toNat, 0)])
  | .fence k s m n p => some (packWord 0x30000000 [(k.toNat, 24), (s.toNat, 22), (m.toNat, 6), (bitNat n, 3), (p.toNat, 0)])
  | .trap i n p => some (packWord 0x34000000 [(i.toNat, 10), (bitNat n, 3), (p.toNat, 0)])
  | .brk i n p => some (packWord 0x40000000 [(i.toNat, 10), (bitNat n, 3), (p.toNat, 0)])
  | .getid d n p => some (packWord 0x38000000 [(d.toNat, 21), (bitNat n, 3), (p.toNat, 0)])
  | .evpop d b n p => some (packWord 0x3C000000 [(d.toNat, 21), (b.toNat, 10), (bitNat n, 3), (p.toNat, 0)])
  | .rdct d c n p => some (packWord 0x44000000 [(d.toNat, 21), (c.toNat, 4), (bitNat n, 3), (p.toNat, 0)])
  | .rng d v n p => some (packWord 0x48000000 [(d.toNat, 21), (v.toNat, 4), (bitNat n, 3), (p.toNat, 0)])
  | .mfc d c n p => some (packWord 0xC0000000 [(d.toNat, 21), (c.toNat, 4), (bitNat n, 3), (p.toNat, 0)])
  | .mtc a e c n p => some (packWord 0xC4000000 [(a.toNat, 16), (bitNat e, 15), (c.toNat, 4), (bitNat n, 3), (p.toNat, 0)])
  | .mtcKcpc a e n p => some (packWord 0xC4000030 [(a.toNat, 16), (bitNat e, 15), (bitNat n, 3), (p.toNat, 0)])
  | .tret n p => some (packWord 0xC8000000 [(bitNat n, 3), (p.toNat, 0)])
  | .halt a e n p => some (packWord 0xCC000000 [(a.toNat, 16), (bitNat e, 15), (bitNat n, 3), (p.toNat, 0)])
  | .haltResume a e n p => some (packWord 0xCC000000 [(a.toNat, 16), (bitNat e, 15), (bitNat n, 3), (p.toNat, 0)])
  | .pstop a e n p => some (packWord 0xD0000000 [(a.toNat, 16), (bitNat e, 15), (bitNat n, 3), (p.toNat, 0)])
  | .pstopThaw a e n p => some (packWord 0xD0000000 [(a.toNat, 16), (bitNat e, 15), (bitNat n, 3), (p.toNat, 0)])
  | .pdrain a e n p => some (packWord 0xD4000000 [(a.toNat, 16), (bitNat e, 15), (bitNat n, 3), (p.toNat, 0)])
  | .csave a e b f n p => some (packWord 0xD8000000 [(a.toNat, 16), (bitNat e, 15), (b.toNat, 10), (bitNat f, 9), (bitNat n, 3), (p.toNat, 0)])
  | .cload a e b f n p => some (packWord 0xDC000000 [(a.toNat, 16), (bitNat e, 15), (b.toNat, 10), (bitNat f, 9), (bitNat n, 3), (p.toNat, 0)])
  | .tlbiAsid a e b f n p => some (packWord 0xE0000000 [(a.toNat, 16), (bitNat e, 15), (b.toNat, 10), (bitNat f, 9), (bitNat n, 3), (p.toNat, 0)])
  | .tlbiPage a e b f n p => some (packWord 0xE0000000 [(a.toNat, 16), (bitNat e, 15), (b.toNat, 10), (bitNat f, 9), (bitNat n, 3), (p.toNat, 0)])
  | .tlbiAll a e b f n p => some (packWord 0xE0000000 [(a.toNat, 16), (bitNat e, 15), (b.toNat, 10), (bitNat f, 9), (bitNat n, 3), (p.toNat, 0)])
  | .sltw a e b f n p => some (packWord 0xE4000000 [(a.toNat, 16), (bitNat e, 15), (b.toNat, 10), (bitNat f, 9), (bitNat n, 3), (p.toNat, 0)])
  | .sltwCommit a e b f n p => some (packWord 0xE4000000 [(a.toNat, 16), (bitNat e, 15), (b.toNat, 10), (bitNat f, 9), (bitNat n, 3), (p.toNat, 0)])
  | .lkey a e b f n p => some (packWord 0xE8000000 [(a.toNat, 16), (bitNat e, 15), (b.toNat, 10), (bitNat f, 9), (bitNat n, 3), (p.toNat, 0)])
  | .lksw a e n p => some (packWord 0xEC000000 [(a.toNat, 16), (bitNat e, 15), (bitNat n, 3), (p.toNat, 0)])
  | .retc a e n p => some (packWord 0xF0000000 [(a.toNat, 16), (bitNat e, 15), (bitNat n, 3), (p.toNat, 0)])
  | .retcCore a e n p => some (packWord 0xF0000000 [(a.toNat, 16), (bitNat e, 15), (bitNat n, 3), (p.toNat, 0)])
  | .jrsm a e n p => some (packWord 0xF4000000 [(a.toNat, 16), (bitNat e, 15), (bitNat n, 3), (p.toNat, 0)])
  | .jkil a e n p => some (packWord 0xF8000000 [(a.toNat, 16), (bitNat e, 15), (bitNat n, 3), (p.toNat, 0)])
  | .add d a e b f p => some (packWord 0x04000000 [(d.toNat, 21), (a.toNat, 16), (bitNat e, 15), (b.toNat, 10), (bitNat f, 9), (p.toNat, 0)])
  | .sub d a e b f p => some (packWord 0x04000008 [(d.toNat, 21), (a.toNat, 16), (bitNat e, 15), (b.toNat, 10), (bitNat f, 9), (p.toNat, 0)])
  | .and d a e b f p => some (packWord 0x04000010 [(d.toNat, 21), (a.toNat, 16), (bitNat e, 15), (b.toNat, 10), (bitNat f, 9), (p.toNat, 0)])
  | .or d a e b f p => some (packWord 0x04000018 [(d.toNat, 21), (a.toNat, 16), (bitNat e, 15), (b.toNat, 10), (bitNat f, 9), (p.toNat, 0)])
  | .xor d a e b f p => some (packWord 0x04000020 [(d.toNat, 21), (a.toNat, 16), (bitNat e, 15), (b.toNat, 10), (bitNat f, 9), (p.toNat, 0)])
  | .andn d a e b f p => some (packWord 0x04000028 [(d.toNat, 21), (a.toNat, 16), (bitNat e, 15), (b.toNat, 10), (bitNat f, 9), (p.toNat, 0)])
  | .sll d a e b f p => some (packWord 0x04000030 [(d.toNat, 21), (a.toNat, 16), (bitNat e, 15), (b.toNat, 10), (bitNat f, 9), (p.toNat, 0)])
  | .srl d a e b f p => some (packWord 0x04000038 [(d.toNat, 21), (a.toNat, 16), (bitNat e, 15), (b.toNat, 10), (bitNat f, 9), (p.toNat, 0)])
  | .sra d a e b f p => some (packWord 0x04000040 [(d.toNat, 21), (a.toNat, 16), (bitNat e, 15), (b.toNat, 10), (bitNat f, 9), (p.toNat, 0)])
  | .rol d a e b f p => some (packWord 0x04000048 [(d.toNat, 21), (a.toNat, 16), (bitNat e, 15), (b.toNat, 10), (bitNat f, 9), (p.toNat, 0)])
  | .min d a e b f p => some (packWord 0x04000050 [(d.toNat, 21), (a.toNat, 16), (bitNat e, 15), (b.toNat, 10), (bitNat f, 9), (p.toNat, 0)])
  | .max d a e b f p => some (packWord 0x04000058 [(d.toNat, 21), (a.toNat, 16), (bitNat e, 15), (b.toNat, 10), (bitNat f, 9), (p.toNat, 0)])
  | .minu d a e b f p => some (packWord 0x04000060 [(d.toNat, 21), (a.toNat, 16), (bitNat e, 15), (b.toNat, 10), (bitNat f, 9), (p.toNat, 0)])
  | .maxu d a e b f p => some (packWord 0x04000068 [(d.toNat, 21), (a.toNat, 16), (bitNat e, 15), (b.toNat, 10), (bitNat f, 9), (p.toNat, 0)])
  | .mul d a e b f p => some (packWord 0x08000000 [(d.toNat, 21), (a.toNat, 16), (bitNat e, 15), (b.toNat, 10), (bitNat f, 9), (p.toNat, 0)])
  | .mulh d a e b f p => some (packWord 0x08000008 [(d.toNat, 21), (a.toNat, 16), (bitNat e, 15), (b.toNat, 10), (bitNat f, 9), (p.toNat, 0)])
  | .mulhu d a e b f p => some (packWord 0x08000010 [(d.toNat, 21), (a.toNat, 16), (bitNat e, 15), (b.toNat, 10), (bitNat f, 9), (p.toNat, 0)])
  | .div d a e b f p => some (packWord 0x08000018 [(d.toNat, 21), (a.toNat, 16), (bitNat e, 15), (b.toNat, 10), (bitNat f, 9), (p.toNat, 0)])
  | .divu d a e b f p => some (packWord 0x08000020 [(d.toNat, 21), (a.toNat, 16), (bitNat e, 15), (b.toNat, 10), (bitNat f, 9), (p.toNat, 0)])
  | .rem d a e b f p => some (packWord 0x08000028 [(d.toNat, 21), (a.toNat, 16), (bitNat e, 15), (b.toNat, 10), (bitNat f, 9), (p.toNat, 0)])
  | .remu d a e b f p => some (packWord 0x08000030 [(d.toNat, 21), (a.toNat, 16), (bitNat e, 15), (b.toNat, 10), (bitNat f, 9), (p.toNat, 0)])
  | .clz d a e p => some (packWord 0x0C000000 [(d.toNat, 21), (a.toNat, 16), (bitNat e, 15), (p.toNat, 0)])
  | .ctz d a e p => some (packWord 0x0C000008 [(d.toNat, 21), (a.toNat, 16), (bitNat e, 15), (p.toNat, 0)])
  | .popc d a e p => some (packWord 0x0C000010 [(d.toNat, 21), (a.toNat, 16), (bitNat e, 15), (p.toNat, 0)])
  | .brev d a e p => some (packWord 0x0C000018 [(d.toNat, 21), (a.toNat, 16), (bitNat e, 15), (p.toNat, 0)])
  | .extb d a e p => some (packWord 0x0C000020 [(d.toNat, 21), (a.toNat, 16), (bitNat e, 15), (p.toNat, 0)])
  | .exth d a e p => some (packWord 0x0C000028 [(d.toNat, 21), (a.toNat, 16), (bitNat e, 15), (p.toNat, 0)])
  | .extw d a e p => some (packWord 0x0C000030 [(d.toNat, 21), (a.toNat, 16), (bitNat e, 15), (p.toNat, 0)])
  | .exbu d a e p => some (packWord 0x0C000038 [(d.toNat, 21), (a.toNat, 16), (bitNat e, 15), (p.toNat, 0)])
  | .exhu d a e p => some (packWord 0x0C000040 [(d.toNat, 21), (a.toNat, 16), (bitNat e, 15), (p.toNat, 0)])
  | .exwu d a e p => some (packWord 0x0C000048 [(d.toNat, 21), (a.toNat, 16), (bitNat e, 15), (p.toNat, 0)])
  | .addi d a e i p => some (packWord 0x10000000 [(d.toNat, 21), (a.toNat, 16), (bitNat e, 15), (i.toNat, 3), (p.toNat, 0)])
  | .andi d a e i p => some (packWord 0x14000000 [(d.toNat, 21), (a.toNat, 16), (bitNat e, 15), (i.toNat, 3), (p.toNat, 0)])
  | .ori d a e i p => some (packWord 0x18000000 [(d.toNat, 21), (a.toNat, 16), (bitNat e, 15), (i.toNat, 3), (p.toNat, 0)])
  | .xori d a e i p => some (packWord 0x1C000000 [(d.toNat, 21), (a.toNat, 16), (bitNat e, 15), (i.toNat, 3), (p.toNat, 0)])
  | .slli d a e s p => some (packWord 0x20000000 [(d.toNat, 21), (a.toNat, 16), (bitNat e, 15), (s.toNat, 3), (p.toNat, 0)])
  | .srli d a e s p => some (packWord 0x24000000 [(d.toNat, 21), (a.toNat, 16), (bitNat e, 15), (s.toNat, 3), (p.toNat, 0)])
  | .srai d a e s p => some (packWord 0x28000000 [(d.toNat, 21), (a.toNat, 16), (bitNat e, 15), (s.toNat, 3), (p.toNat, 0)])
  | .muli d a e i p => some (packWord 0x2C000000 [(d.toNat, 21), (a.toNat, 16), (bitNat e, 15), (i.toNat, 3), (p.toNat, 0)])
  | .lim d h i p => some (packWord 0x30000000 [(d.toNat, 21), (h.toNat, 19), (i.toNat, 3), (p.toNat, 0)])
  | .lik d h i p => some (packWord 0x34000000 [(d.toNat, 21), (h.toNat, 19), (i.toNat, 3), (p.toNat, 0)])
  | .cmp d c a e b f p => some (packWord 0x38000000 [(d.toNat, 23), (c.toNat, 19), (a.toNat, 14), (bitNat e, 13), (b.toNat, 8), (bitNat f, 7), (p.toNat, 0)])
  | .cmpi d c a e i p => some (packWord 0x3C000000 [(d.toNat, 23), (c.toNat, 19), (a.toNat, 14), (bitNat e, 13), (i.toNat, 3), (p.toNat, 0)])
  | .sel d a e b f s p => some (packWord 0x40000000 [(d.toNat, 21), (a.toNat, 16), (bitNat e, 15), (b.toNat, 10), (bitNat f, 9), (s.toNat, 3), (p.toNat, 0)])
  | .pand d a e b f p => some (packWord 0x44000000 [(d.toNat, 21), (a.toNat, 16), (bitNat e, 15), (b.toNat, 10), (bitNat f, 9), (p.toNat, 0)])
  | .por d a e b f p => some (packWord 0x44000008 [(d.toNat, 21), (a.toNat, 16), (bitNat e, 15), (b.toNat, 10), (bitNat f, 9), (p.toNat, 0)])
  | .pxor d a e b f p => some (packWord 0x44000010 [(d.toNat, 21), (a.toNat, 16), (bitNat e, 15), (b.toNat, 10), (bitNat f, 9), (p.toNat, 0)])
  | .pnot d a e p => some (packWord 0x44000018 [(d.toNat, 21), (a.toNat, 16), (bitNat e, 15), (p.toNat, 0)])
  | .dadd d a e b f r p => some (packWord 0x48000000 [(d.toNat, 21), (a.toNat, 16), (bitNat e, 15), (b.toNat, 10), (bitNat f, 9), (r.toNat, 3), (p.toNat, 0)])
  | .dsub d a e b f r p => some (packWord 0x48000040 [(d.toNat, 21), (a.toNat, 16), (bitNat e, 15), (b.toNat, 10), (bitNat f, 9), (r.toNat, 3), (p.toNat, 0)])
  | .dmul d a e b f r p => some (packWord 0x48000080 [(d.toNat, 21), (a.toNat, 16), (bitNat e, 15), (b.toNat, 10), (bitNat f, 9), (r.toNat, 3), (p.toNat, 0)])
  | .ddiv d a e b f r p => some (packWord 0x480000C0 [(d.toNat, 21), (a.toNat, 16), (bitNat e, 15), (b.toNat, 10), (bitNat f, 9), (r.toNat, 3), (p.toNat, 0)])
  | .dsqrt d a e r p => some (packWord 0x48000100 [(d.toNat, 21), (a.toNat, 16), (bitNat e, 15), (r.toNat, 3), (p.toNat, 0)])
  | .dmin d a e b f p => some (packWord 0x48000140 [(d.toNat, 21), (a.toNat, 16), (bitNat e, 15), (b.toNat, 10), (bitNat f, 9), (p.toNat, 0)])
  | .dmax d a e b f p => some (packWord 0x48000148 [(d.toNat, 21), (a.toNat, 16), (bitNat e, 15), (b.toNat, 10), (bitNat f, 9), (p.toNat, 0)])
  | .dabs d a e p => some (packWord 0x48000150 [(d.toNat, 21), (a.toNat, 16), (bitNat e, 15), (p.toNat, 0)])
  | .dneg d a e p => some (packWord 0x48000158 [(d.toNat, 21), (a.toNat, 16), (bitNat e, 15), (p.toNat, 0)])
  | .dfma d a e b f r p => some (packWord 0x4C000000 [(d.toNat, 21), (a.toNat, 16), (bitNat e, 15), (b.toNat, 10), (bitNat f, 9), (r.toNat, 3), (p.toNat, 0)])
  | .dfms d a e b f r p => some (packWord 0x4C000040 [(d.toNat, 21), (a.toNat, 16), (bitNat e, 15), (b.toNat, 10), (bitNat f, 9), (r.toNat, 3), (p.toNat, 0)])
  | .dnfma d a e b f r p => some (packWord 0x4C000080 [(d.toNat, 21), (a.toNat, 16), (bitNat e, 15), (b.toNat, 10), (bitNat f, 9), (r.toNat, 3), (p.toNat, 0)])
  | .dnfms d a e b f r p => some (packWord 0x4C0000C0 [(d.toNat, 21), (a.toNat, 16), (bitNat e, 15), (b.toNat, 10), (bitNat f, 9), (r.toNat, 3), (p.toNat, 0)])
  | .fadd d a e b f r p => some (packWord 0x50000000 [(d.toNat, 21), (a.toNat, 16), (bitNat e, 15), (b.toNat, 10), (bitNat f, 9), (r.toNat, 3), (p.toNat, 0)])
  | .fsub d a e b f r p => some (packWord 0x50000040 [(d.toNat, 21), (a.toNat, 16), (bitNat e, 15), (b.toNat, 10), (bitNat f, 9), (r.toNat, 3), (p.toNat, 0)])
  | .fmul d a e b f r p => some (packWord 0x50000080 [(d.toNat, 21), (a.toNat, 16), (bitNat e, 15), (b.toNat, 10), (bitNat f, 9), (r.toNat, 3), (p.toNat, 0)])
  | .fdiv d a e b f r p => some (packWord 0x500000C0 [(d.toNat, 21), (a.toNat, 16), (bitNat e, 15), (b.toNat, 10), (bitNat f, 9), (r.toNat, 3), (p.toNat, 0)])
  | .fsqrt d a e r p => some (packWord 0x50000100 [(d.toNat, 21), (a.toNat, 16), (bitNat e, 15), (r.toNat, 3), (p.toNat, 0)])
  | .fmin d a e b f p => some (packWord 0x50000140 [(d.toNat, 21), (a.toNat, 16), (bitNat e, 15), (b.toNat, 10), (bitNat f, 9), (p.toNat, 0)])
  | .fmax d a e b f p => some (packWord 0x50000180 [(d.toNat, 21), (a.toNat, 16), (bitNat e, 15), (b.toNat, 10), (bitNat f, 9), (p.toNat, 0)])
  | .ffma d a e b f r p => some (packWord 0x500001C0 [(d.toNat, 21), (a.toNat, 16), (bitNat e, 15), (b.toNat, 10), (bitNat f, 9), (r.toNat, 3), (p.toNat, 0)])
  | .i2d d a e r p => some (packWord 0x54000000 [(d.toNat, 21), (a.toNat, 16), (bitNat e, 15), (r.toNat, 3), (p.toNat, 0)])
  | .u2d d a e r p => some (packWord 0x54000040 [(d.toNat, 21), (a.toNat, 16), (bitNat e, 15), (r.toNat, 3), (p.toNat, 0)])
  | .d2i d a e r p => some (packWord 0x54000080 [(d.toNat, 21), (a.toNat, 16), (bitNat e, 15), (r.toNat, 3), (p.toNat, 0)])
  | .d2u d a e r p => some (packWord 0x540000C0 [(d.toNat, 21), (a.toNat, 16), (bitNat e, 15), (r.toNat, 3), (p.toNat, 0)])
  | .f2d d a e r p => some (packWord 0x54000100 [(d.toNat, 21), (a.toNat, 16), (bitNat e, 15), (r.toNat, 3), (p.toNat, 0)])
  | .d2f d a e r p => some (packWord 0x54000140 [(d.toNat, 21), (a.toNat, 16), (bitNat e, 15), (r.toNat, 3), (p.toNat, 0)])
  | .i2f d a e r p => some (packWord 0x54000180 [(d.toNat, 21), (a.toNat, 16), (bitNat e, 15), (r.toNat, 3), (p.toNat, 0)])
  | .f2i d a e r p => some (packWord 0x540001C0 [(d.toNat, 21), (a.toNat, 16), (bitNat e, 15), (r.toNat, 3), (p.toNat, 0)])
  | .mfs d s p => some (packWord 0x58000000 [(d.toNat, 21), (s.toNat, 3), (p.toNat, 0)])
  | .mts a e s p => some (packWord 0x5C000000 [(a.toNat, 16), (bitNat e, 15), (s.toNat, 3), (p.toNat, 0)])
  | .vadd d a e b f t m u => some (packWord 0x04000000 [(d.toNat, 21), (a.toNat, 16), (bitNat e, 15), (b.toNat, 10), (bitNat f, 9), (t.toNat, 6), (m.toNat, 2), (u.toNat, 0)])
  | .vsub d a e b f t m u => some (packWord 0x08000000 [(d.toNat, 21), (a.toNat, 16), (bitNat e, 15), (b.toNat, 10), (bitNat f, 9), (t.toNat, 6), (m.toNat, 2), (u.toNat, 0)])
  | .vmul d a e b f t m u => some (packWord 0x0C000000 [(d.toNat, 21), (a.toNat, 16), (bitNat e, 15), (b.toNat, 10), (bitNat f, 9), (t.toNat, 6), (m.toNat, 2), (u.toNat, 0)])
  | .vfma d a e b f t m u => some (packWord 0x10000000 [(d.toNat, 21), (a.toNat, 16), (bitNat e, 15), (b.toNat, 10), (bitNat f, 9), (t.toNat, 6), (m.toNat, 2), (u.toNat, 0)])
  | .vfms d a e b f t m u => some (packWord 0x14000000 [(d.toNat, 21), (a.toNat, 16), (bitNat e, 15), (b.toNat, 10), (bitNat f, 9), (t.toNat, 6), (m.toNat, 2), (u.toNat, 0)])
  | .vmin d a e b f t m u => some (packWord 0x18000000 [(d.toNat, 21), (a.toNat, 16), (bitNat e, 15), (b.toNat, 10), (bitNat f, 9), (t.toNat, 6), (m.toNat, 2), (u.toNat, 0)])
  | .vmax d a e b f t m u => some (packWord 0x1C000000 [(d.toNat, 21), (a.toNat, 16), (bitNat e, 15), (b.toNat, 10), (bitNat f, 9), (t.toNat, 6), (m.toNat, 2), (u.toNat, 0)])
  | .vmaxm d a e b f t m u => some (packWord 0x20000000 [(d.toNat, 21), (a.toNat, 16), (bitNat e, 15), (b.toNat, 10), (bitNat f, 9), (t.toNat, 6), (m.toNat, 2), (u.toNat, 0)])
  | .vabs d a e t m => some (packWord 0x24000000 [(d.toNat, 21), (a.toNat, 16), (bitNat e, 15), (t.toNat, 6), (m.toNat, 2)])
  | .vneg d a e t m => some (packWord 0x28000000 [(d.toNat, 21), (a.toNat, 16), (bitNat e, 15), (t.toNat, 6), (m.toNat, 2)])
  | .vcmpeq d a e b f t m u => some (packWord 0x2C000000 [(d.toNat, 21), (a.toNat, 16), (bitNat e, 15), (b.toNat, 10), (bitNat f, 9), (t.toNat, 6), (m.toNat, 2), (u.toNat, 0)])
  | .vcmplt d a e b f t m u => some (packWord 0x30000000 [(d.toNat, 21), (a.toNat, 16), (bitNat e, 15), (b.toNat, 10), (bitNat f, 9), (t.toNat, 6), (m.toNat, 2), (u.toNat, 0)])
  | .vcmple d a e b f t m u => some (packWord 0x34000000 [(d.toNat, 21), (a.toNat, 16), (bitNat e, 15), (b.toNat, 10), (bitNat f, 9), (t.toNat, 6), (m.toNat, 2), (u.toNat, 0)])
  | .vcmpun d a e b f t m u => some (packWord 0x38000000 [(d.toNat, 21), (a.toNat, 16), (bitNat e, 15), (b.toNat, 10), (bitNat f, 9), (t.toNat, 6), (m.toNat, 2), (u.toNat, 0)])
  | .vcmpm d a e => some (packWord 0x3C000000 [(d.toNat, 21), (a.toNat, 16), (bitNat e, 15)])
  | .vand d a e b f t m u => some (packWord 0x40000000 [(d.toNat, 21), (a.toNat, 16), (bitNat e, 15), (b.toNat, 10), (bitNat f, 9), (t.toNat, 6), (m.toNat, 2), (u.toNat, 0)])
  | .vor d a e b f t m u => some (packWord 0x44000000 [(d.toNat, 21), (a.toNat, 16), (bitNat e, 15), (b.toNat, 10), (bitNat f, 9), (t.toNat, 6), (m.toNat, 2), (u.toNat, 0)])
  | .vxor d a e b f t m u => some (packWord 0x48000000 [(d.toNat, 21), (a.toNat, 16), (bitNat e, 15), (b.toNat, 10), (bitNat f, 9), (t.toNat, 6), (m.toNat, 2), (u.toNat, 0)])
  | .vshl d a e b f t m u => some (packWord 0x4C000000 [(d.toNat, 21), (a.toNat, 16), (bitNat e, 15), (b.toNat, 10), (bitNat f, 9), (t.toNat, 6), (m.toNat, 2), (u.toNat, 0)])
  | .vshr d a e b f t m u => some (packWord 0x50000000 [(d.toNat, 21), (a.toNat, 16), (bitNat e, 15), (b.toNat, 10), (bitNat f, 9), (t.toNat, 6), (m.toNat, 2), (u.toNat, 0)])
  | .vsra d a e b f t m u => some (packWord 0x54000000 [(d.toNat, 21), (a.toNat, 16), (bitNat e, 15), (b.toNat, 10), (bitNat f, 9), (t.toNat, 6), (m.toNat, 2), (u.toNat, 0)])
  | .vbld d a e b f t m u => some (packWord 0x60000000 [(d.toNat, 21), (a.toNat, 16), (bitNat e, 15), (b.toNat, 10), (bitNat f, 9), (t.toNat, 6), (m.toNat, 2), (u.toNat, 0)])
  | .vbc d b f t m => some (packWord 0x64000001 [(d.toNat, 21), (b.toNat, 10), (bitNat f, 9), (t.toNat, 6), (m.toNat, 2)])
  | .vins d a e b f t m => some (packWord 0x68000001 [(d.toNat, 21), (a.toNat, 16), (bitNat e, 15), (b.toNat, 10), (bitNat f, 9), (t.toNat, 6), (m.toNat, 2)])
  | .vext d a e b f t => some (packWord 0x6C000001 [(d.toNat, 21), (a.toNat, 16), (bitNat e, 15), (b.toNat, 10), (bitNat f, 9), (t.toNat, 6)])
  | .vperm d a e b f t m => some (packWord 0x70000000 [(d.toNat, 21), (a.toNat, 16), (bitNat e, 15), (b.toNat, 10), (bitNat f, 9), (t.toNat, 6), (m.toNat, 2)])
  | .vrot d a e b f t m u => some (packWord 0x74000000 [(d.toNat, 21), (a.toNat, 16), (bitNat e, 15), (b.toNat, 10), (bitNat f, 9), (t.toNat, 6), (m.toNat, 2), (u.toNat, 0)])
  | .vred d a e o t m => some (packWord 0x78000000 [(d.toNat, 21), (a.toNat, 16), (bitNat e, 15), (o.toNat, 10), (t.toNat, 6), (m.toNat, 2)])
  | .vscan d a e o t m => some (packWord 0x7C000000 [(d.toNat, 21), (a.toNat, 16), (bitNat e, 15), (o.toNat, 10), (t.toNat, 6), (m.toNat, 2)])
  | .vcvt d a e r c s t m => some (packWord 0x80000000 [(d.toNat, 21), (a.toNat, 16), (bitNat e, 15), (bitNat r, 14), (c.toNat, 10), (bitNat s, 9), (t.toNat, 6), (m.toNat, 2)])
  | .vqnt d a e b f t m => some (packWord 0x84000001 [(d.toNat, 21), (a.toNat, 16), (bitNat e, 15), (b.toNat, 10), (bitNat f, 9), (t.toNat, 6), (m.toNat, 2)])
  | .vdqnt d a e b f t m => some (packWord 0x88000001 [(d.toNat, 21), (a.toNat, 16), (bitNat e, 15), (b.toNat, 10), (bitNat f, 9), (t.toNat, 6), (m.toNat, 2)])
  | .vhad d a e c s t m => some (packWord 0x8C000000 [(d.toNat, 21), (a.toNat, 16), (bitNat e, 15), (bitNat c, 13), (s.toNat, 10), (t.toNat, 6), (m.toNat, 2)])
  | .vsmrg d a e t m => some (packWord 0x90000000 [(d.toNat, 21), (a.toNat, 16), (bitNat e, 15), (t.toNat, 6), (m.toNat, 2)])
  | .vsmup d a e b f t m => some (packWord 0x94000000 [(d.toNat, 21), (a.toNat, 16), (bitNat e, 15), (b.toNat, 10), (bitNat f, 9), (t.toNat, 6), (m.toNat, 2)])
  | .vchc s o b f t h u => some (packWord 0x98000000 [(s.toNat, 21), (o.toNat, 16), (b.toNat, 10), (bitNat f, 9), (t.toNat, 6), (h.toNat, 2), (u.toNat, 0)])
  | .vch d a e t m => some (packWord 0x9C000000 [(d.toNat, 21), (a.toNat, 16), (bitNat e, 15), (t.toNat, 6), (m.toNat, 2)])
  | .mand d a e b f => some (packWord 0xB0000000 [(d.toNat, 21), (a.toNat, 16), (bitNat e, 15), (b.toNat, 10), (bitNat f, 9)])
  | .mor d a e b f => some (packWord 0xB4000000 [(d.toNat, 21), (a.toNat, 16), (bitNat e, 15), (b.toNat, 10), (bitNat f, 9)])
  | .mxor d a e b f => some (packWord 0xB8000000 [(d.toNat, 21), (a.toNat, 16), (bitNat e, 15), (b.toNat, 10), (bitNat f, 9)])
  | .mnot d a e => some (packWord 0xBC000000 [(d.toNat, 21), (a.toNat, 16), (bitNat e, 15)])
  | .mfx d a e => some (packWord 0xC0000000 [(d.toNat, 21), (a.toNat, 16), (bitNat e, 15)])
  | .mtx d a e => some (packWord 0xC4000000 [(d.toNat, 21), (a.toNat, 16), (bitNat e, 15)])
  | .mbitSet d a e i => some (packWord 0xC8000000 [(d.toNat, 21), (a.toNat, 16), (bitNat e, 15), (i.toNat, 10)])
  | .mbitClr d a e i => some (packWord 0xC8000002 [(d.toNat, 21), (a.toNat, 16), (bitNat e, 15), (i.toNat, 10)])
  | .mbitInv d a e i => some (packWord 0xC8000003 [(d.toNat, 21), (a.toNat, 16), (bitNat e, 15), (i.toNat, 10)])
  | .vexp2 d a e t m => some (packWord 0xE0000000 [(d.toNat, 21), (a.toNat, 16), (bitNat e, 15), (t.toNat, 6), (m.toNat, 2)])
  | .vlog2 d a e t m => some (packWord 0xE4000000 [(d.toNat, 21), (a.toNat, 16), (bitNat e, 15), (t.toNat, 6), (m.toNat, 2)])
  | .vrcp d a e t m => some (packWord 0xE8000000 [(d.toNat, 21), (a.toNat, 16), (bitNat e, 15), (t.toNat, 6), (m.toNat, 2)])
  | .vrsq d a e t m => some (packWord 0xEC000000 [(d.toNat, 21), (a.toNat, 16), (bitNat e, 15), (t.toNat, 6), (m.toNat, 2)])
  | .vsqrt d a e t m => some (packWord 0xF0000000 [(d.toNat, 21), (a.toNat, 16), (bitNat e, 15), (t.toNat, 6), (m.toNat, 2)])
  | .vsincos d a e t m => some (packWord 0xF4000000 [(d.toNat, 21), (a.toNat, 16), (bitNat e, 15), (t.toNat, 6), (m.toNat, 2)])
  | .vtanh d a e t m => some (packWord 0xF8000000 [(d.toNat, 21), (a.toNat, 16), (bitNat e, 15), (t.toNat, 6), (m.toNat, 2)])
  | .mac r s o e p => some (packWord 0x04000000 [(r.toNat, 18), (s.toNat, 13), (o.toNat, 11), (bitNat e, 10), (p.toNat, 0)])
  | .mwld k s p => some (packWord 0x08000000 [(k.toNat, 18), (s.toNat, 13), (p.toNat, 0)])
  | .mswp p => some (packWord 0x0C000000 [(p.toNat, 0)])
  | .mdrn d r s m c p => some (packWord 0x10000000 [(d.toNat, 21), (r.toNat, 13), (s.toNat, 9), (bitNat m, 8), (bitNat c, 7), (p.toNat, 0)])
  | .mfmt a w p => some (packWord 0x14000000 [(a.toNat, 22), (w.toNat, 18), (p.toNat, 0)])
  | .mchk p => some (packWord 0x18000000 [(p.toNat, 0)])
  | .mloc p => some (packWord 0x1C000000 [(p.toNat, 0)])
  | .mfix p => some (packWord 0x20000000 [(p.toNat, 0)])
  | .mmpb a e p => some (packWord 0x24000000 [(a.toNat, 13), (bitNat e, 10), (p.toNat, 0)])
  | .mclr r c p => some (packWord 0x28000000 [(r.toNat, 18), (c.toNat, 10), (p.toNat, 0)])
  | .vld d s p => some (packWord 0x04000000 [(d.toNat, 21), (s.toNat, 17), (p.toNat, 0)])
  | .vst v s e p => some (packWord 0x08000000 [(v.toNat, 21), (s.toNat, 17), (bitNat e, 16), (p.toNat, 0)])
  | .vlda d a e s o p => some (packWord 0x0C000000 [(d.toNat, 21), (a.toNat, 16), (bitNat e, 15), (bitNat s, 13), (o.toNat, 3), (p.toNat, 0)])
  | .vsta v a e f s o p => some (packWord 0x10000000 [(v.toNat, 21), (a.toNat, 16), (bitNat e, 15), (bitNat f, 14), (bitNat s, 13), (o.toNat, 3), (p.toNat, 0)])
  | .lds d a e s z g o p => some (packWord 0x14000000 [(d.toNat, 21), (a.toNat, 16), (bitNat e, 15), (bitNat s, 13), (z.toNat, 11), (bitNat g, 10), (o.toNat, 3), (p.toNat, 0)])
  | .sts v a e f s z o p => some (packWord 0x18000000 [(v.toNat, 21), (a.toNat, 16), (bitNat e, 15), (bitNat f, 14), (bitNat s, 13), (z.toNat, 11), (o.toNat, 3), (p.toNat, 0)])
  | .acst r s a e p => some (packWord 0x1C000000 [(r.toNat, 18), (s.toNat, 14), (a.toNat, 9), (bitNat e, 8), (p.toNat, 0)])
  | .acld r s a e p => some (packWord 0x20000000 [(r.toNat, 18), (s.toNat, 14), (a.toNat, 9), (bitNat e, 8), (p.toNat, 0)])
  | .stcfg s a e o p => some (packWord 0x24000000 [(s.toNat, 21), (a.toNat, 16), (bitNat e, 15), (o.toNat, 3), (p.toNat, 0)])
  | .stget d s l p => some (packWord 0x28000000 [(d.toNat, 21), (s.toNat, 17), (l.toNat, 13), (p.toNat, 0)])
  | .stset v s e l p => some (packWord 0x2C000000 [(v.toNat, 21), (s.toNat, 17), (bitNat e, 16), (l.toNat, 13), (p.toNat, 0)])
  | .stadv s l p => some (packWord 0x30000000 [(s.toNat, 17), (l.toNat, 13), (p.toNat, 0)])
  | .rpop o p => some (packWord 0x34000000 [(o.toNat, 21), (p.toNat, 0)])
  | .xrd d a e o p => some (packWord 0x38000000 [(d.toNat, 21), (a.toNat, 16), (bitNat e, 15), (o.toNat, 3), (p.toNat, 0)])
  | .cpy a e o p => some (packWord 0x04000000 [(a.toNat, 16), (bitNat e, 15), (o.toNat, 6), (p.toNat, 0)])
  | .sca a e o p => some (packWord 0x08000000 [(a.toNat, 16), (bitNat e, 15), (o.toNat, 6), (p.toNat, 0)])
  | .tsend t a e b f o p => some (packWord 0x0C000000 [(t.toNat, 21), (a.toNat, 16), (bitNat e, 15), (b.toNat, 10), (bitNat f, 9), (o.toNat, 3), (p.toNat, 0)])
  | .tktg d o p => some (packWord 0x10000000 [(d.toNat, 21), (o.toNat, 3), (p.toNat, 0)])
  | .fld a e o p => some (packWord 0x14000000 [(a.toNat, 16), (bitNat e, 15), (o.toNat, 6), (p.toNat, 0)])
  | .fst a e o p => some (packWord 0x18000000 [(a.toNat, 16), (bitNat e, 15), (o.toNat, 6), (p.toNat, 0)])
  | .fatm a e o p => some (packWord 0x1C000000 [(a.toNat, 16), (bitNat e, 15), (o.toNat, 6), (p.toNat, 0)])
  | .frep a e o p => some (packWord 0x20000000 [(a.toNat, 16), (bitNat e, 15), (o.toNat, 6), (p.toNat, 0)])
  | .bara a e r p => some (packWord 0x24000000 [(a.toNat, 16), (bitNat e, 15), (bitNat r, 8), (p.toNat, 0)])
  | .bari a e b f p => some (packWord 0x28000000 [(a.toNat, 16), (bitNat e, 15), (b.toNat, 10), (bitNat f, 9), (p.toNat, 0)])
  | .pfxlk a e o p => some (packWord 0x2C000000 [(a.toNat, 16), (bitNat e, 15), (o.toNat, 6), (p.toNat, 0)])
  | .pfxin a e o p => some (packWord 0x30000000 [(a.toNat, 16), (bitNat e, 15), (o.toNat, 6), (p.toNat, 0)])
  | .pfxref a e o p => some (packWord 0x34000000 [(a.toNat, 16), (bitNat e, 15), (o.toNat, 6), (p.toNat, 0)])
  | .pfxapp a e o p => some (packWord 0x38000000 [(a.toNat, 16), (bitNat e, 15), (o.toNat, 6), (p.toNat, 0)])
  | .pfxev a e o p => some (packWord 0x3C000000 [(a.toNat, 16), (bitNat e, 15), (o.toNat, 6), (p.toNat, 0)])
  | .kvmrg a e o p => some (packWord 0x40000000 [(a.toNat, 16), (bitNat e, 15), (o.toNat, 6), (p.toNat, 0)])
  | .mark p => some (packWord 0x44000000 [(p.toNat, 0)])
  | .jstat d a e p => some (packWord 0x48000000 [(d.toNat, 21), (a.toNat, 16), (bitNat e, 15), (p.toNat, 0)])
  | .branchFetchComplete _ _ _ => none
  | .fixedResultDelivery _ _ => none
  | .longLatencyWriteback _ _ _ => none
  | .checkpointCommit _ _ => none
  | .withheldStorePerform _ _ => none
  | .rerunPairCompare _ _ => none
  | .queueEntry _ => none
  | .arbiterDecide _ => none
  | .candidateStarving _ _ => none
  | .preempt _ => none
  | .budgetExpiry _ => none
  | .handover _ => none
  | .gangFiringOpen _ => none
  | .rngAnswer _ _ => none
  | .tktgGrant _ _ _ _ => none
  | .evpopRecordFill _ _ => none
  | .tokenFirstFlit => none
  | .tokenContinuationFlit => none
  | .creditReturn _ => none
  | .headAdvanceNotice _ => none
  | .cfgdoneAction _ _ => none
  | .markerAction _ _ => none
  | .drainAction _ _ => none
  | .sourceHardwareMark _ _ => none
  | .jobStart _ _ => none
  | .jobComplete _ _ => none
  | .mwldBeatLand _ => none
  | .caliperCompare _ _ => none
  | .pageWalk _ _ => none
  | .writeRequest => none
  | .readRequest => none
  | .readReply => none
  | .atomicRequest => none
  | .atomicReply => none
  | .acknowledgement => none
  | .refusal => none
  | .prefixRequest => none
  | .prefixReply => none
  | .frameTransmit _ => none
  | .linkFrameReceive _ _ => none
  | .linkRetryTimeout _ => none
  | .lossOfSignal _ => none
  | .escapeTimeout _ => none
  | .e2eResendTimeout _ _ _ => none
  | .heldSlotRelease _ _ => none
  | .slotTableSwitch => none
  | .linkTraining _ => none
  | .powerOn _ => none
  | .marginPlan _ => none
  | .powerLimit _ => none
  | .clockRestore _ => none
  | .thermalLimit _ => none
  | .thermalShutdown => none
  | .plinthFrameReceive _ => none
  | .plinthRetransmitTimeout _ => none
  | .plinthAckTimer _ => none
  | .config => none
  | .handle => none
  | .launchPrepare => none
  | .prepareReport => none
  | .launchApply => none
  | .launchAbort => none
  | .readyReport => none
  | .vread => none
  | .vwrite => none
  | .inject => none
  | .pagedata => none
  | .result => none
  | .bootBegin => none
  | .bootManifest => none
  | .bootData => none
  | .bootCfg => none
  | .bootEnd => none
  | .bootStatusReport => none
  | .mgmtCreatePartition => none
  | .mgmtDestroyPartition => none
  | .mgmtOpenChannel => none
  | .mgmtCloseChannel => none
  | .mgmtRestartCurator => none
  | .mgmtRetireCore => none
  | .mgmtInstallStorageKey => none
  | .mgmtAbortSegment => none
  | .mgmtRollBackRegion => none
  | .mgmtReplacePackage => none
  | .mgmtWriteRouting => none
  | .mgmtReadTelemetry => none
  | .mgmtAbandonRegion => none
  | .spdmVersion => none
  | .spdmCapabilities => none
  | .spdmAlgorithms => none
  | .spdmDigests => none
  | .spdmCertificate => none
  | .spdmChallenge => none
  | .spdmMeasurements => none
  | .spdmKeyExchange => none
  | .spdmFinish => none
  | .spdmKeyUpdate => none
  | .spdmEndSession => none
  | .hangPoll _ _ _ => none
  | .stopWavePackage => none
  | .stopReport => none
  | .drainPoll _ _ _ => none
  | .regionError => none
  | .regionRollback => none
  | .markerWaveStart _ _ => none
  | .sinkWaveReport => none
  | .waveCompletionBroadcast => none
  | .linkDownReport => none
  | .illegal _ _ => none
  | .softError _ => none
  | .mmpbLoadDone _ _ => none
  | .arrayInterlockExpiry _ _ _ => none
  | .arp _ => none
  | .neighbourDiscovery _ => none
  | .boundaryScan _ _ => none
  | .powerLoss => none

/-- A slot that the instruction may stand in (R83, R131); VB for the special functions. -/
def slotOf : Instr → Option Nat
  | .nop => some 0
  | .pbr _ _ => some 0
  | .pbrx _ _ _ _ _ => some 0
  | .br _ _ _ => some 0
  | .call _ _ _ _ => some 0
  | .loopImm _ _ _ => some 0
  | .loopReg _ _ _ _ => some 0
  | .loopKeep _ _ => some 0
  | .loopsl _ _ _ => some 0
  | .lbrk _ _ _ => some 0
  | .waitb _ _ _ _ _ _ _ => some 0
  | .waitt _ _ _ _ _ => some 0
  | .done _ _ => some 0
  | .ckpt _ _ => some 0
  | .fence _ _ _ _ _ => some 0
  | .trap _ _ _ => some 0
  | .brk _ _ _ => some 0
  | .getid _ _ _ => some 0
  | .evpop _ _ _ _ => some 0
  | .rdct _ _ _ _ => some 0
  | .rng _ _ _ _ => some 0
  | .mfc _ _ _ _ => some 0
  | .mtc _ _ _ _ _ => some 0
  | .mtcKcpc _ _ _ _ => some 0
  | .tret _ _ => some 0
  | .halt _ _ _ _ => some 0
  | .haltResume _ _ _ _ => some 0
  | .pstop _ _ _ _ => some 0
  | .pstopThaw _ _ _ _ => some 0
  | .pdrain _ _ _ _ => some 0
  | .csave _ _ _ _ _ _ => some 0
  | .cload _ _ _ _ _ _ => some 0
  | .tlbiAsid _ _ _ _ _ _ => some 0
  | .tlbiPage _ _ _ _ _ _ => some 0
  | .tlbiAll _ _ _ _ _ _ => some 0
  | .sltw _ _ _ _ _ _ => some 0
  | .sltwCommit _ _ _ _ _ _ => some 0
  | .lkey _ _ _ _ _ _ => some 0
  | .lksw _ _ _ _ => some 0
  | .retc _ _ _ _ => some 0
  | .retcCore _ _ _ _ => some 0
  | .jrsm _ _ _ _ => some 0
  | .jkil _ _ _ _ => some 0
  | .add _ _ _ _ _ _ => some 1
  | .sub _ _ _ _ _ _ => some 1
  | .and _ _ _ _ _ _ => some 1
  | .or _ _ _ _ _ _ => some 1
  | .xor _ _ _ _ _ _ => some 1
  | .andn _ _ _ _ _ _ => some 1
  | .sll _ _ _ _ _ _ => some 1
  | .srl _ _ _ _ _ _ => some 1
  | .sra _ _ _ _ _ _ => some 1
  | .rol _ _ _ _ _ _ => some 1
  | .min _ _ _ _ _ _ => some 1
  | .max _ _ _ _ _ _ => some 1
  | .minu _ _ _ _ _ _ => some 1
  | .maxu _ _ _ _ _ _ => some 1
  | .mul _ _ _ _ _ _ => some 1
  | .mulh _ _ _ _ _ _ => some 1
  | .mulhu _ _ _ _ _ _ => some 1
  | .div _ _ _ _ _ _ => some 1
  | .divu _ _ _ _ _ _ => some 1
  | .rem _ _ _ _ _ _ => some 1
  | .remu _ _ _ _ _ _ => some 1
  | .clz _ _ _ _ => some 1
  | .ctz _ _ _ _ => some 1
  | .popc _ _ _ _ => some 1
  | .brev _ _ _ _ => some 1
  | .extb _ _ _ _ => some 1
  | .exth _ _ _ _ => some 1
  | .extw _ _ _ _ => some 1
  | .exbu _ _ _ _ => some 1
  | .exhu _ _ _ _ => some 1
  | .exwu _ _ _ _ => some 1
  | .addi _ _ _ _ _ => some 1
  | .andi _ _ _ _ _ => some 1
  | .ori _ _ _ _ _ => some 1
  | .xori _ _ _ _ _ => some 1
  | .slli _ _ _ _ _ => some 1
  | .srli _ _ _ _ _ => some 1
  | .srai _ _ _ _ _ => some 1
  | .muli _ _ _ _ _ => some 1
  | .lim _ _ _ _ => some 1
  | .lik _ _ _ _ => some 1
  | .cmp _ _ _ _ _ _ _ => some 1
  | .cmpi _ _ _ _ _ _ => some 1
  | .sel _ _ _ _ _ _ _ => some 1
  | .pand _ _ _ _ _ _ => some 1
  | .por _ _ _ _ _ _ => some 1
  | .pxor _ _ _ _ _ _ => some 1
  | .pnot _ _ _ _ => some 1
  | .dadd _ _ _ _ _ _ _ => some 1
  | .dsub _ _ _ _ _ _ _ => some 1
  | .dmul _ _ _ _ _ _ _ => some 1
  | .ddiv _ _ _ _ _ _ _ => some 1
  | .dsqrt _ _ _ _ _ => some 1
  | .dmin _ _ _ _ _ _ => some 1
  | .dmax _ _ _ _ _ _ => some 1
  | .dabs _ _ _ _ => some 1
  | .dneg _ _ _ _ => some 1
  | .dfma _ _ _ _ _ _ _ => some 1
  | .dfms _ _ _ _ _ _ _ => some 1
  | .dnfma _ _ _ _ _ _ _ => some 1
  | .dnfms _ _ _ _ _ _ _ => some 1
  | .fadd _ _ _ _ _ _ _ => some 1
  | .fsub _ _ _ _ _ _ _ => some 1
  | .fmul _ _ _ _ _ _ _ => some 1
  | .fdiv _ _ _ _ _ _ _ => some 1
  | .fsqrt _ _ _ _ _ => some 1
  | .fmin _ _ _ _ _ _ => some 1
  | .fmax _ _ _ _ _ _ => some 1
  | .ffma _ _ _ _ _ _ _ => some 1
  | .i2d _ _ _ _ _ => some 1
  | .u2d _ _ _ _ _ => some 1
  | .d2i _ _ _ _ _ => some 1
  | .d2u _ _ _ _ _ => some 1
  | .f2d _ _ _ _ _ => some 1
  | .d2f _ _ _ _ _ => some 1
  | .i2f _ _ _ _ _ => some 1
  | .f2i _ _ _ _ _ => some 1
  | .mfs _ _ _ => some 1
  | .mts _ _ _ _ => some 1
  | .vadd _ _ _ _ _ _ _ _ => some 3
  | .vsub _ _ _ _ _ _ _ _ => some 3
  | .vmul _ _ _ _ _ _ _ _ => some 3
  | .vfma _ _ _ _ _ _ _ _ => some 3
  | .vfms _ _ _ _ _ _ _ _ => some 3
  | .vmin _ _ _ _ _ _ _ _ => some 3
  | .vmax _ _ _ _ _ _ _ _ => some 3
  | .vmaxm _ _ _ _ _ _ _ _ => some 3
  | .vabs _ _ _ _ _ => some 3
  | .vneg _ _ _ _ _ => some 3
  | .vcmpeq _ _ _ _ _ _ _ _ => some 3
  | .vcmplt _ _ _ _ _ _ _ _ => some 3
  | .vcmple _ _ _ _ _ _ _ _ => some 3
  | .vcmpun _ _ _ _ _ _ _ _ => some 3
  | .vcmpm _ _ _ => some 3
  | .vand _ _ _ _ _ _ _ _ => some 3
  | .vor _ _ _ _ _ _ _ _ => some 3
  | .vxor _ _ _ _ _ _ _ _ => some 3
  | .vshl _ _ _ _ _ _ _ _ => some 3
  | .vshr _ _ _ _ _ _ _ _ => some 3
  | .vsra _ _ _ _ _ _ _ _ => some 3
  | .vbld _ _ _ _ _ _ _ _ => some 3
  | .vbc _ _ _ _ _ => some 3
  | .vins _ _ _ _ _ _ _ => some 3
  | .vext _ _ _ _ _ _ => some 3
  | .vperm _ _ _ _ _ _ _ => some 3
  | .vrot _ _ _ _ _ _ _ _ => some 3
  | .vred _ _ _ _ _ _ => some 3
  | .vscan _ _ _ _ _ _ => some 3
  | .vcvt _ _ _ _ _ _ _ _ => some 3
  | .vqnt _ _ _ _ _ _ _ => some 3
  | .vdqnt _ _ _ _ _ _ _ => some 3
  | .vhad _ _ _ _ _ _ _ => some 3
  | .vsmrg _ _ _ _ _ => some 3
  | .vsmup _ _ _ _ _ _ _ => some 3
  | .vchc _ _ _ _ _ _ _ => some 3
  | .vch _ _ _ _ _ => some 3
  | .mand _ _ _ _ _ => some 3
  | .mor _ _ _ _ _ => some 3
  | .mxor _ _ _ _ _ => some 3
  | .mnot _ _ _ => some 3
  | .mfx _ _ _ => some 3
  | .mtx _ _ _ => some 3
  | .mbitSet _ _ _ _ => some 3
  | .mbitClr _ _ _ _ => some 3
  | .mbitInv _ _ _ _ => some 3
  | .vexp2 _ _ _ _ _ => some 4
  | .vlog2 _ _ _ _ _ => some 4
  | .vrcp _ _ _ _ _ => some 4
  | .vrsq _ _ _ _ _ => some 4
  | .vsqrt _ _ _ _ _ => some 4
  | .vsincos _ _ _ _ _ => some 4
  | .vtanh _ _ _ _ _ => some 4
  | .mac _ _ _ _ _ => some 5
  | .mwld _ _ _ => some 5
  | .mswp _ => some 5
  | .mdrn _ _ _ _ _ _ => some 5
  | .mfmt _ _ _ => some 5
  | .mchk _ => some 5
  | .mloc _ => some 5
  | .mfix _ => some 5
  | .mmpb _ _ _ => some 5
  | .mclr _ _ _ => some 5
  | .vld _ _ _ => some 6
  | .vst _ _ _ _ => some 6
  | .vlda _ _ _ _ _ _ => some 6
  | .vsta _ _ _ _ _ _ _ => some 6
  | .lds _ _ _ _ _ _ _ _ => some 6
  | .sts _ _ _ _ _ _ _ _ => some 6
  | .acst _ _ _ _ _ => some 6
  | .acld _ _ _ _ _ => some 6
  | .stcfg _ _ _ _ _ => some 6
  | .stget _ _ _ _ => some 6
  | .stset _ _ _ _ _ => some 6
  | .stadv _ _ _ => some 6
  | .rpop _ _ => some 6
  | .xrd _ _ _ _ _ => some 6
  | .cpy _ _ _ _ => some 7
  | .sca _ _ _ _ => some 7
  | .tsend _ _ _ _ _ _ _ => some 7
  | .tktg _ _ _ => some 7
  | .fld _ _ _ _ => some 7
  | .fst _ _ _ _ => some 7
  | .fatm _ _ _ _ => some 7
  | .frep _ _ _ _ => some 7
  | .bara _ _ _ _ => some 7
  | .bari _ _ _ _ _ => some 7
  | .pfxlk _ _ _ _ => some 7
  | .pfxin _ _ _ _ => some 7
  | .pfxref _ _ _ _ => some 7
  | .pfxapp _ _ _ _ => some 7
  | .pfxev _ _ _ _ => some 7
  | .kvmrg _ _ _ _ => some 7
  | .mark _ => some 7
  | .jstat _ _ _ _ => some 7
  | .branchFetchComplete _ _ _ => none
  | .fixedResultDelivery _ _ => none
  | .longLatencyWriteback _ _ _ => none
  | .checkpointCommit _ _ => none
  | .withheldStorePerform _ _ => none
  | .rerunPairCompare _ _ => none
  | .queueEntry _ => none
  | .arbiterDecide _ => none
  | .candidateStarving _ _ => none
  | .preempt _ => none
  | .budgetExpiry _ => none
  | .handover _ => none
  | .gangFiringOpen _ => none
  | .rngAnswer _ _ => none
  | .tktgGrant _ _ _ _ => none
  | .evpopRecordFill _ _ => none
  | .tokenFirstFlit => none
  | .tokenContinuationFlit => none
  | .creditReturn _ => none
  | .headAdvanceNotice _ => none
  | .cfgdoneAction _ _ => none
  | .markerAction _ _ => none
  | .drainAction _ _ => none
  | .sourceHardwareMark _ _ => none
  | .jobStart _ _ => none
  | .jobComplete _ _ => none
  | .mwldBeatLand _ => none
  | .caliperCompare _ _ => none
  | .pageWalk _ _ => none
  | .writeRequest => none
  | .readRequest => none
  | .readReply => none
  | .atomicRequest => none
  | .atomicReply => none
  | .acknowledgement => none
  | .refusal => none
  | .prefixRequest => none
  | .prefixReply => none
  | .frameTransmit _ => none
  | .linkFrameReceive _ _ => none
  | .linkRetryTimeout _ => none
  | .lossOfSignal _ => none
  | .escapeTimeout _ => none
  | .e2eResendTimeout _ _ _ => none
  | .heldSlotRelease _ _ => none
  | .slotTableSwitch => none
  | .linkTraining _ => none
  | .powerOn _ => none
  | .marginPlan _ => none
  | .powerLimit _ => none
  | .clockRestore _ => none
  | .thermalLimit _ => none
  | .thermalShutdown => none
  | .plinthFrameReceive _ => none
  | .plinthRetransmitTimeout _ => none
  | .plinthAckTimer _ => none
  | .config => none
  | .handle => none
  | .launchPrepare => none
  | .prepareReport => none
  | .launchApply => none
  | .launchAbort => none
  | .readyReport => none
  | .vread => none
  | .vwrite => none
  | .inject => none
  | .pagedata => none
  | .result => none
  | .bootBegin => none
  | .bootManifest => none
  | .bootData => none
  | .bootCfg => none
  | .bootEnd => none
  | .bootStatusReport => none
  | .mgmtCreatePartition => none
  | .mgmtDestroyPartition => none
  | .mgmtOpenChannel => none
  | .mgmtCloseChannel => none
  | .mgmtRestartCurator => none
  | .mgmtRetireCore => none
  | .mgmtInstallStorageKey => none
  | .mgmtAbortSegment => none
  | .mgmtRollBackRegion => none
  | .mgmtReplacePackage => none
  | .mgmtWriteRouting => none
  | .mgmtReadTelemetry => none
  | .mgmtAbandonRegion => none
  | .spdmVersion => none
  | .spdmCapabilities => none
  | .spdmAlgorithms => none
  | .spdmDigests => none
  | .spdmCertificate => none
  | .spdmChallenge => none
  | .spdmMeasurements => none
  | .spdmKeyExchange => none
  | .spdmFinish => none
  | .spdmKeyUpdate => none
  | .spdmEndSession => none
  | .hangPoll _ _ _ => none
  | .stopWavePackage => none
  | .stopReport => none
  | .drainPoll _ _ _ => none
  | .regionError => none
  | .regionRollback => none
  | .markerWaveStart _ _ => none
  | .sinkWaveReport => none
  | .waveCompletionBroadcast => none
  | .linkDownReport => none
  | .illegal _ _ => none
  | .softError _ => none
  | .mmpbLoadDone _ _ => none
  | .arrayInterlockExpiry _ _ _ => none
  | .arp _ => none
  | .neighbourDiscovery _ => none
  | .boundaryScan _ _ => none
  | .powerLoss => none

/-- How many bits of its word the table fixes for an instruction: the row that fixes most is the closest match. -/
def fixedBits : Instr → Nat
  | .nop => 32
  | .pbr _ _ => 6
  | .pbrx _ _ _ _ _ => 20
  | .br _ _ _ => 26
  | .call _ _ _ _ => 21
  | .loopImm _ _ _ => 7
  | .loopReg _ _ _ _ => 15
  | .loopKeep _ _ => 21
  | .loopsl _ _ _ => 17
  | .lbrk _ _ _ => 25
  | .waitb _ _ _ _ _ _ _ => 11
  | .waitt _ _ _ _ _ => 19
  | .done _ _ => 28
  | .ckpt _ _ => 28
  | .fence _ _ _ _ _ => 8
  | .trap _ _ _ => 12
  | .brk _ _ _ => 12
  | .getid _ _ _ => 23
  | .evpop _ _ _ _ => 18
  | .rdct _ _ _ _ => 18
  | .rng _ _ _ _ => 20
  | .mfc _ _ _ _ => 12
  | .mtc _ _ _ _ _ => 11
  | .mtcKcpc _ _ _ _ => 22
  | .tret _ _ => 28
  | .halt _ _ _ _ => 22
  | .haltResume _ _ _ _ => 22
  | .pstop _ _ _ _ => 22
  | .pstopThaw _ _ _ _ => 22
  | .pdrain _ _ _ _ => 22
  | .csave _ _ _ _ _ _ => 16
  | .cload _ _ _ _ _ _ => 16
  | .tlbiAsid _ _ _ _ _ _ => 16
  | .tlbiPage _ _ _ _ _ _ => 16
  | .tlbiAll _ _ _ _ _ _ => 16
  | .sltw _ _ _ _ _ _ => 16
  | .sltwCommit _ _ _ _ _ _ => 16
  | .lkey _ _ _ _ _ _ => 16
  | .lksw _ _ _ _ => 22
  | .retc _ _ _ _ => 22
  | .retcCore _ _ _ _ => 22
  | .jrsm _ _ _ _ => 22
  | .jkil _ _ _ _ => 22
  | .add _ _ _ _ _ _ => 12
  | .sub _ _ _ _ _ _ => 12
  | .and _ _ _ _ _ _ => 12
  | .or _ _ _ _ _ _ => 12
  | .xor _ _ _ _ _ _ => 12
  | .andn _ _ _ _ _ _ => 12
  | .sll _ _ _ _ _ _ => 12
  | .srl _ _ _ _ _ _ => 12
  | .sra _ _ _ _ _ _ => 12
  | .rol _ _ _ _ _ _ => 12
  | .min _ _ _ _ _ _ => 12
  | .max _ _ _ _ _ _ => 12
  | .minu _ _ _ _ _ _ => 12
  | .maxu _ _ _ _ _ _ => 12
  | .mul _ _ _ _ _ _ => 12
  | .mulh _ _ _ _ _ _ => 12
  | .mulhu _ _ _ _ _ _ => 12
  | .div _ _ _ _ _ _ => 12
  | .divu _ _ _ _ _ _ => 12
  | .rem _ _ _ _ _ _ => 12
  | .remu _ _ _ _ _ _ => 12
  | .clz _ _ _ _ => 18
  | .ctz _ _ _ _ => 18
  | .popc _ _ _ _ => 18
  | .brev _ _ _ _ => 18
  | .extb _ _ _ _ => 18
  | .exth _ _ _ _ => 18
  | .extw _ _ _ _ => 18
  | .exbu _ _ _ _ => 18
  | .exhu _ _ _ _ => 18
  | .exwu _ _ _ _ => 18
  | .addi _ _ _ _ _ => 6
  | .andi _ _ _ _ _ => 6
  | .ori _ _ _ _ _ => 6
  | .xori _ _ _ _ _ => 6
  | .slli _ _ _ _ _ => 12
  | .srli _ _ _ _ _ => 12
  | .srai _ _ _ _ _ => 12
  | .muli _ _ _ _ _ => 6
  | .lim _ _ _ _ => 6
  | .lik _ _ _ _ => 6
  | .cmp _ _ _ _ _ _ _ => 10
  | .cmpi _ _ _ _ _ _ => 6
  | .sel _ _ _ _ _ _ _ => 9
  | .pand _ _ _ _ _ _ => 18
  | .por _ _ _ _ _ _ => 18
  | .pxor _ _ _ _ _ _ => 18
  | .pnot _ _ _ _ => 22
  | .dadd _ _ _ _ _ _ _ => 9
  | .dsub _ _ _ _ _ _ _ => 9
  | .dmul _ _ _ _ _ _ _ => 9
  | .ddiv _ _ _ _ _ _ _ => 9
  | .dsqrt _ _ _ _ _ => 15
  | .dmin _ _ _ _ _ _ => 12
  | .dmax _ _ _ _ _ _ => 12
  | .dabs _ _ _ _ => 18
  | .dneg _ _ _ _ => 18
  | .dfma _ _ _ _ _ _ _ => 9
  | .dfms _ _ _ _ _ _ _ => 9
  | .dnfma _ _ _ _ _ _ _ => 9
  | .dnfms _ _ _ _ _ _ _ => 9
  | .fadd _ _ _ _ _ _ _ => 9
  | .fsub _ _ _ _ _ _ _ => 9
  | .fmul _ _ _ _ _ _ _ => 9
  | .fdiv _ _ _ _ _ _ _ => 9
  | .fsqrt _ _ _ _ _ => 15
  | .fmin _ _ _ _ _ _ => 12
  | .fmax _ _ _ _ _ _ => 12
  | .ffma _ _ _ _ _ _ _ => 9
  | .i2d _ _ _ _ _ => 15
  | .u2d _ _ _ _ _ => 15
  | .d2i _ _ _ _ _ => 15
  | .d2u _ _ _ _ _ => 15
  | .f2d _ _ _ _ _ => 15
  | .d2f _ _ _ _ _ => 15
  | .i2f _ _ _ _ _ => 15
  | .f2i _ _ _ _ _ => 15
  | .mfs _ _ _ => 12
  | .mts _ _ _ _ => 11
  | .vadd _ _ _ _ _ _ _ _ => 6
  | .vsub _ _ _ _ _ _ _ _ => 6
  | .vmul _ _ _ _ _ _ _ _ => 6
  | .vfma _ _ _ _ _ _ _ _ => 6
  | .vfms _ _ _ _ _ _ _ _ => 6
  | .vmin _ _ _ _ _ _ _ _ => 6
  | .vmax _ _ _ _ _ _ _ _ => 6
  | .vmaxm _ _ _ _ _ _ _ _ => 6
  | .vabs _ _ _ _ _ => 14
  | .vneg _ _ _ _ _ => 14
  | .vcmpeq _ _ _ _ _ _ _ _ => 6
  | .vcmplt _ _ _ _ _ _ _ _ => 6
  | .vcmple _ _ _ _ _ _ _ _ => 6
  | .vcmpun _ _ _ _ _ _ _ _ => 6
  | .vcmpm _ _ _ => 22
  | .vand _ _ _ _ _ _ _ _ => 6
  | .vor _ _ _ _ _ _ _ _ => 6
  | .vxor _ _ _ _ _ _ _ _ => 6
  | .vshl _ _ _ _ _ _ _ _ => 6
  | .vshr _ _ _ _ _ _ _ _ => 6
  | .vsra _ _ _ _ _ _ _ _ => 6
  | .vbld _ _ _ _ _ _ _ _ => 6
  | .vbc _ _ _ _ _ => 14
  | .vins _ _ _ _ _ _ _ => 8
  | .vext _ _ _ _ _ _ => 12
  | .vperm _ _ _ _ _ _ _ => 8
  | .vrot _ _ _ _ _ _ _ _ => 6
  | .vred _ _ _ _ _ _ => 9
  | .vscan _ _ _ _ _ _ => 9
  | .vcvt _ _ _ _ _ _ _ _ => 8
  | .vqnt _ _ _ _ _ _ _ => 8
  | .vdqnt _ _ _ _ _ _ _ => 8
  | .vhad _ _ _ _ _ _ _ => 10
  | .vsmrg _ _ _ _ _ => 14
  | .vsmup _ _ _ _ _ _ _ => 8
  | .vchc _ _ _ _ _ _ _ => 9
  | .vch _ _ _ _ _ => 14
  | .mand _ _ _ _ _ => 18
  | .mor _ _ _ _ _ => 18
  | .mxor _ _ _ _ _ => 18
  | .mnot _ _ _ => 23
  | .mfx _ _ _ => 22
  | .mtx _ _ _ => 22
  | .mbitSet _ _ _ _ => 19
  | .mbitClr _ _ _ _ => 19
  | .mbitInv _ _ _ _ => 19
  | .vexp2 _ _ _ _ _ => 14
  | .vlog2 _ _ _ _ _ => 14
  | .vrcp _ _ _ _ _ => 14
  | .vrsq _ _ _ _ _ => 14
  | .vsqrt _ _ _ _ _ => 14
  | .vsincos _ _ _ _ _ => 14
  | .vtanh _ _ _ _ _ => 14
  | .mac _ _ _ _ _ => 13
  | .mwld _ _ _ => 19
  | .mswp _ => 29
  | .mdrn _ _ _ _ _ _ => 10
  | .mfmt _ _ _ => 21
  | .mchk _ => 29
  | .mloc _ => 29
  | .mfix _ => 29
  | .mmpb _ _ _ => 23
  | .mclr _ _ _ => 16
  | .vld _ _ _ => 20
  | .vst _ _ _ _ => 19
  | .vlda _ _ _ _ _ _ => 7
  | .vsta _ _ _ _ _ _ _ => 6
  | .lds _ _ _ _ _ _ _ _ => 7
  | .sts _ _ _ _ _ _ _ _ => 7
  | .acst _ _ _ _ _ => 11
  | .acld _ _ _ _ _ => 11
  | .stcfg _ _ _ _ _ => 9
  | .stget _ _ _ _ => 17
  | .stset _ _ _ _ _ => 16
  | .stadv _ _ _ => 22
  | .rpop _ _ => 26
  | .xrd _ _ _ _ _ => 8
  | .cpy _ _ _ _ => 14
  | .sca _ _ _ _ => 14
  | .tsend _ _ _ _ _ _ _ => 9
  | .tktg _ _ _ => 21
  | .fld _ _ _ _ => 14
  | .fst _ _ _ _ => 14
  | .fatm _ _ _ _ => 14
  | .frep _ _ _ _ => 14
  | .bara _ _ _ _ => 22
  | .bari _ _ _ _ _ => 17
  | .pfxlk _ _ _ _ => 14
  | .pfxin _ _ _ _ => 14
  | .pfxref _ _ _ _ => 14
  | .pfxapp _ _ _ _ => 14
  | .pfxev _ _ _ _ => 14
  | .kvmrg _ _ _ _ => 14
  | .mark _ => 29
  | .jstat _ _ _ _ => 20
  | .branchFetchComplete _ _ _ => 0
  | .fixedResultDelivery _ _ => 0
  | .longLatencyWriteback _ _ _ => 0
  | .checkpointCommit _ _ => 0
  | .withheldStorePerform _ _ => 0
  | .rerunPairCompare _ _ => 0
  | .queueEntry _ => 0
  | .arbiterDecide _ => 0
  | .candidateStarving _ _ => 0
  | .preempt _ => 0
  | .budgetExpiry _ => 0
  | .handover _ => 0
  | .gangFiringOpen _ => 0
  | .rngAnswer _ _ => 0
  | .tktgGrant _ _ _ _ => 0
  | .evpopRecordFill _ _ => 0
  | .tokenFirstFlit => 0
  | .tokenContinuationFlit => 0
  | .creditReturn _ => 0
  | .headAdvanceNotice _ => 0
  | .cfgdoneAction _ _ => 0
  | .markerAction _ _ => 0
  | .drainAction _ _ => 0
  | .sourceHardwareMark _ _ => 0
  | .jobStart _ _ => 0
  | .jobComplete _ _ => 0
  | .mwldBeatLand _ => 0
  | .caliperCompare _ _ => 0
  | .pageWalk _ _ => 0
  | .writeRequest => 0
  | .readRequest => 0
  | .readReply => 0
  | .atomicRequest => 0
  | .atomicReply => 0
  | .acknowledgement => 0
  | .refusal => 0
  | .prefixRequest => 0
  | .prefixReply => 0
  | .frameTransmit _ => 0
  | .linkFrameReceive _ _ => 0
  | .linkRetryTimeout _ => 0
  | .lossOfSignal _ => 0
  | .escapeTimeout _ => 0
  | .e2eResendTimeout _ _ _ => 0
  | .heldSlotRelease _ _ => 0
  | .slotTableSwitch => 0
  | .linkTraining _ => 0
  | .powerOn _ => 0
  | .marginPlan _ => 0
  | .powerLimit _ => 0
  | .clockRestore _ => 0
  | .thermalLimit _ => 0
  | .thermalShutdown => 0
  | .plinthFrameReceive _ => 0
  | .plinthRetransmitTimeout _ => 0
  | .plinthAckTimer _ => 0
  | .config => 0
  | .handle => 0
  | .launchPrepare => 0
  | .prepareReport => 0
  | .launchApply => 0
  | .launchAbort => 0
  | .readyReport => 0
  | .vread => 0
  | .vwrite => 0
  | .inject => 0
  | .pagedata => 0
  | .result => 0
  | .bootBegin => 0
  | .bootManifest => 0
  | .bootData => 0
  | .bootCfg => 0
  | .bootEnd => 0
  | .bootStatusReport => 0
  | .mgmtCreatePartition => 0
  | .mgmtDestroyPartition => 0
  | .mgmtOpenChannel => 0
  | .mgmtCloseChannel => 0
  | .mgmtRestartCurator => 0
  | .mgmtRetireCore => 0
  | .mgmtInstallStorageKey => 0
  | .mgmtAbortSegment => 0
  | .mgmtRollBackRegion => 0
  | .mgmtReplacePackage => 0
  | .mgmtWriteRouting => 0
  | .mgmtReadTelemetry => 0
  | .mgmtAbandonRegion => 0
  | .spdmVersion => 0
  | .spdmCapabilities => 0
  | .spdmAlgorithms => 0
  | .spdmDigests => 0
  | .spdmCertificate => 0
  | .spdmChallenge => 0
  | .spdmMeasurements => 0
  | .spdmKeyExchange => 0
  | .spdmFinish => 0
  | .spdmKeyUpdate => 0
  | .spdmEndSession => 0
  | .hangPoll _ _ _ => 0
  | .stopWavePackage => 0
  | .stopReport => 0
  | .drainPoll _ _ _ => 0
  | .regionError => 0
  | .regionRollback => 0
  | .markerWaveStart _ _ => 0
  | .sinkWaveReport => 0
  | .waveCompletionBroadcast => 0
  | .linkDownReport => 0
  | .illegal _ _ => 0
  | .softError _ => 0
  | .mmpbLoadDone _ _ => 0
  | .arrayInterlockExpiry _ _ _ => 0
  | .arp _ => 0
  | .neighbourDiscovery _ => 0
  | .boundaryScan _ _ => 0
  | .powerLoss => 0

/-- The form that decoding gives an instruction: the first of the rows that share its words. -/
def canonForm : Instr → Instr
  | .haltResume a e n p => .halt a e n p
  | .pstopThaw a e n p => .pstop a e n p
  | .tlbiPage a e b f n p => .tlbiAsid a e b f n p
  | .tlbiAll a e b f n p => .tlbiAsid a e b f n p
  | .sltwCommit a e b f n p => .sltw a e b f n p
  | .retcCore a e n p => .retc a e n p
  | i => i

/-- The better of two slots for a word that names no slot: the one whose row fixes more bits, the lower on a tie. -/
def betterSlot (w : Nat) (best : Option (Nat × Instr)) (n : Nat) : Option (Nat × Instr) :=
  match decodeSlot n w with
  | .error _ => best
  | .ok i =>
    match best with
    | none => some (n, i)
    | some (m, j) => if fixedBits j < fixedBits i then some (n, i) else some (m, j)

/-- The slot that a word of the opcode table is read in (the table names none): the slot whose row fixes most bits. -/
def tableSlot (w : Nat) : Option (Nat × Instr) :=
  [0, 1, 3, 4, 5, 6, 7].foldl (betterSlot w) none

/-- What the decoder reads from a slot word of the opcode table; every slot word has 32 bits. -/
def decodeTableWord (nbits w : Nat) : Option Instr :=
  if nbits = 32 ∧ w < 2 ^ 32 then (tableSlot w).map (·.2) else none

end Sys2Proof
end

