-- ==== Sys2Proof/Machine/Operands.lean ====
section
/-!
DEFINITION. The operands of every slot instruction (05 R117 to R137): its guard, the registers it reads with their e
bits, the registers it writes; and the gate that every slot instruction passes before it acts (04 R84 to R89).
-/
namespace Sys2Proof.Machine

/-- A register source and its e bit (R88). -/
abbrev Src := RegName × Bool

def xs {w : Nat} (n : BitVec w) (e : Bool) : List Src := [(xReg n.toNat, e)]
def vs {w : Nat} (n : BitVec w) (e : Bool) : List Src := [(vReg n.toNat, e)]
def ms {w : Nat} (n : BitVec w) (e : Bool) : List Src := [(mReg n.toNat, e)]
def qs {w : Nat} (n : BitVec w) (e : Bool) : List Src := [(qReg n.toNat, e)]

/-- The lane-mask selector, a source without an e bit (R88). -/
def mk (m : BitVec 4) : List Src := [(mReg m.toNat, false)]

/-- The old destination, read when mk is nonzero (R178). -/
def oldv (d : BitVec 5) (m : BitVec 4) : List Src := if m = 0 then [] else [(vReg d.toNat, false)]

/-- The second vector operand: a v register, a broadcast x register, or an immediate (R129). -/
def bsrc (b : BitVec 5) (f : Bool) (u : BitVec 2) : List Src :=
  if u = 0 then [(vReg b.toNat, f)] else if u = 1 then [(xReg b.toNat, f)] else []

/-- The second operand of VCMPLT and VCMPLE, where sub 10 selects the unsigned compare of a v register (R185). -/
def cmpsrc (b : BitVec 5) (f : Bool) (u : BitVec 2) : List Src := bsrc b f (if u = 2 then 0 else u)

/-- A MAC source: stream sources are no registers (R221). -/
def macSrc (s : BitVec 5) (e : Bool) : List Src := if 16 ≤ s.toNat then [(vReg (s.toNat - 16), e)] else []

/-- The guard of an instruction: its predicate and its sense (R119). -/
def guardOf : Instr → Option (Nat × Bool)
  | .nop => none
  | .pbr _ _ => none
  | .pbrx _ _ _ n p => some (p.toNat, n)
  | .br _ _ _ => none
  | .call _ _ _ _ => none
  | .loopImm _ _ _ => none
  | .loopReg _ _ _ _ => none
  | .loopKeep _ _ => none
  | .loopsl _ _ _ => none
  | .lbrk _ _ _ => none
  | .waitb _ _ _ _ _ n p => some (p.toNat, n)
  | .waitt _ _ _ n p => some (p.toNat, n)
  | .done n p => some (p.toNat, n)
  | .ckpt n p => some (p.toNat, n)
  | .fence _ _ _ n p => some (p.toNat, n)
  | .trap _ n p => some (p.toNat, n)
  | .brk _ n p => some (p.toNat, n)
  | .getid _ n p => some (p.toNat, n)
  | .evpop _ _ n p => some (p.toNat, n)
  | .rdct _ _ n p => some (p.toNat, n)
  | .rng _ _ n p => some (p.toNat, n)
  | .mfc _ _ n p => some (p.toNat, n)
  | .mtc _ _ _ n p => some (p.toNat, n)
  | .mtcKcpc _ _ n p => some (p.toNat, n)
  | .tret n p => some (p.toNat, n)
  | .halt _ _ n p => some (p.toNat, n)
  | .haltResume _ _ n p => some (p.toNat, n)
  | .pstop _ _ n p => some (p.toNat, n)
  | .pstopThaw _ _ n p => some (p.toNat, n)
  | .pdrain _ _ n p => some (p.toNat, n)
  | .csave _ _ _ _ n p => some (p.toNat, n)
  | .cload _ _ _ _ n p => some (p.toNat, n)
  | .tlbiAsid _ _ _ _ n p => some (p.toNat, n)
  | .tlbiPage _ _ _ _ n p => some (p.toNat, n)
  | .tlbiAll _ _ _ _ n p => some (p.toNat, n)
  | .sltw _ _ _ _ n p => some (p.toNat, n)
  | .sltwCommit _ _ _ _ n p => some (p.toNat, n)
  | .lkey _ _ _ _ n p => some (p.toNat, n)
  | .lksw _ _ n p => some (p.toNat, n)
  | .retc _ _ n p => some (p.toNat, n)
  | .retcCore _ _ n p => some (p.toNat, n)
  | .jrsm _ _ n p => some (p.toNat, n)
  | .jkil _ _ n p => some (p.toNat, n)
  | .add _ _ _ _ _ p => some (p.toNat, false)
  | .sub _ _ _ _ _ p => some (p.toNat, false)
  | .and _ _ _ _ _ p => some (p.toNat, false)
  | .or _ _ _ _ _ p => some (p.toNat, false)
  | .xor _ _ _ _ _ p => some (p.toNat, false)
  | .andn _ _ _ _ _ p => some (p.toNat, false)
  | .sll _ _ _ _ _ p => some (p.toNat, false)
  | .srl _ _ _ _ _ p => some (p.toNat, false)
  | .sra _ _ _ _ _ p => some (p.toNat, false)
  | .rol _ _ _ _ _ p => some (p.toNat, false)
  | .min _ _ _ _ _ p => some (p.toNat, false)
  | .max _ _ _ _ _ p => some (p.toNat, false)
  | .minu _ _ _ _ _ p => some (p.toNat, false)
  | .maxu _ _ _ _ _ p => some (p.toNat, false)
  | .mul _ _ _ _ _ p => some (p.toNat, false)
  | .mulh _ _ _ _ _ p => some (p.toNat, false)
  | .mulhu _ _ _ _ _ p => some (p.toNat, false)
  | .div _ _ _ _ _ p => some (p.toNat, false)
  | .divu _ _ _ _ _ p => some (p.toNat, false)
  | .rem _ _ _ _ _ p => some (p.toNat, false)
  | .remu _ _ _ _ _ p => some (p.toNat, false)
  | .clz _ _ _ p => some (p.toNat, false)
  | .ctz _ _ _ p => some (p.toNat, false)
  | .popc _ _ _ p => some (p.toNat, false)
  | .brev _ _ _ p => some (p.toNat, false)
  | .extb _ _ _ p => some (p.toNat, false)
  | .exth _ _ _ p => some (p.toNat, false)
  | .extw _ _ _ p => some (p.toNat, false)
  | .exbu _ _ _ p => some (p.toNat, false)
  | .exhu _ _ _ p => some (p.toNat, false)
  | .exwu _ _ _ p => some (p.toNat, false)
  | .addi _ _ _ _ p => some (p.toNat, false)
  | .andi _ _ _ _ p => some (p.toNat, false)
  | .ori _ _ _ _ p => some (p.toNat, false)
  | .xori _ _ _ _ p => some (p.toNat, false)
  | .slli _ _ _ _ p => some (p.toNat, false)
  | .srli _ _ _ _ p => some (p.toNat, false)
  | .srai _ _ _ _ p => some (p.toNat, false)
  | .muli _ _ _ _ p => some (p.toNat, false)
  | .lim _ _ _ p => some (p.toNat, false)
  | .lik _ _ _ p => some (p.toNat, false)
  | .cmp _ _ _ _ _ _ p => some (p.toNat, false)
  | .cmpi _ _ _ _ _ p => some (p.toNat, false)
  | .sel _ _ _ _ _ _ p => some (p.toNat, false)
  | .pand _ _ _ _ _ p => some (p.toNat, false)
  | .por _ _ _ _ _ p => some (p.toNat, false)
  | .pxor _ _ _ _ _ p => some (p.toNat, false)
  | .pnot _ _ _ p => some (p.toNat, false)
  | .dadd _ _ _ _ _ _ p => some (p.toNat, false)
  | .dsub _ _ _ _ _ _ p => some (p.toNat, false)
  | .dmul _ _ _ _ _ _ p => some (p.toNat, false)
  | .ddiv _ _ _ _ _ _ p => some (p.toNat, false)
  | .dsqrt _ _ _ _ p => some (p.toNat, false)
  | .dmin _ _ _ _ _ p => some (p.toNat, false)
  | .dmax _ _ _ _ _ p => some (p.toNat, false)
  | .dabs _ _ _ p => some (p.toNat, false)
  | .dneg _ _ _ p => some (p.toNat, false)
  | .dfma _ _ _ _ _ _ p => some (p.toNat, false)
  | .dfms _ _ _ _ _ _ p => some (p.toNat, false)
  | .dnfma _ _ _ _ _ _ p => some (p.toNat, false)
  | .dnfms _ _ _ _ _ _ p => some (p.toNat, false)
  | .fadd _ _ _ _ _ _ p => some (p.toNat, false)
  | .fsub _ _ _ _ _ _ p => some (p.toNat, false)
  | .fmul _ _ _ _ _ _ p => some (p.toNat, false)
  | .fdiv _ _ _ _ _ _ p => some (p.toNat, false)
  | .fsqrt _ _ _ _ p => some (p.toNat, false)
  | .fmin _ _ _ _ _ p => some (p.toNat, false)
  | .fmax _ _ _ _ _ p => some (p.toNat, false)
  | .ffma _ _ _ _ _ _ p => some (p.toNat, false)
  | .i2d _ _ _ _ p => some (p.toNat, false)
  | .u2d _ _ _ _ p => some (p.toNat, false)
  | .d2i _ _ _ _ p => some (p.toNat, false)
  | .d2u _ _ _ _ p => some (p.toNat, false)
  | .f2d _ _ _ _ p => some (p.toNat, false)
  | .d2f _ _ _ _ p => some (p.toNat, false)
  | .i2f _ _ _ _ p => some (p.toNat, false)
  | .f2i _ _ _ _ p => some (p.toNat, false)
  | .mfs _ _ p => some (p.toNat, false)
  | .mts _ _ _ p => some (p.toNat, false)
  | .vadd _ _ _ _ _ _ _ _ => none
  | .vsub _ _ _ _ _ _ _ _ => none
  | .vmul _ _ _ _ _ _ _ _ => none
  | .vfma _ _ _ _ _ _ _ _ => none
  | .vfms _ _ _ _ _ _ _ _ => none
  | .vmin _ _ _ _ _ _ _ _ => none
  | .vmax _ _ _ _ _ _ _ _ => none
  | .vmaxm _ _ _ _ _ _ _ _ => none
  | .vabs _ _ _ _ _ => none
  | .vneg _ _ _ _ _ => none
  | .vcmpeq _ _ _ _ _ _ _ _ => none
  | .vcmplt _ _ _ _ _ _ _ _ => none
  | .vcmple _ _ _ _ _ _ _ _ => none
  | .vcmpun _ _ _ _ _ _ _ _ => none
  | .vcmpm _ _ _ => none
  | .vand _ _ _ _ _ _ _ _ => none
  | .vor _ _ _ _ _ _ _ _ => none
  | .vxor _ _ _ _ _ _ _ _ => none
  | .vshl _ _ _ _ _ _ _ _ => none
  | .vshr _ _ _ _ _ _ _ _ => none
  | .vsra _ _ _ _ _ _ _ _ => none
  | .vbld _ _ _ _ _ _ _ _ => none
  | .vbc _ _ _ _ _ => none
  | .vins _ _ _ _ _ _ _ => none
  | .vext _ _ _ _ _ _ => none
  | .vperm _ _ _ _ _ _ _ => none
  | .vrot _ _ _ _ _ _ _ _ => none
  | .vred _ _ _ _ _ _ => none
  | .vscan _ _ _ _ _ _ => none
  | .vcvt _ _ _ _ _ _ _ _ => none
  | .vqnt _ _ _ _ _ _ _ => none
  | .vdqnt _ _ _ _ _ _ _ => none
  | .vhad _ _ _ _ _ _ _ => none
  | .vsmrg _ _ _ _ _ => none
  | .vsmup _ _ _ _ _ _ _ => none
  | .vchc _ _ _ _ _ _ _ => none
  | .vch _ _ _ _ _ => none
  | .mand _ _ _ _ _ => none
  | .mor _ _ _ _ _ => none
  | .mxor _ _ _ _ _ => none
  | .mnot _ _ _ => none
  | .mfx _ _ _ => none
  | .mtx _ _ _ => none
  | .mbitSet _ _ _ _ => none
  | .mbitClr _ _ _ _ => none
  | .mbitInv _ _ _ _ => none
  | .vexp2 _ _ _ _ _ => none
  | .vlog2 _ _ _ _ _ => none
  | .vrcp _ _ _ _ _ => none
  | .vrsq _ _ _ _ _ => none
  | .vsqrt _ _ _ _ _ => none
  | .vsincos _ _ _ _ _ => none
  | .vtanh _ _ _ _ _ => none
  | .mac _ _ _ _ p => some (p.toNat, false)
  | .mwld _ _ p => some (p.toNat, false)
  | .mswp p => some (p.toNat, false)
  | .mdrn _ _ _ _ _ p => some (p.toNat, false)
  | .mfmt _ _ p => some (p.toNat, false)
  | .mchk p => some (p.toNat, false)
  | .mloc p => some (p.toNat, false)
  | .mfix p => some (p.toNat, false)
  | .mmpb _ _ p => some (p.toNat, false)
  | .mclr _ _ p => some (p.toNat, false)
  | .vld _ _ p => some (p.toNat, false)
  | .vst _ _ _ p => some (p.toNat, false)
  | .vlda _ _ _ _ _ p => some (p.toNat, false)
  | .vsta _ _ _ _ _ _ p => some (p.toNat, false)
  | .lds _ _ _ _ _ _ _ p => some (p.toNat, false)
  | .sts _ _ _ _ _ _ _ p => some (p.toNat, false)
  | .acst _ _ _ _ p => some (p.toNat, false)
  | .acld _ _ _ _ p => some (p.toNat, false)
  | .stcfg _ _ _ _ p => some (p.toNat, false)
  | .stget _ _ _ p => some (p.toNat, false)
  | .stset _ _ _ _ p => some (p.toNat, false)
  | .stadv _ _ p => some (p.toNat, false)
  | .rpop _ p => some (p.toNat, false)
  | .xrd _ _ _ _ p => some (p.toNat, false)
  | .cpy _ _ _ p => some (p.toNat, false)
  | .sca _ _ _ p => some (p.toNat, false)
  | .tsend _ _ _ _ _ _ p => some (p.toNat, false)
  | .tktg _ _ p => some (p.toNat, false)
  | .fld _ _ _ p => some (p.toNat, false)
  | .fst _ _ _ p => some (p.toNat, false)
  | .fatm _ _ _ p => some (p.toNat, false)
  | .frep _ _ _ p => some (p.toNat, false)
  | .bara _ _ _ p => some (p.toNat, false)
  | .bari _ _ _ _ p => some (p.toNat, false)
  | .pfxlk _ _ _ p => some (p.toNat, false)
  | .pfxin _ _ _ p => some (p.toNat, false)
  | .pfxref _ _ _ p => some (p.toNat, false)
  | .pfxapp _ _ _ p => some (p.toNat, false)
  | .pfxev _ _ _ p => some (p.toNat, false)
  | .kvmrg _ _ _ p => some (p.toNat, false)
  | .mark p => some (p.toNat, false)
  | .jstat _ _ _ p => some (p.toNat, false)
  | .branchFetchComplete _ _ _ => none
  | .fixedResultDelivery _ _ => none
  | .longLatencyWriteback _ _ _ => none
  | .checkpointCommit _ _ => none
  | .withheldStorePerform _ _ => none
  | .rerunPairCompare _ _ => none
  | .queueEntry _ => none
  | .arbiterDecide _ => none
  | .candidateStarving _ _ => none
  | .preempt _ => none
  | .budgetExpiry _ => none
  | .handover _ => none
  | .gangFiringOpen _ => none
  | .rngAnswer _ _ => none
  | .tktgGrant _ _ _ _ => none
  | .evpopRecordFill _ _ => none
  | .tokenFirstFlit => none
  | .tokenContinuationFlit => none
  | .creditReturn _ => none
  | .headAdvanceNotice _ => none
  | .cfgdoneAction _ _ => none
  | .markerAction _ _ => none
  | .drainAction _ _ => none
  | .sourceHardwareMark _ _ => none
  | .jobStart _ _ => none
  | .jobComplete _ _ => none
  | .mwldBeatLand _ => none
  | .caliperCompare _ _ => none
  | .pageWalk _ _ => none
  | .writeRequest => none
  | .readRequest => none
  | .readReply => none
  | .atomicRequest => none
  | .atomicReply => none
  | .acknowledgement => none
  | .refusal => none
  | .prefixRequest => none
  | .prefixReply => none
  | .frameTransmit _ => none
  | .linkFrameReceive _ _ => none
  | .linkRetryTimeout _ => none
  | .lossOfSignal _ => none
  | .escapeTimeout _ => none
  | .e2eResendTimeout _ _ _ => none
  | .heldSlotRelease _ _ => none
  | .slotTableSwitch => none
  | .linkTraining _ => none
  | .powerOn _ => none
  | .marginPlan _ => none
  | .powerLimit _ => none
  | .clockRestore _ => none
  | .thermalLimit _ => none
  | .thermalShutdown => none
  | .plinthFrameReceive _ => none
  | .plinthRetransmitTimeout _ => none
  | .plinthAckTimer _ => none
  | .config => none
  | .handle => none
  | .launchPrepare => none
  | .prepareReport => none
  | .launchApply => none
  | .launchAbort => none
  | .readyReport => none
  | .vread => none
  | .vwrite => none
  | .inject => none
  | .pagedata => none
  | .result => none
  | .bootBegin => none
  | .bootManifest => none
  | .bootData => none
  | .bootCfg => none
  | .bootEnd => none
  | .bootStatusReport => none
  | .mgmtCreatePartition => none
  | .mgmtDestroyPartition => none
  | .mgmtOpenChannel => none
  | .mgmtCloseChannel => none
  | .mgmtRestartCurator => none
  | .mgmtRetireCore => none
  | .mgmtInstallStorageKey => none
  | .mgmtAbortSegment => none
  | .mgmtRollBackRegion => none
  | .mgmtReplacePackage => none
  | .mgmtWriteRouting => none
  | .mgmtReadTelemetry => none
  | .mgmtAbandonRegion => none
  | .spdmVersion => none
  | .spdmCapabilities => none
  | .spdmAlgorithms => none
  | .spdmDigests => none
  | .spdmCertificate => none
  | .spdmChallenge => none
  | .spdmMeasurements => none
  | .spdmKeyExchange => none
  | .spdmFinish => none
  | .spdmKeyUpdate => none
  | .spdmEndSession => none
  | .hangPoll _ _ _ => none
  | .stopWavePackage => none
  | .stopReport => none
  | .drainPoll _ _ _ => none
  | .regionError => none
  | .regionRollback => none
  | .markerWaveStart _ _ => none
  | .sinkWaveReport => none
  | .waveCompletionBroadcast => none
  | .linkDownReport => none
  | .illegal _ _ => none
  | .softError _ => none
  | .mmpbLoadDone _ _ => none
  | .arrayInterlockExpiry _ _ _ => none
  | .arp _ => none
  | .neighbourDiscovery _ => none
  | .boundaryScan _ _ => none
  | .powerLoss => none

/-- The register sources of an instruction, the guard apart. -/
def srcsOf : Instr → List Src
  | .nop => []
  | .pbr _ _ => []
  | .pbrx a e _ _ _ => (xs a e)
  | .br _ _ p => (qs p false)
  | .call _ _ _ p => (qs p false)
  | .loopImm _ _ _ => []
  | .loopReg _ _ a e => (xs a e)
  | .loopKeep _ _ => []
  | .loopsl _ _ _ => []
  | .lbrk _ _ p => (qs p false)
  | .waitb _ a e b f _ _ => (xs a e) ++ (xs b f)
  | .waitt a e _ _ _ => (xs a e)
  | .done _ _ => []
  | .ckpt _ _ => []
  | .fence _ _ _ _ _ => []
  | .trap _ _ _ => []
  | .brk _ _ _ => []
  | .getid _ _ _ => []
  | .evpop _ _ _ _ => []
  | .rdct _ _ _ _ => []
  | .rng _ _ _ _ => []
  | .mfc _ _ _ _ => []
  | .mtc a e _ _ _ => (xs a e)
  | .mtcKcpc a e _ _ => (xs a e)
  | .tret _ _ => []
  | .halt a e _ _ => (xs a e)
  | .haltResume a e _ _ => (xs a e)
  | .pstop a e _ _ => (xs a e)
  | .pstopThaw a e _ _ => (xs a e)
  | .pdrain a e _ _ => (xs a e)
  | .csave a e b f _ _ => (xs a e) ++ (xs b f)
  | .cload a e b f _ _ => (xs a e) ++ (xs b f)
  | .tlbiAsid a e b f _ _ => (xs a e) ++ (xs b f)
  | .tlbiPage a e b f _ _ => (xs a e) ++ (xs b f)
  | .tlbiAll a e b f _ _ => (xs a e) ++ (xs b f)
  | .sltw a e b f _ _ => (xs a e) ++ (xs b f)
  | .sltwCommit a e b f _ _ => (xs a e) ++ (xs b f)
  | .lkey a e b f _ _ => (xs a e) ++ (xs b f)
  | .lksw a e _ _ => (xs a e)
  | .retc a e _ _ => (xs a e)
  | .retcCore a e _ _ => (xs a e)
  | .jrsm a e _ _ => (xs a e)
  | .jkil a e _ _ => (xs a e)
  | .add _ a e b f _ => (xs a e) ++ (xs b f)
  | .sub _ a e b f _ => (xs a e) ++ (xs b f)
  | .and _ a e b f _ => (xs a e) ++ (xs b f)
  | .or _ a e b f _ => (xs a e) ++ (xs b f)
  | .xor _ a e b f _ => (xs a e) ++ (xs b f)
  | .andn _ a e b f _ => (xs a e) ++ (xs b f)
  | .sll _ a e b f _ => (xs a e) ++ (xs b f)
  | .srl _ a e b f _ => (xs a e) ++ (xs b f)
  | .sra _ a e b f _ => (xs a e) ++ (xs b f)
  | .rol _ a e b f _ => (xs a e) ++ (xs b f)
  | .min _ a e b f _ => (xs a e) ++ (xs b f)
  | .max _ a e b f _ => (xs a e) ++ (xs b f)
  | .minu _ a e b f _ => (xs a e) ++ (xs b f)
  | .maxu _ a e b f _ => (xs a e) ++ (xs b f)
  | .mul _ a e b f _ => (xs a e) ++ (xs b f)
  | .mulh _ a e b f _ => (xs a e) ++ (xs b f)
  | .mulhu _ a e b f _ => (xs a e) ++ (xs b f)
  | .div _ a e b f _ => (xs a e) ++ (xs b f)
  | .divu _ a e b f _ => (xs a e) ++ (xs b f)
  | .rem _ a e b f _ => (xs a e) ++ (xs b f)
  | .remu _ a e b f _ => (xs a e) ++ (xs b f)
  | .clz _ a e _ => (xs a e)
  | .ctz _ a e _ => (xs a e)
  | .popc _ a e _ => (xs a e)
  | .brev _ a e _ => (xs a e)
  | .extb _ a e _ => (xs a e)
  | .exth _ a e _ => (xs a e)
  | .extw _ a e _ => (xs a e)
  | .exbu _ a e _ => (xs a e)
  | .exhu _ a e _ => (xs a e)
  | .exwu _ a e _ => (xs a e)
  | .addi _ a e _ _ => (xs a e)
  | .andi _ a e _ _ => (xs a e)
  | .ori _ a e _ _ => (xs a e)
  | .xori _ a e _ _ => (xs a e)
  | .slli _ a e _ _ => (xs a e)
  | .srli _ a e _ _ => (xs a e)
  | .srai _ a e _ _ => (xs a e)
  | .muli _ a e _ _ => (xs a e)
  | .lim _ _ _ _ => []
  | .lik d _ _ _ => (xs d false)
  | .cmp _ _ a e b f _ => (xs a e) ++ (xs b f)
  | .cmpi _ _ a e _ _ => (xs a e)
  | .sel _ a e b f s _ => (xs a e) ++ (xs b f) ++ (qs s false)
  | .pand _ a e b f _ => (qs a e) ++ (qs b f)
  | .por _ a e b f _ => (qs a e) ++ (qs b f)
  | .pxor _ a e b f _ => (qs a e) ++ (qs b f)
  | .pnot _ a e _ => (qs a e)
  | .dadd _ a e b f _ _ => (xs a e) ++ (xs b f)
  | .dsub _ a e b f _ _ => (xs a e) ++ (xs b f)
  | .dmul _ a e b f _ _ => (xs a e) ++ (xs b f)
  | .ddiv _ a e b f _ _ => (xs a e) ++ (xs b f)
  | .dsqrt _ a e _ _ => (xs a e)
  | .dmin _ a e b f _ => (xs a e) ++ (xs b f)
  | .dmax _ a e b f _ => (xs a e) ++ (xs b f)
  | .dabs _ a e _ => (xs a e)
  | .dneg _ a e _ => (xs a e)
  | .dfma d a e b f _ _ => (xs a e) ++ (xs b f) ++ (xs d false)
  | .dfms d a e b f _ _ => (xs a e) ++ (xs b f) ++ (xs d false)
  | .dnfma d a e b f _ _ => (xs a e) ++ (xs b f) ++ (xs d false)
  | .dnfms d a e b f _ _ => (xs a e) ++ (xs b f) ++ (xs d false)
  | .fadd _ a e b f _ _ => (xs a e) ++ (xs b f)
  | .fsub _ a e b f _ _ => (xs a e) ++ (xs b f)
  | .fmul _ a e b f _ _ => (xs a e) ++ (xs b f)
  | .fdiv _ a e b f _ _ => (xs a e) ++ (xs b f)
  | .fsqrt _ a e _ _ => (xs a e)
  | .fmin _ a e b f _ => (xs a e) ++ (xs b f)
  | .fmax _ a e b f _ => (xs a e) ++ (xs b f)
  | .ffma d a e b f _ _ => (xs a e) ++ (xs b f) ++ (xs d false)
  | .i2d _ a e _ _ => (xs a e)
  | .u2d _ a e _ _ => (xs a e)
  | .d2i _ a e _ _ => (xs a e)
  | .d2u _ a e _ _ => (xs a e)
  | .f2d _ a e _ _ => (xs a e)
  | .d2f _ a e _ _ => (xs a e)
  | .i2f _ a e _ _ => (xs a e)
  | .f2i _ a e _ _ => (xs a e)
  | .mfs _ _ _ => []
  | .mts a e _ _ => (xs a e)
  | .vadd d a e b f _ m u => (vs a e) ++ (bsrc b f u) ++ (mk m) ++ (oldv d m)
  | .vsub d a e b f _ m u => (vs a e) ++ (bsrc b f u) ++ (mk m) ++ (oldv d m)
  | .vmul d a e b f _ m u => (vs a e) ++ (bsrc b f u) ++ (mk m) ++ (oldv d m)
  | .vfma d a e b f _ m u => (vs a e) ++ (bsrc b f u) ++ (mk m) ++ (vs d false)
  | .vfms d a e b f _ m u => (vs a e) ++ (bsrc b f u) ++ (mk m) ++ (vs d false)
  | .vmin d a e b f _ m u => (vs a e) ++ (bsrc b f u) ++ (mk m) ++ (oldv d m)
  | .vmax d a e b f _ m u => (vs a e) ++ (bsrc b f u) ++ (mk m) ++ (oldv d m)
  | .vmaxm d a e b f _ m u => (vs a e) ++ (bsrc b f u) ++ (mk m) ++ (oldv d m)
  | .vabs d a e _ m => (vs a e) ++ (mk m) ++ (oldv d m)
  | .vneg d a e _ m => (vs a e) ++ (mk m) ++ (oldv d m)
  | .vcmpeq d a e b f _ m u => (vs a e) ++ (bsrc b f u) ++ (mk m) ++ (oldv d m)
  | .vcmplt d a e b f _ m u => (vs a e) ++ (cmpsrc b f u) ++ (mk m) ++ (oldv d m)
  | .vcmple d a e b f _ m u => (vs a e) ++ (cmpsrc b f u) ++ (mk m) ++ (oldv d m)
  | .vcmpun d a e b f _ m u => (vs a e) ++ (bsrc b f u) ++ (mk m) ++ (oldv d m)
  | .vcmpm _ a e => (vs a e)
  | .vand d a e b f _ m u => (vs a e) ++ (bsrc b f u) ++ (mk m) ++ (oldv d m)
  | .vor d a e b f _ m u => (vs a e) ++ (bsrc b f u) ++ (mk m) ++ (oldv d m)
  | .vxor d a e b f _ m u => (vs a e) ++ (bsrc b f u) ++ (mk m) ++ (oldv d m)
  | .vshl d a e b f _ m u => (vs a e) ++ (bsrc b f u) ++ (mk m) ++ (oldv d m)
  | .vshr d a e b f _ m u => (vs a e) ++ (bsrc b f u) ++ (mk m) ++ (oldv d m)
  | .vsra d a e b f _ m u => (vs a e) ++ (bsrc b f u) ++ (mk m) ++ (oldv d m)
  | .vbld d a e b f _ m u => (vs a e) ++ (bsrc b f u) ++ (mk m) ++ (vs d false)
  | .vbc d b f _ m => (xs b f) ++ (mk m) ++ (oldv d m)
  | .vins d a e b f _ m => (xs a e) ++ (xs b f) ++ (mk m) ++ (vs d false)
  | .vext _ a e b f _ => (vs a e) ++ (xs b f)
  | .vperm d a e b f _ m => (vs a e) ++ (vs b f) ++ (mk m) ++ (oldv d m)
  | .vrot d a e b f _ m u => (vs a e) ++ (bsrc b f u) ++ (mk m) ++ (oldv d m)
  | .vred _ a e _ _ m => (vs a e) ++ (mk m)
  | .vscan d a e _ _ m => (vs a e) ++ (mk m) ++ (oldv d m)
  | .vcvt d a e r _ _ _ m => (vs a e) ++ (mk m) ++ (if r then oldv d m else [])
  | .vqnt _ a e b f _ m => (vs a e) ++ (xs b f) ++ (mk m)
  | .vdqnt d a e b f _ m => (vs a e) ++ (xs b f) ++ (mk m) ++ (oldv d m)
  | .vhad d a e _ _ _ m => (vs a e) ++ (mk m) ++ (oldv d m)
  | .vsmrg d a e _ m => (vs a e) ++ (mk m) ++ (vs d false)
  | .vsmup _ a e b f _ m => (vs a e) ++ (vs b f) ++ (mk m)
  | .vchc _ _ b f _ _ u => (bsrc b f u)
  | .vch d a e _ m => (vs a e) ++ (mk m) ++ (oldv d m)
  | .mand _ a e b f => (ms a e) ++ (ms b f)
  | .mor _ a e b f => (ms a e) ++ (ms b f)
  | .mxor _ a e b f => (ms a e) ++ (ms b f)
  | .mnot _ a e => (ms a e)
  | .mfx _ a e => (ms a e)
  | .mtx _ a e => (xs a e)
  | .mbitSet _ a e _ => (ms a e)
  | .mbitClr _ a e _ => (ms a e)
  | .mbitInv _ a e _ => (ms a e)
  | .vexp2 d a e _ m => (vs a e) ++ (mk m) ++ (oldv d m)
  | .vlog2 d a e _ m => (vs a e) ++ (mk m) ++ (oldv d m)
  | .vrcp d a e _ m => (vs a e) ++ (mk m) ++ (oldv d m)
  | .vrsq d a e _ m => (vs a e) ++ (mk m) ++ (oldv d m)
  | .vsqrt d a e _ m => (vs a e) ++ (mk m) ++ (oldv d m)
  | .vsincos d a e _ m => (vs a e) ++ (mk m) ++ (oldv d m) ++ (oldv (d + 1) m)
  | .vtanh d a e _ m => (vs a e) ++ (mk m) ++ (oldv d m)
  | .mac _ s _ e _ => (macSrc s e)
  | .mwld _ _ _ => []
  | .mswp _ => []
  | .mdrn _ _ _ _ _ _ => []
  | .mfmt _ _ _ => []
  | .mchk _ => []
  | .mloc _ => []
  | .mfix _ => []
  | .mmpb a e _ => (xs a e)
  | .mclr _ _ _ => []
  | .vld _ _ _ => []
  | .vst v _ e _ => (vs v e)
  | .vlda _ a e _ _ _ => (xs a e)
  | .vsta v a e f _ _ _ => (vs v f) ++ (xs a e)
  | .lds _ a e _ _ _ _ _ => (xs a e)
  | .sts v a e f _ _ _ _ => (xs v f) ++ (xs a e)
  | .acst _ _ a e _ => (xs a e)
  | .acld _ _ a e _ => (xs a e)
  | .stcfg _ a e _ _ => (xs a e)
  | .stget _ _ _ _ => []
  | .stset v _ e _ _ => (xs v e)
  | .stadv _ _ _ => []
  | .rpop _ _ => []
  | .xrd _ a e _ _ => (xs a e)
  | .cpy a e _ _ => (xs a e)
  | .sca a e _ _ => (xs a e)
  | .tsend _ a e b f _ _ => (xs a e) ++ (xs b f)
  | .tktg _ _ _ => []
  | .fld a e _ _ => (xs a e)
  | .fst a e _ _ => (xs a e)
  | .fatm a e _ _ => (xs a e)
  | .frep a e _ _ => (xs a e)
  | .bara a e _ _ => (xs a e)
  | .bari a e b f _ => (xs a e) ++ (xs b f)
  | .pfxlk a e _ _ => (xs a e)
  | .pfxin a e _ _ => (xs a e)
  | .pfxref a e _ _ => (xs a e)
  | .pfxapp a e _ _ => (xs a e)
  | .pfxev a e _ _ => (xs a e)
  | .kvmrg a e _ _ => (xs a e)
  | .mark _ => []
  | .jstat _ a e _ => (xs a e)
  | .branchFetchComplete _ _ _ => []
  | .fixedResultDelivery _ _ => []
  | .longLatencyWriteback _ _ _ => []
  | .checkpointCommit _ _ => []
  | .withheldStorePerform _ _ => []
  | .rerunPairCompare _ _ => []
  | .queueEntry _ => []
  | .arbiterDecide _ => []
  | .candidateStarving _ _ => []
  | .preempt _ => []
  | .budgetExpiry _ => []
  | .handover _ => []
  | .gangFiringOpen _ => []
  | .rngAnswer _ _ => []
  | .tktgGrant _ _ _ _ => []
  | .evpopRecordFill _ _ => []
  | .tokenFirstFlit => []
  | .tokenContinuationFlit => []
  | .creditReturn _ => []
  | .headAdvanceNotice _ => []
  | .cfgdoneAction _ _ => []
  | .markerAction _ _ => []
  | .drainAction _ _ => []
  | .sourceHardwareMark _ _ => []
  | .jobStart _ _ => []
  | .jobComplete _ _ => []
  | .mwldBeatLand _ => []
  | .caliperCompare _ _ => []
  | .pageWalk _ _ => []
  | .writeRequest => []
  | .readRequest => []
  | .readReply => []
  | .atomicRequest => []
  | .atomicReply => []
  | .acknowledgement => []
  | .refusal => []
  | .prefixRequest => []
  | .prefixReply => []
  | .frameTransmit _ => []
  | .linkFrameReceive _ _ => []
  | .linkRetryTimeout _ => []
  | .lossOfSignal _ => []
  | .escapeTimeout _ => []
  | .e2eResendTimeout _ _ _ => []
  | .heldSlotRelease _ _ => []
  | .slotTableSwitch => []
  | .linkTraining _ => []
  | .powerOn _ => []
  | .marginPlan _ => []
  | .powerLimit _ => []
  | .clockRestore _ => []
  | .thermalLimit _ => []
  | .thermalShutdown => []
  | .plinthFrameReceive _ => []
  | .plinthRetransmitTimeout _ => []
  | .plinthAckTimer _ => []
  | .config => []
  | .handle => []
  | .launchPrepare => []
  | .prepareReport => []
  | .launchApply => []
  | .launchAbort => []
  | .readyReport => []
  | .vread => []
  | .vwrite => []
  | .inject => []
  | .pagedata => []
  | .result => []
  | .bootBegin => []
  | .bootManifest => []
  | .bootData => []
  | .bootCfg => []
  | .bootEnd => []
  | .bootStatusReport => []
  | .mgmtCreatePartition => []
  | .mgmtDestroyPartition => []
  | .mgmtOpenChannel => []
  | .mgmtCloseChannel => []
  | .mgmtRestartCurator => []
  | .mgmtRetireCore => []
  | .mgmtInstallStorageKey => []
  | .mgmtAbortSegment => []
  | .mgmtRollBackRegion => []
  | .mgmtReplacePackage => []
  | .mgmtWriteRouting => []
  | .mgmtReadTelemetry => []
  | .mgmtAbandonRegion => []
  | .spdmVersion => []
  | .spdmCapabilities => []
  | .spdmAlgorithms => []
  | .spdmDigests => []
  | .spdmCertificate => []
  | .spdmChallenge => []
  | .spdmMeasurements => []
  | .spdmKeyExchange => []
  | .spdmFinish => []
  | .spdmKeyUpdate => []
  | .spdmEndSession => []
  | .hangPoll _ _ _ => []
  | .stopWavePackage => []
  | .stopReport => []
  | .drainPoll _ _ _ => []
  | .regionError => []
  | .regionRollback => []
  | .markerWaveStart _ _ => []
  | .sinkWaveReport => []
  | .waveCompletionBroadcast => []
  | .linkDownReport => []
  | .illegal _ _ => []
  | .softError _ => []
  | .mmpbLoadDone _ _ => []
  | .arrayInterlockExpiry _ _ _ => []
  | .arp _ => []
  | .neighbourDiscovery _ => []
  | .boundaryScan _ _ => []
  | .powerLoss => []

/-- The register destinations of an instruction. -/
def dstsOf : Instr → List RegName
  | .nop => []
  | .pbr _ _ => []
  | .pbrx _ _ _ _ _ => []
  | .br _ _ _ => []
  | .call d _ _ _ => [xReg d.toNat]
  | .loopImm _ _ _ => []
  | .loopReg _ _ _ _ => []
  | .loopKeep _ _ => []
  | .loopsl _ _ _ => []
  | .lbrk _ _ _ => []
  | .waitb d _ _ _ _ _ _ => [xReg d.toNat]
  | .waitt _ _ _ _ _ => []
  | .done _ _ => []
  | .ckpt _ _ => []
  | .fence _ _ _ _ _ => []
  | .trap _ _ _ => []
  | .brk _ _ _ => []
  | .getid d _ _ => [xReg d.toNat]
  | .evpop d b _ _ => [xReg d.toNat, xReg b.toNat]
  | .rdct d _ _ _ => [xReg d.toNat]
  | .rng d _ _ _ => [xReg d.toNat]
  | .mfc d _ _ _ => [xReg d.toNat]
  | .mtc _ _ _ _ _ => []
  | .mtcKcpc _ _ _ _ => []
  | .tret _ _ => []
  | .halt _ _ _ _ => []
  | .haltResume _ _ _ _ => []
  | .pstop _ _ _ _ => []
  | .pstopThaw _ _ _ _ => []
  | .pdrain _ _ _ _ => []
  | .csave _ _ _ _ _ _ => []
  | .cload _ _ _ _ _ _ => []
  | .tlbiAsid _ _ _ _ _ _ => []
  | .tlbiPage _ _ _ _ _ _ => []
  | .tlbiAll _ _ _ _ _ _ => []
  | .sltw _ _ _ _ _ _ => []
  | .sltwCommit _ _ _ _ _ _ => []
  | .lkey _ _ _ _ _ _ => []
  | .lksw _ _ _ _ => []
  | .retc _ _ _ _ => []
  | .retcCore _ _ _ _ => []
  | .jrsm _ _ _ _ => []
  | .jkil _ _ _ _ => []
  | .add d _ _ _ _ _ => [xReg d.toNat]
  | .sub d _ _ _ _ _ => [xReg d.toNat]
  | .and d _ _ _ _ _ => [xReg d.toNat]
  | .or d _ _ _ _ _ => [xReg d.toNat]
  | .xor d _ _ _ _ _ => [xReg d.toNat]
  | .andn d _ _ _ _ _ => [xReg d.toNat]
  | .sll d _ _ _ _ _ => [xReg d.toNat]
  | .srl d _ _ _ _ _ => [xReg d.toNat]
  | .sra d _ _ _ _ _ => [xReg d.toNat]
  | .rol d _ _ _ _ _ => [xReg d.toNat]
  | .min d _ _ _ _ _ => [xReg d.toNat]
  | .max d _ _ _ _ _ => [xReg d.toNat]
  | .minu d _ _ _ _ _ => [xReg d.toNat]
  | .maxu d _ _ _ _ _ => [xReg d.toNat]
  | .mul d _ _ _ _ _ => [xReg d.toNat]
  | .mulh d _ _ _ _ _ => [xReg d.toNat]
  | .mulhu d _ _ _ _ _ => [xReg d.toNat]
  | .div d _ _ _ _ _ => [xReg d.toNat]
  | .divu d _ _ _ _ _ => [xReg d.toNat]
  | .rem d _ _ _ _ _ => [xReg d.toNat]
  | .remu d _ _ _ _ _ => [xReg d.toNat]
  | .clz d _ _ _ => [xReg d.toNat]
  | .ctz d _ _ _ => [xReg d.toNat]
  | .popc d _ _ _ => [xReg d.toNat]
  | .brev d _ _ _ => [xReg d.toNat]
  | .extb d _ _ _ => [xReg d.toNat]
  | .exth d _ _ _ => [xReg d.toNat]
  | .extw d _ _ _ => [xReg d.toNat]
  | .exbu d _ _ _ => [xReg d.toNat]
  | .exhu d _ _ _ => [xReg d.toNat]
  | .exwu d _ _ _ => [xReg d.toNat]
  | .addi d _ _ _ _ => [xReg d.toNat]
  | .andi d _ _ _ _ => [xReg d.toNat]
  | .ori d _ _ _ _ => [xReg d.toNat]
  | .xori d _ _ _ _ => [xReg d.toNat]
  | .slli d _ _ _ _ => [xReg d.toNat]
  | .srli d _ _ _ _ => [xReg d.toNat]
  | .srai d _ _ _ _ => [xReg d.toNat]
  | .muli d _ _ _ _ => [xReg d.toNat]
  | .lim d _ _ _ => [xReg d.toNat]
  | .lik d _ _ _ => [xReg d.toNat]
  | .cmp d _ _ _ _ _ _ => [qReg d.toNat]
  | .cmpi d _ _ _ _ _ => [qReg d.toNat]
  | .sel d _ _ _ _ _ _ => [xReg d.toNat]
  | .pand d _ _ _ _ _ => [qReg d.toNat]
  | .por d _ _ _ _ _ => [qReg d.toNat]
  | .pxor d _ _ _ _ _ => [qReg d.toNat]
  | .pnot d _ _ _ => [qReg d.toNat]
  | .dadd d _ _ _ _ _ _ => [xReg d.toNat]
  | .dsub d _ _ _ _ _ _ => [xReg d.toNat]
  | .dmul d _ _ _ _ _ _ => [xReg d.toNat]
  | .ddiv d _ _ _ _ _ _ => [xReg d.toNat]
  | .dsqrt d _ _ _ _ => [xReg d.toNat]
  | .dmin d _ _ _ _ _ => [xReg d.toNat]
  | .dmax d _ _ _ _ _ => [xReg d.toNat]
  | .dabs d _ _ _ => [xReg d.toNat]
  | .dneg d _ _ _ => [xReg d.toNat]
  | .dfma d _ _ _ _ _ _ => [xReg d.toNat]
  | .dfms d _ _ _ _ _ _ => [xReg d.toNat]
  | .dnfma d _ _ _ _ _ _ => [xReg d.toNat]
  | .dnfms d _ _ _ _ _ _ => [xReg d.toNat]
  | .fadd d _ _ _ _ _ _ => [xReg d.toNat]
  | .fsub d _ _ _ _ _ _ => [xReg d.toNat]
  | .fmul d _ _ _ _ _ _ => [xReg d.toNat]
  | .fdiv d _ _ _ _ _ _ => [xReg d.toNat]
  | .fsqrt d _ _ _ _ => [xReg d.toNat]
  | .fmin d _ _ _ _ _ => [xReg d.toNat]
  | .fmax d _ _ _ _ _ => [xReg d.toNat]
  | .ffma d _ _ _ _ _ _ => [xReg d.toNat]
  | .i2d d _ _ _ _ => [xReg d.toNat]
  | .u2d d _ _ _ _ => [xReg d.toNat]
  | .d2i d _ _ _ _ => [xReg d.toNat]
  | .d2u d _ _ _ _ => [xReg d.toNat]
  | .f2d d _ _ _ _ => [xReg d.toNat]
  | .d2f d _ _ _ _ => [xReg d.toNat]
  | .i2f d _ _ _ _ => [xReg d.toNat]
  | .f2i d _ _ _ _ => [xReg d.toNat]
  | .mfs d _ _ => [xReg d.toNat]
  | .mts _ _ _ _ => []
  | .vadd d _ _ _ _ _ _ _ => [vReg d.toNat]
  | .vsub d _ _ _ _ _ _ _ => [vReg d.toNat]
  | .vmul d _ _ _ _ _ _ _ => [vReg d.toNat]
  | .vfma d _ _ _ _ _ _ _ => [vReg d.toNat]
  | .vfms d _ _ _ _ _ _ _ => [vReg d.toNat]
  | .vmin d _ _ _ _ _ _ _ => [vReg d.toNat]
  | .vmax d _ _ _ _ _ _ _ => [vReg d.toNat]
  | .vmaxm d _ _ _ _ _ _ _ => [vReg d.toNat]
  | .vabs d _ _ _ _ => [vReg d.toNat]
  | .vneg d _ _ _ _ => [vReg d.toNat]
  | .vcmpeq d _ _ _ _ _ _ _ => [vReg d.toNat]
  | .vcmplt d _ _ _ _ _ _ _ => [vReg d.toNat]
  | .vcmple d _ _ _ _ _ _ _ => [vReg d.toNat]
  | .vcmpun d _ _ _ _ _ _ _ => [vReg d.toNat]
  | .vcmpm d _ _ => [mReg d.toNat]
  | .vand d _ _ _ _ _ _ _ => [vReg d.toNat]
  | .vor d _ _ _ _ _ _ _ => [vReg d.toNat]
  | .vxor d _ _ _ _ _ _ _ => [vReg d.toNat]
  | .vshl d _ _ _ _ _ _ _ => [vReg d.toNat]
  | .vshr d _ _ _ _ _ _ _ => [vReg d.toNat]
  | .vsra d _ _ _ _ _ _ _ => [vReg d.toNat]
  | .vbld d _ _ _ _ _ _ _ => [vReg d.toNat]
  | .vbc d _ _ _ _ => [vReg d.toNat]
  | .vins d _ _ _ _ _ _ => [vReg d.toNat]
  | .vext d _ _ _ _ _ => [xReg d.toNat]
  | .vperm d _ _ _ _ _ _ => [vReg d.toNat]
  | .vrot d _ _ _ _ _ _ _ => [vReg d.toNat]
  | .vred d _ _ _ _ _ => [vReg d.toNat]
  | .vscan d _ _ _ _ _ => [vReg d.toNat]
  | .vcvt d _ _ _ _ _ _ _ => [vReg d.toNat]
  | .vqnt d _ _ _ _ _ _ => [vReg d.toNat]
  | .vdqnt d _ _ _ _ _ _ => [vReg d.toNat]
  | .vhad d _ _ _ _ _ _ => [vReg d.toNat]
  | .vsmrg d _ _ _ _ => [vReg d.toNat]
  | .vsmup d _ _ b _ _ _ => [vReg d.toNat, vReg b.toNat]
  | .vchc _ _ _ _ _ _ _ => []
  | .vch d _ _ _ _ => [vReg d.toNat]
  | .mand d _ _ _ _ => [mReg d.toNat]
  | .mor d _ _ _ _ => [mReg d.toNat]
  | .mxor d _ _ _ _ => [mReg d.toNat]
  | .mnot d _ _ => [mReg d.toNat]
  | .mfx d _ _ => [xReg d.toNat]
  | .mtx d _ _ => [mReg d.toNat]
  | .mbitSet d _ _ _ => [mReg d.toNat]
  | .mbitClr d _ _ _ => [mReg d.toNat]
  | .mbitInv d _ _ _ => [mReg d.toNat]
  | .vexp2 d _ _ _ _ => [vReg d.toNat]
  | .vlog2 d _ _ _ _ => [vReg d.toNat]
  | .vrcp d _ _ _ _ => [vReg d.toNat]
  | .vrsq d _ _ _ _ => [vReg d.toNat]
  | .vsqrt d _ _ _ _ => [vReg d.toNat]
  | .vsincos d _ _ _ _ => [vReg d.toNat, vReg (d + 1).toNat]
  | .vtanh d _ _ _ _ => [vReg d.toNat]
  | .mac _ _ _ _ _ => []
  | .mwld _ _ _ => []
  | .mswp _ => []
  | .mdrn d _ _ _ _ _ => [vReg d.toNat]
  | .mfmt _ _ _ => []
  | .mchk _ => []
  | .mloc _ => []
  | .mfix _ => []
  | .mmpb _ _ _ => []
  | .mclr _ _ _ => []
  | .vld d _ _ => [vReg d.toNat]
  | .vst _ _ _ _ => []
  | .vlda d _ _ _ _ _ => [vReg d.toNat]
  | .vsta _ _ _ _ _ _ _ => []
  | .lds d _ _ _ _ _ _ _ => [xReg d.toNat]
  | .sts _ _ _ _ _ _ _ _ => []
  | .acst _ _ _ _ _ => []
  | .acld _ _ _ _ _ => []
  | .stcfg _ _ _ _ _ => []
  | .stget d _ _ _ => [xReg d.toNat]
  | .stset _ _ _ _ _ => []
  | .stadv _ _ _ => []
  | .rpop _ _ => []
  | .xrd d _ _ _ _ => [xReg d.toNat]
  | .cpy _ _ _ _ => []
  | .sca _ _ _ _ => []
  | .tsend _ _ _ _ _ _ _ => []
  | .tktg d _ _ => [xReg d.toNat]
  | .fld _ _ _ _ => []
  | .fst _ _ _ _ => []
  | .fatm _ _ _ _ => []
  | .frep _ _ _ _ => []
  | .bara _ _ _ _ => []
  | .bari _ _ _ _ _ => []
  | .pfxlk _ _ _ _ => []
  | .pfxin _ _ _ _ => []
  | .pfxref _ _ _ _ => []
  | .pfxapp _ _ _ _ => []
  | .pfxev _ _ _ _ => []
  | .kvmrg _ _ _ _ => []
  | .mark _ => []
  | .jstat d _ _ _ => [qReg d.toNat]
  | .branchFetchComplete _ _ _ => []
  | .fixedResultDelivery _ _ => []
  | .longLatencyWriteback _ _ _ => []
  | .checkpointCommit _ _ => []
  | .withheldStorePerform _ _ => []
  | .rerunPairCompare _ _ => []
  | .queueEntry _ => []
  | .arbiterDecide _ => []
  | .candidateStarving _ _ => []
  | .preempt _ => []
  | .budgetExpiry _ => []
  | .handover _ => []
  | .gangFiringOpen _ => []
  | .rngAnswer _ _ => []
  | .tktgGrant _ _ _ _ => []
  | .evpopRecordFill _ _ => []
  | .tokenFirstFlit => []
  | .tokenContinuationFlit => []
  | .creditReturn _ => []
  | .headAdvanceNotice _ => []
  | .cfgdoneAction _ _ => []
  | .markerAction _ _ => []
  | .drainAction _ _ => []
  | .sourceHardwareMark _ _ => []
  | .jobStart _ _ => []
  | .jobComplete _ _ => []
  | .mwldBeatLand _ => []
  | .caliperCompare _ _ => []
  | .pageWalk _ _ => []
  | .writeRequest => []
  | .readRequest => []
  | .readReply => []
  | .atomicRequest => []
  | .atomicReply => []
  | .acknowledgement => []
  | .refusal => []
  | .prefixRequest => []
  | .prefixReply => []
  | .frameTransmit _ => []
  | .linkFrameReceive _ _ => []
  | .linkRetryTimeout _ => []
  | .lossOfSignal _ => []
  | .escapeTimeout _ => []
  | .e2eResendTimeout _ _ _ => []
  | .heldSlotRelease _ _ => []
  | .slotTableSwitch => []
  | .linkTraining _ => []
  | .powerOn _ => []
  | .marginPlan _ => []
  | .powerLimit _ => []
  | .clockRestore _ => []
  | .thermalLimit _ => []
  | .thermalShutdown => []
  | .plinthFrameReceive _ => []
  | .plinthRetransmitTimeout _ => []
  | .plinthAckTimer _ => []
  | .config => []
  | .handle => []
  | .launchPrepare => []
  | .prepareReport => []
  | .launchApply => []
  | .launchAbort => []
  | .readyReport => []
  | .vread => []
  | .vwrite => []
  | .inject => []
  | .pagedata => []
  | .result => []
  | .bootBegin => []
  | .bootManifest => []
  | .bootData => []
  | .bootCfg => []
  | .bootEnd => []
  | .bootStatusReport => []
  | .mgmtCreatePartition => []
  | .mgmtDestroyPartition => []
  | .mgmtOpenChannel => []
  | .mgmtCloseChannel => []
  | .mgmtRestartCurator => []
  | .mgmtRetireCore => []
  | .mgmtInstallStorageKey => []
  | .mgmtAbortSegment => []
  | .mgmtRollBackRegion => []
  | .mgmtReplacePackage => []
  | .mgmtWriteRouting => []
  | .mgmtReadTelemetry => []
  | .mgmtAbandonRegion => []
  | .spdmVersion => []
  | .spdmCapabilities => []
  | .spdmAlgorithms => []
  | .spdmDigests => []
  | .spdmCertificate => []
  | .spdmChallenge => []
  | .spdmMeasurements => []
  | .spdmKeyExchange => []
  | .spdmFinish => []
  | .spdmKeyUpdate => []
  | .spdmEndSession => []
  | .hangPoll _ _ _ => []
  | .stopWavePackage => []
  | .stopReport => []
  | .drainPoll _ _ _ => []
  | .regionError => []
  | .regionRollback => []
  | .markerWaveStart _ _ => []
  | .sinkWaveReport => []
  | .waveCompletionBroadcast => []
  | .linkDownReport => []
  | .illegal _ _ => []
  | .softError _ => []
  | .mmpbLoadDone _ _ => []
  | .arrayInterlockExpiry _ _ _ => []
  | .arp _ => []
  | .neighbourDiscovery _ => []
  | .boundaryScan _ _ => []
  | .powerLoss => []

/-- The curator majors 0x30 to 0x3E of the control slot (R124). -/
def isPriv : Instr → Bool
  | .nop => false
  | .pbr _ _ => false
  | .pbrx _ _ _ _ _ => false
  | .br _ _ _ => false
  | .call _ _ _ _ => false
  | .loopImm _ _ _ => false
  | .loopReg _ _ _ _ => false
  | .loopKeep _ _ => false
  | .loopsl _ _ _ => false
  | .lbrk _ _ _ => false
  | .waitb _ _ _ _ _ _ _ => false
  | .waitt _ _ _ _ _ => false
  | .done _ _ => false
  | .ckpt _ _ => false
  | .fence _ _ _ _ _ => false
  | .trap _ _ _ => false
  | .brk _ _ _ => false
  | .getid _ _ _ => false
  | .evpop _ _ _ _ => false
  | .rdct _ _ _ _ => false
  | .rng _ _ _ _ => false
  | .mfc _ _ _ _ => true
  | .mtc _ _ _ _ _ => true
  | .mtcKcpc _ _ _ _ => true
  | .tret _ _ => true
  | .halt _ _ _ _ => true
  | .haltResume _ _ _ _ => true
  | .pstop _ _ _ _ => true
  | .pstopThaw _ _ _ _ => true
  | .pdrain _ _ _ _ => true
  | .csave _ _ _ _ _ _ => true
  | .cload _ _ _ _ _ _ => true
  | .tlbiAsid _ _ _ _ _ _ => true
  | .tlbiPage _ _ _ _ _ _ => true
  | .tlbiAll _ _ _ _ _ _ => true
  | .sltw _ _ _ _ _ _ => true
  | .sltwCommit _ _ _ _ _ _ => true
  | .lkey _ _ _ _ _ _ => true
  | .lksw _ _ _ _ => true
  | .retc _ _ _ _ => true
  | .retcCore _ _ _ _ => true
  | .jrsm _ _ _ _ => true
  | .jkil _ _ _ _ => true
  | .add _ _ _ _ _ _ => false
  | .sub _ _ _ _ _ _ => false
  | .and _ _ _ _ _ _ => false
  | .or _ _ _ _ _ _ => false
  | .xor _ _ _ _ _ _ => false
  | .andn _ _ _ _ _ _ => false
  | .sll _ _ _ _ _ _ => false
  | .srl _ _ _ _ _ _ => false
  | .sra _ _ _ _ _ _ => false
  | .rol _ _ _ _ _ _ => false
  | .min _ _ _ _ _ _ => false
  | .max _ _ _ _ _ _ => false
  | .minu _ _ _ _ _ _ => false
  | .maxu _ _ _ _ _ _ => false
  | .mul _ _ _ _ _ _ => false
  | .mulh _ _ _ _ _ _ => false
  | .mulhu _ _ _ _ _ _ => false
  | .div _ _ _ _ _ _ => false
  | .divu _ _ _ _ _ _ => false
  | .rem _ _ _ _ _ _ => false
  | .remu _ _ _ _ _ _ => false
  | .clz _ _ _ _ => false
  | .ctz _ _ _ _ => false
  | .popc _ _ _ _ => false
  | .brev _ _ _ _ => false
  | .extb _ _ _ _ => false
  | .exth _ _ _ _ => false
  | .extw _ _ _ _ => false
  | .exbu _ _ _ _ => false
  | .exhu _ _ _ _ => false
  | .exwu _ _ _ _ => false
  | .addi _ _ _ _ _ => false
  | .andi _ _ _ _ _ => false
  | .ori _ _ _ _ _ => false
  | .xori _ _ _ _ _ => false
  | .slli _ _ _ _ _ => false
  | .srli _ _ _ _ _ => false
  | .srai _ _ _ _ _ => false
  | .muli _ _ _ _ _ => false
  | .lim _ _ _ _ => false
  | .lik _ _ _ _ => false
  | .cmp _ _ _ _ _ _ _ => false
  | .cmpi _ _ _ _ _ _ => false
  | .sel _ _ _ _ _ _ _ => false
  | .pand _ _ _ _ _ _ => false
  | .por _ _ _ _ _ _ => false
  | .pxor _ _ _ _ _ _ => false
  | .pnot _ _ _ _ => false
  | .dadd _ _ _ _ _ _ _ => false
  | .dsub _ _ _ _ _ _ _ => false
  | .dmul _ _ _ _ _ _ _ => false
  | .ddiv _ _ _ _ _ _ _ => false
  | .dsqrt _ _ _ _ _ => false
  | .dmin _ _ _ _ _ _ => false
  | .dmax _ _ _ _ _ _ => false
  | .dabs _ _ _ _ => false
  | .dneg _ _ _ _ => false
  | .dfma _ _ _ _ _ _ _ => false
  | .dfms _ _ _ _ _ _ _ => false
  | .dnfma _ _ _ _ _ _ _ => false
  | .dnfms _ _ _ _ _ _ _ => false
  | .fadd _ _ _ _ _ _ _ => false
  | .fsub _ _ _ _ _ _ _ => false
  | .fmul _ _ _ _ _ _ _ => false
  | .fdiv _ _ _ _ _ _ _ => false
  | .fsqrt _ _ _ _ _ => false
  | .fmin _ _ _ _ _ _ => false
  | .fmax _ _ _ _ _ _ => false
  | .ffma _ _ _ _ _ _ _ => false
  | .i2d _ _ _ _ _ => false
  | .u2d _ _ _ _ _ => false
  | .d2i _ _ _ _ _ => false
  | .d2u _ _ _ _ _ => false
  | .f2d _ _ _ _ _ => false
  | .d2f _ _ _ _ _ => false
  | .i2f _ _ _ _ _ => false
  | .f2i _ _ _ _ _ => false
  | .mfs _ _ _ => false
  | .mts _ _ _ _ => false
  | .vadd _ _ _ _ _ _ _ _ => false
  | .vsub _ _ _ _ _ _ _ _ => false
  | .vmul _ _ _ _ _ _ _ _ => false
  | .vfma _ _ _ _ _ _ _ _ => false
  | .vfms _ _ _ _ _ _ _ _ => false
  | .vmin _ _ _ _ _ _ _ _ => false
  | .vmax _ _ _ _ _ _ _ _ => false
  | .vmaxm _ _ _ _ _ _ _ _ => false
  | .vabs _ _ _ _ _ => false
  | .vneg _ _ _ _ _ => false
  | .vcmpeq _ _ _ _ _ _ _ _ => false
  | .vcmplt _ _ _ _ _ _ _ _ => false
  | .vcmple _ _ _ _ _ _ _ _ => false
  | .vcmpun _ _ _ _ _ _ _ _ => false
  | .vcmpm _ _ _ => false
  | .vand _ _ _ _ _ _ _ _ => false
  | .vor _ _ _ _ _ _ _ _ => false
  | .vxor _ _ _ _ _ _ _ _ => false
  | .vshl _ _ _ _ _ _ _ _ => false
  | .vshr _ _ _ _ _ _ _ _ => false
  | .vsra _ _ _ _ _ _ _ _ => false
  | .vbld _ _ _ _ _ _ _ _ => false
  | .vbc _ _ _ _ _ => false
  | .vins _ _ _ _ _ _ _ => false
  | .vext _ _ _ _ _ _ => false
  | .vperm _ _ _ _ _ _ _ => false
  | .vrot _ _ _ _ _ _ _ _ => false
  | .vred _ _ _ _ _ _ => false
  | .vscan _ _ _ _ _ _ => false
  | .vcvt _ _ _ _ _ _ _ _ => false
  | .vqnt _ _ _ _ _ _ _ => false
  | .vdqnt _ _ _ _ _ _ _ => false
  | .vhad _ _ _ _ _ _ _ => false
  | .vsmrg _ _ _ _ _ => false
  | .vsmup _ _ _ _ _ _ _ => false
  | .vchc _ _ _ _ _ _ _ => false
  | .vch _ _ _ _ _ => false
  | .mand _ _ _ _ _ => false
  | .mor _ _ _ _ _ => false
  | .mxor _ _ _ _ _ => false
  | .mnot _ _ _ => false
  | .mfx _ _ _ => false
  | .mtx _ _ _ => false
  | .mbitSet _ _ _ _ => false
  | .mbitClr _ _ _ _ => false
  | .mbitInv _ _ _ _ => false
  | .vexp2 _ _ _ _ _ => false
  | .vlog2 _ _ _ _ _ => false
  | .vrcp _ _ _ _ _ => false
  | .vrsq _ _ _ _ _ => false
  | .vsqrt _ _ _ _ _ => false
  | .vsincos _ _ _ _ _ => false
  | .vtanh _ _ _ _ _ => false
  | .mac _ _ _ _ _ => false
  | .mwld _ _ _ => false
  | .mswp _ => false
  | .mdrn _ _ _ _ _ _ => false
  | .mfmt _ _ _ => false
  | .mchk _ => false
  | .mloc _ => false
  | .mfix _ => false
  | .mmpb _ _ _ => false
  | .mclr _ _ _ => false
  | .vld _ _ _ => false
  | .vst _ _ _ _ => false
  | .vlda _ _ _ _ _ _ => false
  | .vsta _ _ _ _ _ _ _ => false
  | .lds _ _ _ _ _ _ _ _ => false
  | .sts _ _ _ _ _ _ _ _ => false
  | .acst _ _ _ _ _ => false
  | .acld _ _ _ _ _ => false
  | .stcfg _ _ _ _ _ => false
  | .stget _ _ _ _ => false
  | .stset _ _ _ _ _ => false
  | .stadv _ _ _ => false
  | .rpop _ _ => false
  | .xrd _ _ _ _ _ => false
  | .cpy _ _ _ _ => false
  | .sca _ _ _ _ => false
  | .tsend _ _ _ _ _ _ _ => false
  | .tktg _ _ _ => false
  | .fld _ _ _ _ => false
  | .fst _ _ _ _ => false
  | .fatm _ _ _ _ => false
  | .frep _ _ _ _ => false
  | .bara _ _ _ _ => false
  | .bari _ _ _ _ _ => false
  | .pfxlk _ _ _ _ => false
  | .pfxin _ _ _ _ => false
  | .pfxref _ _ _ _ => false
  | .pfxapp _ _ _ _ => false
  | .pfxev _ _ _ _ => false
  | .kvmrg _ _ _ _ => false
  | .mark _ => false
  | .jstat _ _ _ _ => false
  | .branchFetchComplete _ _ _ => false
  | .fixedResultDelivery _ _ => false
  | .longLatencyWriteback _ _ _ => false
  | .checkpointCommit _ _ => false
  | .withheldStorePerform _ _ => false
  | .rerunPairCompare _ _ => false
  | .queueEntry _ => false
  | .arbiterDecide _ => false
  | .candidateStarving _ _ => false
  | .preempt _ => false
  | .budgetExpiry _ => false
  | .handover _ => false
  | .gangFiringOpen _ => false
  | .rngAnswer _ _ => false
  | .tktgGrant _ _ _ _ => false
  | .evpopRecordFill _ _ => false
  | .tokenFirstFlit => false
  | .tokenContinuationFlit => false
  | .creditReturn _ => false
  | .headAdvanceNotice _ => false
  | .cfgdoneAction _ _ => false
  | .markerAction _ _ => false
  | .drainAction _ _ => false
  | .sourceHardwareMark _ _ => false
  | .jobStart _ _ => false
  | .jobComplete _ _ => false
  | .mwldBeatLand _ => false
  | .caliperCompare _ _ => false
  | .pageWalk _ _ => false
  | .writeRequest => false
  | .readRequest => false
  | .readReply => false
  | .atomicRequest => false
  | .atomicReply => false
  | .acknowledgement => false
  | .refusal => false
  | .prefixRequest => false
  | .prefixReply => false
  | .frameTransmit _ => false
  | .linkFrameReceive _ _ => false
  | .linkRetryTimeout _ => false
  | .lossOfSignal _ => false
  | .escapeTimeout _ => false
  | .e2eResendTimeout _ _ _ => false
  | .heldSlotRelease _ _ => false
  | .slotTableSwitch => false
  | .linkTraining _ => false
  | .powerOn _ => false
  | .marginPlan _ => false
  | .powerLimit _ => false
  | .clockRestore _ => false
  | .thermalLimit _ => false
  | .thermalShutdown => false
  | .plinthFrameReceive _ => false
  | .plinthRetransmitTimeout _ => false
  | .plinthAckTimer _ => false
  | .config => false
  | .handle => false
  | .launchPrepare => false
  | .prepareReport => false
  | .launchApply => false
  | .launchAbort => false
  | .readyReport => false
  | .vread => false
  | .vwrite => false
  | .inject => false
  | .pagedata => false
  | .result => false
  | .bootBegin => false
  | .bootManifest => false
  | .bootData => false
  | .bootCfg => false
  | .bootEnd => false
  | .bootStatusReport => false
  | .mgmtCreatePartition => false
  | .mgmtDestroyPartition => false
  | .mgmtOpenChannel => false
  | .mgmtCloseChannel => false
  | .mgmtRestartCurator => false
  | .mgmtRetireCore => false
  | .mgmtInstallStorageKey => false
  | .mgmtAbortSegment => false
  | .mgmtRollBackRegion => false
  | .mgmtReplacePackage => false
  | .mgmtWriteRouting => false
  | .mgmtReadTelemetry => false
  | .mgmtAbandonRegion => false
  | .spdmVersion => false
  | .spdmCapabilities => false
  | .spdmAlgorithms => false
  | .spdmDigests => false
  | .spdmCertificate => false
  | .spdmChallenge => false
  | .spdmMeasurements => false
  | .spdmKeyExchange => false
  | .spdmFinish => false
  | .spdmKeyUpdate => false
  | .spdmEndSession => false
  | .hangPoll _ _ _ => false
  | .stopWavePackage => false
  | .stopReport => false
  | .drainPoll _ _ _ => false
  | .regionError => false
  | .regionRollback => false
  | .markerWaveStart _ _ => false
  | .sinkWaveReport => false
  | .waveCompletionBroadcast => false
  | .linkDownReport => false
  | .illegal _ _ => false
  | .softError _ => false
  | .mmpbLoadDone _ _ => false
  | .arrayInterlockExpiry _ _ _ => false
  | .arp _ => false
  | .neighbourDiscovery _ => false
  | .boundaryScan _ _ => false
  | .powerLoss => false

/-- What the slots accept in curator mode (R328). -/
def curatorOk : Instr → Bool
  | .nop => true
  | .pbr _ _ => true
  | .pbrx _ _ _ _ _ => true
  | .br _ _ _ => true
  | .call _ _ _ _ => true
  | .loopImm _ _ _ => false
  | .loopReg _ _ _ _ => false
  | .loopKeep _ _ => false
  | .loopsl _ _ _ => false
  | .lbrk _ _ _ => false
  | .waitb _ _ _ _ _ _ _ => true
  | .waitt _ _ _ _ _ => false
  | .done _ _ => false
  | .ckpt _ _ => false
  | .fence _ _ _ _ _ => true
  | .trap _ _ _ => false
  | .brk _ _ _ => false
  | .getid _ _ _ => true
  | .evpop _ _ _ _ => false
  | .rdct _ _ _ _ => true
  | .rng _ _ _ _ => false
  | .mfc _ _ _ _ => true
  | .mtc _ _ _ _ _ => true
  | .mtcKcpc _ _ _ _ => true
  | .tret _ _ => true
  | .halt _ _ _ _ => true
  | .haltResume _ _ _ _ => true
  | .pstop _ _ _ _ => true
  | .pstopThaw _ _ _ _ => true
  | .pdrain _ _ _ _ => true
  | .csave _ _ _ _ _ _ => true
  | .cload _ _ _ _ _ _ => true
  | .tlbiAsid _ _ _ _ _ _ => true
  | .tlbiPage _ _ _ _ _ _ => true
  | .tlbiAll _ _ _ _ _ _ => true
  | .sltw _ _ _ _ _ _ => true
  | .sltwCommit _ _ _ _ _ _ => true
  | .lkey _ _ _ _ _ _ => true
  | .lksw _ _ _ _ => true
  | .retc _ _ _ _ => true
  | .retcCore _ _ _ _ => true
  | .jrsm _ _ _ _ => true
  | .jkil _ _ _ _ => true
  | .add _ _ _ _ _ _ => true
  | .sub _ _ _ _ _ _ => true
  | .and _ _ _ _ _ _ => true
  | .or _ _ _ _ _ _ => true
  | .xor _ _ _ _ _ _ => true
  | .andn _ _ _ _ _ _ => true
  | .sll _ _ _ _ _ _ => true
  | .srl _ _ _ _ _ _ => true
  | .sra _ _ _ _ _ _ => true
  | .rol _ _ _ _ _ _ => true
  | .min _ _ _ _ _ _ => true
  | .max _ _ _ _ _ _ => true
  | .minu _ _ _ _ _ _ => true
  | .maxu _ _ _ _ _ _ => true
  | .mul _ _ _ _ _ _ => true
  | .mulh _ _ _ _ _ _ => true
  | .mulhu _ _ _ _ _ _ => true
  | .div _ _ _ _ _ _ => true
  | .divu _ _ _ _ _ _ => true
  | .rem _ _ _ _ _ _ => true
  | .remu _ _ _ _ _ _ => true
  | .clz _ _ _ _ => true
  | .ctz _ _ _ _ => true
  | .popc _ _ _ _ => true
  | .brev _ _ _ _ => true
  | .extb _ _ _ _ => true
  | .exth _ _ _ _ => true
  | .extw _ _ _ _ => true
  | .exbu _ _ _ _ => true
  | .exhu _ _ _ _ => true
  | .exwu _ _ _ _ => true
  | .addi _ _ _ _ _ => true
  | .andi _ _ _ _ _ => true
  | .ori _ _ _ _ _ => true
  | .xori _ _ _ _ _ => true
  | .slli _ _ _ _ _ => true
  | .srli _ _ _ _ _ => true
  | .srai _ _ _ _ _ => true
  | .muli _ _ _ _ _ => true
  | .lim _ _ _ _ => true
  | .lik _ _ _ _ => true
  | .cmp _ _ _ _ _ _ _ => true
  | .cmpi _ _ _ _ _ _ => true
  | .sel _ _ _ _ _ _ _ => true
  | .pand _ _ _ _ _ _ => true
  | .por _ _ _ _ _ _ => true
  | .pxor _ _ _ _ _ _ => true
  | .pnot _ _ _ _ => true
  | .dadd _ _ _ _ _ _ _ => true
  | .dsub _ _ _ _ _ _ _ => true
  | .dmul _ _ _ _ _ _ _ => true
  | .ddiv _ _ _ _ _ _ _ => true
  | .dsqrt _ _ _ _ _ => true
  | .dmin _ _ _ _ _ _ => true
  | .dmax _ _ _ _ _ _ => true
  | .dabs _ _ _ _ => true
  | .dneg _ _ _ _ => true
  | .dfma _ _ _ _ _ _ _ => true
  | .dfms _ _ _ _ _ _ _ => true
  | .dnfma _ _ _ _ _ _ _ => true
  | .dnfms _ _ _ _ _ _ _ => true
  | .fadd _ _ _ _ _ _ _ => true
  | .fsub _ _ _ _ _ _ _ => true
  | .fmul _ _ _ _ _ _ _ => true
  | .fdiv _ _ _ _ _ _ _ => true
  | .fsqrt _ _ _ _ _ => true
  | .fmin _ _ _ _ _ _ => true
  | .fmax _ _ _ _ _ _ => true
  | .ffma _ _ _ _ _ _ _ => true
  | .i2d _ _ _ _ _ => true
  | .u2d _ _ _ _ _ => true
  | .d2i _ _ _ _ _ => true
  | .d2u _ _ _ _ _ => true
  | .f2d _ _ _ _ _ => true
  | .d2f _ _ _ _ _ => true
  | .i2f _ _ _ _ _ => true
  | .f2i _ _ _ _ _ => true
  | .mfs _ _ _ => true
  | .mts _ _ _ _ => true
  | .vadd _ _ _ _ _ _ _ _ => false
  | .vsub _ _ _ _ _ _ _ _ => false
  | .vmul _ _ _ _ _ _ _ _ => false
  | .vfma _ _ _ _ _ _ _ _ => false
  | .vfms _ _ _ _ _ _ _ _ => false
  | .vmin _ _ _ _ _ _ _ _ => false
  | .vmax _ _ _ _ _ _ _ _ => false
  | .vmaxm _ _ _ _ _ _ _ _ => false
  | .vabs _ _ _ _ _ => false
  | .vneg _ _ _ _ _ => false
  | .vcmpeq _ _ _ _ _ _ _ _ => false
  | .vcmplt _ _ _ _ _ _ _ _ => false
  | .vcmple _ _ _ _ _ _ _ _ => false
  | .vcmpun _ _ _ _ _ _ _ _ => false
  | .vcmpm _ _ _ => false
  | .vand _ _ _ _ _ _ _ _ => false
  | .vor _ _ _ _ _ _ _ _ => false
  | .vxor _ _ _ _ _ _ _ _ => false
  | .vshl _ _ _ _ _ _ _ _ => false
  | .vshr _ _ _ _ _ _ _ _ => false
  | .vsra _ _ _ _ _ _ _ _ => false
  | .vbld _ _ _ _ _ _ _ _ => false
  | .vbc _ _ _ _ _ => false
  | .vins _ _ _ _ _ _ _ => false
  | .vext _ _ _ _ _ _ => false
  | .vperm _ _ _ _ _ _ _ => false
  | .vrot _ _ _ _ _ _ _ _ => false
  | .vred _ _ _ _ _ _ => false
  | .vscan _ _ _ _ _ _ => false
  | .vcvt _ _ _ _ _ _ _ _ => false
  | .vqnt _ _ _ _ _ _ _ => false
  | .vdqnt _ _ _ _ _ _ _ => false
  | .vhad _ _ _ _ _ _ _ => false
  | .vsmrg _ _ _ _ _ => false
  | .vsmup _ _ _ _ _ _ _ => false
  | .vchc _ _ _ _ _ _ _ => false
  | .vch _ _ _ _ _ => false
  | .mand _ _ _ _ _ => false
  | .mor _ _ _ _ _ => false
  | .mxor _ _ _ _ _ => false
  | .mnot _ _ _ => false
  | .mfx _ _ _ => false
  | .mtx _ _ _ => false
  | .mbitSet _ _ _ _ => false
  | .mbitClr _ _ _ _ => false
  | .mbitInv _ _ _ _ => false
  | .vexp2 _ _ _ _ _ => false
  | .vlog2 _ _ _ _ _ => false
  | .vrcp _ _ _ _ _ => false
  | .vrsq _ _ _ _ _ => false
  | .vsqrt _ _ _ _ _ => false
  | .vsincos _ _ _ _ _ => false
  | .vtanh _ _ _ _ _ => false
  | .mac _ _ _ _ _ => false
  | .mwld _ _ _ => false
  | .mswp _ => false
  | .mdrn _ _ _ _ _ _ => false
  | .mfmt _ _ _ => false
  | .mchk _ => false
  | .mloc _ => false
  | .mfix _ => false
  | .mmpb _ _ _ => false
  | .mclr _ _ _ => false
  | .vld _ _ _ => false
  | .vst _ _ _ _ => false
  | .vlda _ _ _ _ _ _ => false
  | .vsta _ _ _ _ _ _ _ => false
  | .lds _ _ _ _ _ _ _ _ => true
  | .sts _ _ _ _ _ _ _ _ => true
  | .acst _ _ _ _ _ => false
  | .acld _ _ _ _ _ => false
  | .stcfg _ _ _ _ _ => false
  | .stget _ _ _ _ => false
  | .stset _ _ _ _ _ => false
  | .stadv _ _ _ => false
  | .rpop _ _ => false
  | .xrd _ _ _ _ _ => false
  | .cpy _ _ _ _ => true
  | .sca _ _ _ _ => true
  | .tsend _ _ _ _ _ _ _ => false
  | .tktg _ _ _ => false
  | .fld _ _ _ _ => true
  | .fst _ _ _ _ => true
  | .fatm _ _ _ _ => true
  | .frep _ _ _ _ => true
  | .bara _ _ _ _ => true
  | .bari _ _ _ _ _ => true
  | .pfxlk _ _ _ _ => false
  | .pfxin _ _ _ _ => false
  | .pfxref _ _ _ _ => false
  | .pfxapp _ _ _ _ => false
  | .pfxev _ _ _ _ => false
  | .kvmrg _ _ _ _ => false
  | .mark _ => false
  | .jstat _ _ _ _ => true
  | .branchFetchComplete _ _ _ => false
  | .fixedResultDelivery _ _ => false
  | .longLatencyWriteback _ _ _ => false
  | .checkpointCommit _ _ => false
  | .withheldStorePerform _ _ => false
  | .rerunPairCompare _ _ => false
  | .queueEntry _ => false
  | .arbiterDecide _ => false
  | .candidateStarving _ _ => false
  | .preempt _ => false
  | .budgetExpiry _ => false
  | .handover _ => false
  | .gangFiringOpen _ => false
  | .rngAnswer _ _ => false
  | .tktgGrant _ _ _ _ => false
  | .evpopRecordFill _ _ => false
  | .tokenFirstFlit => false
  | .tokenContinuationFlit => false
  | .creditReturn _ => false
  | .headAdvanceNotice _ => false
  | .cfgdoneAction _ _ => false
  | .markerAction _ _ => false
  | .drainAction _ _ => false
  | .sourceHardwareMark _ _ => false
  | .jobStart _ _ => false
  | .jobComplete _ _ => false
  | .mwldBeatLand _ => false
  | .caliperCompare _ _ => false
  | .pageWalk _ _ => false
  | .writeRequest => false
  | .readRequest => false
  | .readReply => false
  | .atomicRequest => false
  | .atomicReply => false
  | .acknowledgement => false
  | .refusal => false
  | .prefixRequest => false
  | .prefixReply => false
  | .frameTransmit _ => false
  | .linkFrameReceive _ _ => false
  | .linkRetryTimeout _ => false
  | .lossOfSignal _ => false
  | .escapeTimeout _ => false
  | .e2eResendTimeout _ _ _ => false
  | .heldSlotRelease _ _ => false
  | .slotTableSwitch => false
  | .linkTraining _ => false
  | .powerOn _ => false
  | .marginPlan _ => false
  | .powerLimit _ => false
  | .clockRestore _ => false
  | .thermalLimit _ => false
  | .thermalShutdown => false
  | .plinthFrameReceive _ => false
  | .plinthRetransmitTimeout _ => false
  | .plinthAckTimer _ => false
  | .config => false
  | .handle => false
  | .launchPrepare => false
  | .prepareReport => false
  | .launchApply => false
  | .launchAbort => false
  | .readyReport => false
  | .vread => false
  | .vwrite => false
  | .inject => false
  | .pagedata => false
  | .result => false
  | .bootBegin => false
  | .bootManifest => false
  | .bootData => false
  | .bootCfg => false
  | .bootEnd => false
  | .bootStatusReport => false
  | .mgmtCreatePartition => false
  | .mgmtDestroyPartition => false
  | .mgmtOpenChannel => false
  | .mgmtCloseChannel => false
  | .mgmtRestartCurator => false
  | .mgmtRetireCore => false
  | .mgmtInstallStorageKey => false
  | .mgmtAbortSegment => false
  | .mgmtRollBackRegion => false
  | .mgmtReplacePackage => false
  | .mgmtWriteRouting => false
  | .mgmtReadTelemetry => false
  | .mgmtAbandonRegion => false
  | .spdmVersion => false
  | .spdmCapabilities => false
  | .spdmAlgorithms => false
  | .spdmDigests => false
  | .spdmCertificate => false
  | .spdmChallenge => false
  | .spdmMeasurements => false
  | .spdmKeyExchange => false
  | .spdmFinish => false
  | .spdmKeyUpdate => false
  | .spdmEndSession => false
  | .hangPoll _ _ _ => false
  | .stopWavePackage => false
  | .stopReport => false
  | .drainPoll _ _ _ => false
  | .regionError => false
  | .regionRollback => false
  | .markerWaveStart _ _ => false
  | .sinkWaveReport => false
  | .waveCompletionBroadcast => false
  | .linkDownReport => false
  | .illegal _ _ => false
  | .softError _ => false
  | .mmpbLoadDone _ _ => false
  | .arrayInterlockExpiry _ _ _ => false
  | .arp _ => false
  | .neighbourDiscovery _ => false
  | .boundaryScan _ _ => false
  | .powerLoss => false

/-- The guard holds: q[qp], or its negation when n is 1 (R119). -/
def guardTrue (r : Regs) (i : Instr) : Bool :=
  match guardOf i with
  | none => true
  | some (p, n) => xor (readQ r p) n

/-- The guard's register is full. -/
def guardFull (r : Regs) (i : Instr) : Bool :=
  match guardOf i with
  | none => true
  | some (p, _) => isFull r (qReg p)

/-- KVAL of EMPTY (R393). -/
def emptyVal (n : RegName) : Nat := n.num + fileCode n.file * 32

/-- The decode cause of a slot instruction in the mode of the core (R84, R124, R328): ILLEGAL before PRIV. -/
def decodeCause (curator : Bool) (i : Instr) : Option Nat :=
  if i.wf = false then some 0x01
  else if curator then (if curatorOk i then none else some 0x01)
  else if isPriv i then some 0x02 else none

/-- The first empty source with e = 1 (R88). -/
def emptySrc (r : Regs) (i : Instr) : Option RegName :=
  ((srcsOf i).find? fun s => s.2 && !isFull r s.1).map (·.1)

/-- Some source or destination is empty, so the bundle freezes (R88, R89). -/
def waitsReg (r : Regs) (i : Instr) : Bool :=
  ((srcsOf i).any fun s => !isFull r s.1) || ((dstsOf i).any fun d => !isFull r d)

/-- What a slot instruction meets before it acts. -/
inductive Gate where
  | go
  | skip
  | trap (cause val : Nat)
  | wait
  deriving DecidableEq, Repr

/-- The gate of R84, R86, R88 and R89: decode causes whatever the guard; an instruction whose guard is false does
nothing; then EMPTY, then a freeze. -/
def slotGate (s : State) (i : Instr) : Gate :=
  let r := actRegs s
  match decodeCause (curCore s).curator i with
  | some c => .trap c ((encode i).getD 0)
  | none =>
    if guardFull r i = false then .wait
    else if guardTrue r i = false then .skip
    else match emptySrc r i with
      | some n => .trap 0x03 (emptyVal n)
      | none => if waitsReg r i then .wait else .go

/-- A slot instruction: its gate, then its own effect. -/
def slotOp (s : State) (i : Instr) (body : State → State) : State :=
  match slotGate s i with
  | .go => body s
  | .skip => s
  | .trap c v => raise s c v
  | .wait => freeze s .register

/-- Mark destinations empty at the end of the bundle: a long-latency producer claims them (R87). -/
def claim (s : State) (ds : List RegName) : State := modScr s fun q => { q with claims := q.claims ++ ds }

/-- A long-latency producer of the issuing bundle: outstanding from the bundle's end, since the bundle's own slots wait
only for those issued before it (R157, R176). -/
def addProducer (s : State) (p : Producer) : State := modScr s fun q => { q with prods := q.prods ++ [p] }

/-- The flags that a bundle raises and that the curator has enabled (R52). -/
def floatTrap (s : State) (fl : Flg) : Nat :=
  if (curCore s).curator then 0 else Nat.land fl.toNat (kFena (curCore s)) % 32

/-- Raise flags: FLOAT when an enabled one is raised, else they are ORed into fst at the end of the bundle. -/
def withFlags (s : State) (fl : Flg) (body : State → State) : State :=
  if floatTrap s fl = 0 then body (modScr s fun q => { q with flags := q.flags ||| fl })
  else raise s 0x08 (floatTrap s fl)

/-- As `withFlags` for a long-latency producer, whose flags reach fst when its result is written. -/
def withLateFlags (s : State) (fl : Flg) (body : State → State) : State :=
  if floatTrap s fl = 0 then body s else raise s 0x08 (floatTrap s fl)

/-- A long-latency result: the destinations are claimed and the values delivered later (R87). -/
def sendLong (s : State) (ws : List (RegName × Nat)) (fl : Flg) (k : LongKind) : State :=
  addProducer (claim s (ws.map (·.1))) (.value ws fl k)

/-- The rounding mode of an instruction field: code 4 takes frm (R38); in curator mode frm is that of the context
named by KSTAT.ctx. -/
def frmOf (s : State) : RMode :=
  let c := curCore s
  rmodeOf (if c.curator then (getCtx c (kCtx c)).live.frm else (actRegs s).frm).toNat

def dynMode (s : State) (r : BitVec 3) : RMode := if r = 4 then frmOf s else rmodeOf r.toNat

end Sys2Proof.Machine
end

