-- ==== Sys2Proof/Machine/Flags.lean ====
section
/-!
DEFINITION. Conditions and flags: the compares of CMP and CMPI (05 R128, 06 R166, R167) and the float status
register's update at the end of a bundle (02 R51, 06 R176).
-/
namespace Sys2Proof.Machine

/-- The integer conditions, codes 0 to 9 (R128). -/
def intCond (c : Nat) (a b : Word) : Bool :=
  match c with
  | 0 => a == b
  | 1 => a != b
  | 2 => a.slt b
  | 3 => b.sle a
  | 4 => a.ult b
  | 5 => b.ule a
  | 6 => a.sle b
  | 7 => b.slt a
  | 8 => a.ule b
  | _ => b.ult a

/-- The binary64 conditions, codes 10 to 13 (R128, R167). -/
def floatCond (c : Nat) : FCmp :=
  match c with
  | 10 => .eq
  | 11 => .lt
  | 12 => .le
  | _ => .un

/-- The truth of a CMP condition and its flags. -/
def condRes (c : Nat) (a b : Word) : Bool × Flg :=
  if c < 10 then (intCond c a b, 0) else fcompare f64 (floatCond c) a.toNat b.toNat

/-- Flags raised by a bundle join fst after an MTS of the same bundle has replaced it (R175, R176). -/
def orFst (r : Regs) (fl : Flg) : Regs := { r with fst := r.fst ||| fl }

/-- A long-latency producer that raises flags is outstanding (R176): MFS and MTS of fst wait for it. -/
def flagProducer (x : Context) : Bool :=
  x.producers.any fun p =>
    match p with
    | .value _ _ k => k != .plain
    | _ => false

end Sys2Proof.Machine
end

