-- ==== Sys2Proof/Machine/Scalar.lean ====
section
/-!
DEFINITION. The scalar slots SA and SB (06 R160 to R176).
-/
namespace Sys2Proof.Machine

/-- The value of x register `n` that the issuing bundle reads. -/
def rx (s : State) (n : BitVec 5) : Word := readX (actRegs s) n.toNat

/-- A fixed-latency result to x register `d`. -/
def toX (s : State) (lat : Nat) (d : BitVec 5) (v : Word) : State := sendReg s lat (xReg d.toNat) v.toNat

/-- A fixed-latency result to q register `d`. -/
def toQ (s : State) (lat : Nat) (d : BitVec 3) (v : Bool) : State := sendReg s lat (qReg d.toNat) (b01 v)

/-- A fixed-latency floating result to `d`, flags raised at issue (R176). -/
def toXF (s : State) (lat : Nat) (d : BitVec 5) (r : FRes) : State :=
  withFlags s r.2 fun s => sendReg s lat (xReg d.toNat) r.1

/-- A long-latency floating result to `d`. -/
def toXL (s : State) (d : BitVec 5) (r : FRes) : State :=
  withLateFlags s r.2 fun s => sendLong s [(xReg d.toNat, r.1)] r.2 .float

/-- An integer quotient or remainder, which raises no flags. -/
def toXD (s : State) (d : BitVec 5) (v : Word) : State := sendLong s [(xReg d.toNat, v.toNat)] 0 .plain

/-- The low six bits of a shift count (R160). -/
def shCount (b : Word) : Nat := b.toNat % 64

def rolW (a b : Word) : Word := a.rotateLeft (shCount b)

def minS (a b : Word) : Word := if b.slt a then b else a
def maxS (a b : Word) : Word := if a.slt b then b else a
def minU (a b : Word) : Word := if b.ult a then b else a
def maxU (a b : Word) : Word := if a.ult b then b else a

/-- Bits [127:64] of the signed product (R161). -/
def mulhS (a b : Word) : Word := BitVec.ofInt 64 (a.toInt * b.toInt / (2 ^ 64 : Nat))

/-- Bits [127:64] of the unsigned product (R161). -/
def mulhU (a b : Word) : Word := BitVec.ofNat 64 (a.toNat * b.toNat / 2 ^ 64)

/-- The quotient towards zero, with the borderline cases of R162. -/
def divS (a b : Word) : Word := if b = 0 then BitVec.allOnes 64 else BitVec.ofInt 64 (a.toInt.tdiv b.toInt)
def divU (a b : Word) : Word := if b = 0 then BitVec.allOnes 64 else BitVec.ofNat 64 (a.toNat / b.toNat)
/-- The remainder, with the sign of the dividend (R162). -/
def remS (a b : Word) : Word := if b = 0 then a else BitVec.ofInt 64 (a.toInt.tmod b.toInt)
def remU (a b : Word) : Word := if b = 0 then a else BitVec.ofNat 64 (a.toNat % b.toNat)

/-- How many of the `n` bits from bit `i` down are zero before the first one. -/
def clzFrom (v : Nat) : Nat → Nat
  | 0 => 0
  | n + 1 => if bitOf v n then 0 else clzFrom v n + 1

def clzW (a : Word) : Word := BitVec.ofNat 64 (clzFrom a.toNat 64)

def brevW (a : Word) : Word := a.reverse

def ctzW (a : Word) : Word := clzW (brevW a)

def popcW (a : Word) : Word := BitVec.ofNat 64 ((List.range 64).countP fun i => bitOf a.toNat i)

def sextW (w : Nat) (a : Word) : Word := BitVec.ofInt 64 (sextNat w a.toNat)
def zextW (w : Nat) (a : Word) : Word := BitVec.ofNat 64 (a.toNat % 2 ^ w)

/-- sext(imm12) (R127). -/
def imm12 (i : BitVec 12) : Word := i.signExtend 64

/-- The low 32 bits of an FP32 operand (R170). -/
def lo32 (a : Word) : Nat := a.toNat % 2 ^ 32

/-- The context that MFS and MTS act on: the running one, or in curator mode the one named by KSTAT.ctx (R330). -/
def sregCtx (c : Core) : Bool := if c.curator then kCtx c else runCtx c

/-- The context whose special registers the bundle reads, as it stood in the issue cycle (R86). -/
def seenCtx (s : State) : Context := s.scr.seen.getD (getCtx (curCore s) (sregCtx (curCore s)))

/-- The issue cycle of a bundle: what its MFS reads. -/
def noteSeen (s : State) : State :=
  modScr s fun q => { q with seen := some (getCtx (curCore s) (sregCtx (curCore s))) }

/-- A pending RNG keeps every access to its level's counter and trip waiting (R157). -/
def rngPending (x : Context) (lvl : Nat) : Bool :=
  x.producers.any fun p =>
    match p with
    | .rng _ l => l == lvl
    | _ => false

/-- The interlocks of an MFS or MTS of register `n`: a pending RNG (R157), flag producers for fst (R176), an
outstanding MCHK for ckres and ckloc (R239). -/
def sregWaits (x : Context) (n : Nat) : Bool :=
  (n ≤ 5 && rngPending x n) || (8 ≤ n && n ≤ 13 && rngPending x (n - 8)) || (n == 0x30 && flagProducer x)
    || ((n == 0x48 || n == 0x49) && x.mchk.isSome)

/-- ADD (R160). -/
def execAdd (d : BitVec 5) (a : BitVec 5) (e : Bool) (b : BitVec 5) (f : Bool) (p : BitVec 3) (s : State) : Out :=
  .next (slotOp s (.add d a e b f p) fun s => toX s 1 d (rx s a + rx s b))

/-- SUB (R160). -/
def execSub (d : BitVec 5) (a : BitVec 5) (e : Bool) (b : BitVec 5) (f : Bool) (p : BitVec 3) (s : State) : Out :=
  .next (slotOp s (.sub d a e b f p) fun s => toX s 1 d (rx s a - rx s b))

/-- AND (R160). -/
def execAnd (d : BitVec 5) (a : BitVec 5) (e : Bool) (b : BitVec 5) (f : Bool) (p : BitVec 3) (s : State) : Out :=
  .next (slotOp s (.and d a e b f p) fun s => toX s 1 d (rx s a &&& rx s b))

/-- OR (R160). -/
def execOr (d : BitVec 5) (a : BitVec 5) (e : Bool) (b : BitVec 5) (f : Bool) (p : BitVec 3) (s : State) : Out :=
  .next (slotOp s (.or d a e b f p) fun s => toX s 1 d (rx s a ||| rx s b))

/-- XOR (R160). -/
def execXor (d : BitVec 5) (a : BitVec 5) (e : Bool) (b : BitVec 5) (f : Bool) (p : BitVec 3) (s : State) : Out :=
  .next (slotOp s (.xor d a e b f p) fun s => toX s 1 d (rx s a ^^^ rx s b))

/-- ANDN (R160). -/
def execAndn (d : BitVec 5) (a : BitVec 5) (e : Bool) (b : BitVec 5) (f : Bool) (p : BitVec 3) (s : State) : Out :=
  .next (slotOp s (.andn d a e b f p) fun s => toX s 1 d (rx s a &&& ~~~(rx s b)))

/-- SLL (R160). -/
def execSll (d : BitVec 5) (a : BitVec 5) (e : Bool) (b : BitVec 5) (f : Bool) (p : BitVec 3) (s : State) : Out :=
  .next (slotOp s (.sll d a e b f p) fun s => toX s 1 d (rx s a <<< shCount (rx s b)))

/-- SRL (R160). -/
def execSrl (d : BitVec 5) (a : BitVec 5) (e : Bool) (b : BitVec 5) (f : Bool) (p : BitVec 3) (s : State) : Out :=
  .next (slotOp s (.srl d a e b f p) fun s => toX s 1 d (rx s a >>> shCount (rx s b)))

/-- SRA (R160). -/
def execSra (d : BitVec 5) (a : BitVec 5) (e : Bool) (b : BitVec 5) (f : Bool) (p : BitVec 3) (s : State) : Out :=
  .next (slotOp s (.sra d a e b f p) fun s => toX s 1 d ((rx s a).sshiftRight (shCount (rx s b))))

/-- ROL (R160). -/
def execRol (d : BitVec 5) (a : BitVec 5) (e : Bool) (b : BitVec 5) (f : Bool) (p : BitVec 3) (s : State) : Out :=
  .next (slotOp s (.rol d a e b f p) fun s => toX s 1 d (rolW (rx s a) (rx s b)))

/-- MIN (R160). -/
def execMin (d : BitVec 5) (a : BitVec 5) (e : Bool) (b : BitVec 5) (f : Bool) (p : BitVec 3) (s : State) : Out :=
  .next (slotOp s (.min d a e b f p) fun s => toX s 1 d (minS (rx s a) (rx s b)))

/-- MAX (R160). -/
def execMax (d : BitVec 5) (a : BitVec 5) (e : Bool) (b : BitVec 5) (f : Bool) (p : BitVec 3) (s : State) : Out :=
  .next (slotOp s (.max d a e b f p) fun s => toX s 1 d (maxS (rx s a) (rx s b)))

/-- MINU (R160). -/
def execMinu (d : BitVec 5) (a : BitVec 5) (e : Bool) (b : BitVec 5) (f : Bool) (p : BitVec 3) (s : State) : Out :=
  .next (slotOp s (.minu d a e b f p) fun s => toX s 1 d (minU (rx s a) (rx s b)))

/-- MAXU (R160). -/
def execMaxu (d : BitVec 5) (a : BitVec 5) (e : Bool) (b : BitVec 5) (f : Bool) (p : BitVec 3) (s : State) : Out :=
  .next (slotOp s (.maxu d a e b f p) fun s => toX s 1 d (maxU (rx s a) (rx s b)))

/-- MUL (R161), latency 3. -/
def execMul (d : BitVec 5) (a : BitVec 5) (e : Bool) (b : BitVec 5) (f : Bool) (p : BitVec 3) (s : State) : Out :=
  .next (slotOp s (.mul d a e b f p) fun s => toX s 3 d (rx s a * rx s b))

/-- MULH (R161), latency 3. -/
def execMulh (d : BitVec 5) (a : BitVec 5) (e : Bool) (b : BitVec 5) (f : Bool) (p : BitVec 3) (s : State) : Out :=
  .next (slotOp s (.mulh d a e b f p) fun s => toX s 3 d (mulhS (rx s a) (rx s b)))

/-- MULHU (R161), latency 3. -/
def execMulhu (d : BitVec 5) (a : BitVec 5) (e : Bool) (b : BitVec 5) (f : Bool) (p : BitVec 3) (s : State) : Out :=
  .next (slotOp s (.mulhu d a e b f p) fun s => toX s 3 d (mulhU (rx s a) (rx s b)))

/-- DIV (R162), long-latency. -/
def execDiv (d : BitVec 5) (a : BitVec 5) (e : Bool) (b : BitVec 5) (f : Bool) (p : BitVec 3) (s : State) : Out :=
  .next (slotOp s (.div d a e b f p) fun s => toXD s d (divS (rx s a) (rx s b)))

/-- DIVU (R162), long-latency. -/
def execDivu (d : BitVec 5) (a : BitVec 5) (e : Bool) (b : BitVec 5) (f : Bool) (p : BitVec 3) (s : State) : Out :=
  .next (slotOp s (.divu d a e b f p) fun s => toXD s d (divU (rx s a) (rx s b)))

/-- REM (R162), long-latency. -/
def execRem (d : BitVec 5) (a : BitVec 5) (e : Bool) (b : BitVec 5) (f : Bool) (p : BitVec 3) (s : State) : Out :=
  .next (slotOp s (.rem d a e b f p) fun s => toXD s d (remS (rx s a) (rx s b)))

/-- REMU (R162), long-latency. -/
def execRemu (d : BitVec 5) (a : BitVec 5) (e : Bool) (b : BitVec 5) (f : Bool) (p : BitVec 3) (s : State) : Out :=
  .next (slotOp s (.remu d a e b f p) fun s => toXD s d (remU (rx s a) (rx s b)))

/-- CLZ (R163). -/
def execClz (d : BitVec 5) (a : BitVec 5) (e : Bool) (p : BitVec 3) (s : State) : Out :=
  .next (slotOp s (.clz d a e p) fun s => toX s 1 d (clzW (rx s a)))

/-- CTZ (R163). -/
def execCtz (d : BitVec 5) (a : BitVec 5) (e : Bool) (p : BitVec 3) (s : State) : Out :=
  .next (slotOp s (.ctz d a e p) fun s => toX s 1 d (ctzW (rx s a)))

/-- POPC (R163). -/
def execPopc (d : BitVec 5) (a : BitVec 5) (e : Bool) (p : BitVec 3) (s : State) : Out :=
  .next (slotOp s (.popc d a e p) fun s => toX s 1 d (popcW (rx s a)))

/-- BREV (R163). -/
def execBrev (d : BitVec 5) (a : BitVec 5) (e : Bool) (p : BitVec 3) (s : State) : Out :=
  .next (slotOp s (.brev d a e p) fun s => toX s 1 d (brevW (rx s a)))

/-- EXTB (R163). -/
def execExtb (d : BitVec 5) (a : BitVec 5) (e : Bool) (p : BitVec 3) (s : State) : Out :=
  .next (slotOp s (.extb d a e p) fun s => toX s 1 d (sextW 8 (rx s a)))

/-- EXTH (R163). -/
def execExth (d : BitVec 5) (a : BitVec 5) (e : Bool) (p : BitVec 3) (s : State) : Out :=
  .next (slotOp s (.exth d a e p) fun s => toX s 1 d (sextW 16 (rx s a)))

/-- EXTW (R163). -/
def execExtw (d : BitVec 5) (a : BitVec 5) (e : Bool) (p : BitVec 3) (s : State) : Out :=
  .next (slotOp s (.extw d a e p) fun s => toX s 1 d (sextW 32 (rx s a)))

/-- EXBU (R163). -/
def execExbu (d : BitVec 5) (a : BitVec 5) (e : Bool) (p : BitVec 3) (s : State) : Out :=
  .next (slotOp s (.exbu d a e p) fun s => toX s 1 d (zextW 8 (rx s a)))

/-- EXHU (R163). -/
def execExhu (d : BitVec 5) (a : BitVec 5) (e : Bool) (p : BitVec 3) (s : State) : Out :=
  .next (slotOp s (.exhu d a e p) fun s => toX s 1 d (zextW 16 (rx s a)))

/-- EXWU (R163). -/
def execExwu (d : BitVec 5) (a : BitVec 5) (e : Bool) (p : BitVec 3) (s : State) : Out :=
  .next (slotOp s (.exwu d a e p) fun s => toX s 1 d (zextW 32 (rx s a)))

/-- ADDI (R164). -/
def execAddi (d : BitVec 5) (a : BitVec 5) (e : Bool) (i : BitVec 12) (p : BitVec 3) (s : State) : Out :=
  .next (slotOp s (.addi d a e i p) fun s => toX s 1 d (rx s a + imm12 i))

/-- ANDI (R164). -/
def execAndi (d : BitVec 5) (a : BitVec 5) (e : Bool) (i : BitVec 12) (p : BitVec 3) (s : State) : Out :=
  .next (slotOp s (.andi d a e i p) fun s => toX s 1 d (rx s a &&& imm12 i))

/-- ORI (R164). -/
def execOri (d : BitVec 5) (a : BitVec 5) (e : Bool) (i : BitVec 12) (p : BitVec 3) (s : State) : Out :=
  .next (slotOp s (.ori d a e i p) fun s => toX s 1 d (rx s a ||| imm12 i))

/-- XORI (R164). -/
def execXori (d : BitVec 5) (a : BitVec 5) (e : Bool) (i : BitVec 12) (p : BitVec 3) (s : State) : Out :=
  .next (slotOp s (.xori d a e i p) fun s => toX s 1 d (rx s a ^^^ imm12 i))

/-- SLLI (R164): the count is imm12[5:0]. -/
def execSlli (d : BitVec 5) (a : BitVec 5) (e : Bool) (h : BitVec 6) (p : BitVec 3) (s : State) : Out :=
  .next (slotOp s (.slli d a e h p) fun s => toX s 1 d (rx s a <<< h.toNat))

/-- SRLI (R164): the count is imm12[5:0]. -/
def execSrli (d : BitVec 5) (a : BitVec 5) (e : Bool) (h : BitVec 6) (p : BitVec 3) (s : State) : Out :=
  .next (slotOp s (.srli d a e h p) fun s => toX s 1 d (rx s a >>> h.toNat))

/-- SRAI (R164): the count is imm12[5:0]. -/
def execSrai (d : BitVec 5) (a : BitVec 5) (e : Bool) (h : BitVec 6) (p : BitVec 3) (s : State) : Out :=
  .next (slotOp s (.srai d a e h p) fun s => toX s 1 d ((rx s a).sshiftRight h.toNat))

/-- MULI (R164), latency 3. -/
def execMuli (d : BitVec 5) (a : BitVec 5) (e : Bool) (i : BitVec 12) (p : BitVec 3) (s : State) : Out :=
  .next (slotOp s (.muli d a e i p) fun s => toX s 3 d (rx s a * imm12 i))

/-- LIM (R165). -/
def execLim (d : BitVec 5) (h : BitVec 2) (i : BitVec 16) (p : BitVec 3) (s : State) : Out :=
  .next (slotOp s (.lim d h i p) fun s => toX s 1 d (i.setWidth 64 <<< (16 * h.toNat)))

/-- LIK (R165): reads its destination. -/
def execLik (d : BitVec 5) (h : BitVec 2) (i : BitVec 16) (p : BitVec 3) (s : State) : Out :=
  .next (slotOp s (.lik d h i p) fun s => toX s 1 d ((rx s d &&& ~~~((0xFFFF : Word) <<< (16 * h.toNat))) ||| (i.setWidth 64 <<< (16 * h.toNat))))

/-- CMP (R166, R167): a binary64 condition raises its flags. -/
def execCmp (d : BitVec 3) (c : BitVec 4) (a : BitVec 5) (e : Bool) (b : BitVec 5) (f : Bool) (p : BitVec 3) (s : State) : Out :=
  .next (slotOp s (.cmp d c a e b f p) fun s => let r := condRes c.toNat (rx s a) (rx s b)
    withFlags s r.2 fun s => toQ s 1 d r.1)

/-- CMPI (R166): sext(imm10). -/
def execCmpi (d : BitVec 3) (c : BitVec 4) (a : BitVec 5) (e : Bool) (i : BitVec 10) (p : BitVec 3) (s : State) : Out :=
  .next (slotOp s (.cmpi d c a e i p) fun s => toQ s 1 d (intCond c.toNat (rx s a) (i.signExtend 64)))

/-- SEL (R168). -/
def execSel (d : BitVec 5) (a : BitVec 5) (e : Bool) (b : BitVec 5) (f : Bool) (s : BitVec 3) (p : BitVec 3) (st : State) : Out :=
  .next (slotOp st (.sel d a e b f s p) fun st => toX st 1 d (if readQ (actRegs st) s.toNat then rx st a else rx st b))

/-- PAND (R169). -/
def execPand (d : BitVec 3) (a : BitVec 3) (e : Bool) (b : BitVec 3) (f : Bool) (p : BitVec 3) (s : State) : Out :=
  .next (slotOp s (.pand d a e b f p) fun s => toQ s 1 d (readQ (actRegs s) a.toNat && readQ (actRegs s) b.toNat))

/-- POR (R169). -/
def execPor (d : BitVec 3) (a : BitVec 3) (e : Bool) (b : BitVec 3) (f : Bool) (p : BitVec 3) (s : State) : Out :=
  .next (slotOp s (.por d a e b f p) fun s => toQ s 1 d (readQ (actRegs s) a.toNat || readQ (actRegs s) b.toNat))

/-- PXOR (R169). -/
def execPxor (d : BitVec 3) (a : BitVec 3) (e : Bool) (b : BitVec 3) (f : Bool) (p : BitVec 3) (s : State) : Out :=
  .next (slotOp s (.pxor d a e b f p) fun s => toQ s 1 d (xor (readQ (actRegs s) a.toNat) (readQ (actRegs s) b.toNat)))

/-- PNOT (R169). -/
def execPnot (d : BitVec 3) (a : BitVec 3) (e : Bool) (p : BitVec 3) (s : State) : Out :=
  .next (slotOp s (.pnot d a e p) fun s => toQ s 1 d (!readQ (actRegs s) a.toNat))

/-- DADD (R170), latency 4. -/
def execDadd (d : BitVec 5) (a : BitVec 5) (e : Bool) (b : BitVec 5) (f : Bool) (r : BitVec 3) (p : BitVec 3) (s : State) : Out :=
  .next (slotOp s (.dadd d a e b f r p) fun s => toXF s 4 d (fadd f64 (dynMode s r) false (rx s a).toNat (rx s b).toNat))

/-- DSUB (R170), latency 4. -/
def execDsub (d : BitVec 5) (a : BitVec 5) (e : Bool) (b : BitVec 5) (f : Bool) (r : BitVec 3) (p : BitVec 3) (s : State) : Out :=
  .next (slotOp s (.dsub d a e b f r p) fun s => toXF s 4 d (fadd f64 (dynMode s r) true (rx s a).toNat (rx s b).toNat))

/-- DMUL (R170), latency 4. -/
def execDmul (d : BitVec 5) (a : BitVec 5) (e : Bool) (b : BitVec 5) (f : Bool) (r : BitVec 3) (p : BitVec 3) (s : State) : Out :=
  .next (slotOp s (.dmul d a e b f r p) fun s => toXF s 4 d (fmul f64 (dynMode s r) (rx s a).toNat (rx s b).toNat))

/-- DDIV (R170), long-latency. -/
def execDdiv (d : BitVec 5) (a : BitVec 5) (e : Bool) (b : BitVec 5) (f : Bool) (r : BitVec 3) (p : BitVec 3) (s : State) : Out :=
  .next (slotOp s (.ddiv d a e b f r p) fun s => toXL s d (fdiv f64 (dynMode s r) (rx s a).toNat (rx s b).toNat))

/-- DSQRT (R170), long-latency. -/
def execDsqrt (d : BitVec 5) (a : BitVec 5) (e : Bool) (r : BitVec 3) (p : BitVec 3) (s : State) : Out :=
  .next (slotOp s (.dsqrt d a e r p) fun s => toXL s d (fsqrt f64 (dynMode s r) (rx s a).toNat))

/-- DMIN (R171), latency 4. -/
def execDmin (d : BitVec 5) (a : BitVec 5) (e : Bool) (b : BitVec 5) (f : Bool) (p : BitVec 3) (s : State) : Out :=
  .next (slotOp s (.dmin d a e b f p) fun s => toXF s 4 d (fminmax f64 false (rx s a).toNat (rx s b).toNat))

/-- DMAX (R171), latency 4. -/
def execDmax (d : BitVec 5) (a : BitVec 5) (e : Bool) (b : BitVec 5) (f : Bool) (p : BitVec 3) (s : State) : Out :=
  .next (slotOp s (.dmax d a e b f p) fun s => toXF s 4 d (fminmax f64 true (rx s a).toNat (rx s b).toNat))

/-- DABS (R171): clears bit 63; no flag. -/
def execDabs (d : BitVec 5) (a : BitVec 5) (e : Bool) (p : BitVec 3) (s : State) : Out :=
  .next (slotOp s (.dabs d a e p) fun s => toX s 1 d (rx s a &&& 0x7FFFFFFFFFFFFFFF))

/-- DNEG (R171): inverts bit 63; no flag. -/
def execDneg (d : BitVec 5) (a : BitVec 5) (e : Bool) (p : BitVec 3) (s : State) : Out :=
  .next (slotOp s (.dneg d a e p) fun s => toX s 1 d (rx s a ^^^ 0x8000000000000000))

/-- DFMA (R172), latency 5; the addend is x[xd]. -/
def execDfma (d : BitVec 5) (a : BitVec 5) (e : Bool) (b : BitVec 5) (f : Bool) (r : BitVec 3) (p : BitVec 3) (s : State) : Out :=
  .next (slotOp s (.dfma d a e b f r p) fun s => toXF s 5 d (ffma f64 (dynMode s r) false false (rx s a).toNat (rx s b).toNat (rx s d).toNat))

/-- DFMS (R172), latency 5; the addend is x[xd]. -/
def execDfms (d : BitVec 5) (a : BitVec 5) (e : Bool) (b : BitVec 5) (f : Bool) (r : BitVec 3) (p : BitVec 3) (s : State) : Out :=
  .next (slotOp s (.dfms d a e b f r p) fun s => toXF s 5 d (ffma f64 (dynMode s r) false true (rx s a).toNat (rx s b).toNat (rx s d).toNat))

/-- DNFMA (R172), latency 5; the addend is x[xd]. -/
def execDnfma (d : BitVec 5) (a : BitVec 5) (e : Bool) (b : BitVec 5) (f : Bool) (r : BitVec 3) (p : BitVec 3) (s : State) : Out :=
  .next (slotOp s (.dnfma d a e b f r p) fun s => toXF s 5 d (ffma f64 (dynMode s r) true true (rx s a).toNat (rx s b).toNat (rx s d).toNat))

/-- DNFMS (R172), latency 5; the addend is x[xd]. -/
def execDnfms (d : BitVec 5) (a : BitVec 5) (e : Bool) (b : BitVec 5) (f : Bool) (r : BitVec 3) (p : BitVec 3) (s : State) : Out :=
  .next (slotOp s (.dnfms d a e b f r p) fun s => toXF s 5 d (ffma f64 (dynMode s r) true false (rx s a).toNat (rx s b).toNat (rx s d).toNat))

/-- FADD (R170), latency 4. -/
def execFadd (d : BitVec 5) (a : BitVec 5) (e : Bool) (b : BitVec 5) (f : Bool) (r : BitVec 3) (p : BitVec 3) (s : State) : Out :=
  .next (slotOp s (.fadd d a e b f r p) fun s => toXF s 4 d (fadd f32 (dynMode s r) false (lo32 (rx s a)) (lo32 (rx s b))))

/-- FSUB (R170), latency 4. -/
def execFsub (d : BitVec 5) (a : BitVec 5) (e : Bool) (b : BitVec 5) (f : Bool) (r : BitVec 3) (p : BitVec 3) (s : State) : Out :=
  .next (slotOp s (.fsub d a e b f r p) fun s => toXF s 4 d (fadd f32 (dynMode s r) true (lo32 (rx s a)) (lo32 (rx s b))))

/-- FMUL (R170), latency 4. -/
def execFmul (d : BitVec 5) (a : BitVec 5) (e : Bool) (b : BitVec 5) (f : Bool) (r : BitVec 3) (p : BitVec 3) (s : State) : Out :=
  .next (slotOp s (.fmul d a e b f r p) fun s => toXF s 4 d (fmul f32 (dynMode s r) (lo32 (rx s a)) (lo32 (rx s b))))

/-- FDIV (R170), long-latency. -/
def execFdiv (d : BitVec 5) (a : BitVec 5) (e : Bool) (b : BitVec 5) (f : Bool) (r : BitVec 3) (p : BitVec 3) (s : State) : Out :=
  .next (slotOp s (.fdiv d a e b f r p) fun s => toXL s d (fdiv f32 (dynMode s r) (lo32 (rx s a)) (lo32 (rx s b))))

/-- FSQRT (R170), long-latency. -/
def execFsqrt (d : BitVec 5) (a : BitVec 5) (e : Bool) (r : BitVec 3) (p : BitVec 3) (s : State) : Out :=
  .next (slotOp s (.fsqrt d a e r p) fun s => toXL s d (fsqrt f32 (dynMode s r) (lo32 (rx s a))))

/-- FMIN (R171), latency 4. -/
def execFmin (d : BitVec 5) (a : BitVec 5) (e : Bool) (b : BitVec 5) (f : Bool) (p : BitVec 3) (s : State) : Out :=
  .next (slotOp s (.fmin d a e b f p) fun s => toXF s 4 d (fminmax f32 false (lo32 (rx s a)) (lo32 (rx s b))))

/-- FMAX (R171), latency 4. -/
def execFmax (d : BitVec 5) (a : BitVec 5) (e : Bool) (b : BitVec 5) (f : Bool) (p : BitVec 3) (s : State) : Out :=
  .next (slotOp s (.fmax d a e b f p) fun s => toXF s 4 d (fminmax f32 true (lo32 (rx s a)) (lo32 (rx s b))))

/-- FFMA (R172), latency 5; the addend is x[xd][31:0]. -/
def execFfma (d : BitVec 5) (a : BitVec 5) (e : Bool) (b : BitVec 5) (f : Bool) (r : BitVec 3) (p : BitVec 3) (s : State) : Out :=
  .next (slotOp s (.ffma d a e b f r p) fun s => toXF s 5 d (ffma f32 (dynMode s r) false false (lo32 (rx s a)) (lo32 (rx s b)) (lo32 (rx s d))))

/-- I2D (R173, R174), latency 3. -/
def execI2d (d : BitVec 5) (a : BitVec 5) (e : Bool) (r : BitVec 3) (p : BitVec 3) (s : State) : Out :=
  .next (slotOp s (.i2d d a e r p) fun s => toXF s 3 d (intToFloat f64 false (dynMode s r) (rx s a).toInt))

/-- U2D (R173, R174), latency 3. -/
def execU2d (d : BitVec 5) (a : BitVec 5) (e : Bool) (r : BitVec 3) (p : BitVec 3) (s : State) : Out :=
  .next (slotOp s (.u2d d a e r p) fun s => toXF s 3 d (intToFloat f64 false (dynMode s r) (rx s a).toNat))

/-- D2I (R173, R174), latency 3. -/
def execD2i (d : BitVec 5) (a : BitVec 5) (e : Bool) (r : BitVec 3) (p : BitVec 3) (s : State) : Out :=
  .next (slotOp s (.d2i d a e r p) fun s => toXF s 3 d (floatToInt f64 true 64 (dynMode s r) (rx s a).toNat))

/-- D2U (R173, R174), latency 3. -/
def execD2u (d : BitVec 5) (a : BitVec 5) (e : Bool) (r : BitVec 3) (p : BitVec 3) (s : State) : Out :=
  .next (slotOp s (.d2u d a e r p) fun s => toXF s 3 d (floatToInt f64 false 64 (dynMode s r) (rx s a).toNat))

/-- F2D (R173, R174), latency 3. -/
def execF2d (d : BitVec 5) (a : BitVec 5) (e : Bool) (r : BitVec 3) (p : BitVec 3) (s : State) : Out :=
  .next (slotOp s (.f2d d a e r p) fun s => toXF s 3 d (cvtFloat f32 f64 false (dynMode s r) (lo32 (rx s a))))

/-- D2F (R173, R174), latency 3. -/
def execD2f (d : BitVec 5) (a : BitVec 5) (e : Bool) (r : BitVec 3) (p : BitVec 3) (s : State) : Out :=
  .next (slotOp s (.d2f d a e r p) fun s => toXF s 3 d (cvtFloat f64 f32 false (dynMode s r) (rx s a).toNat))

/-- I2F (R173, R174), latency 3. -/
def execI2f (d : BitVec 5) (a : BitVec 5) (e : Bool) (r : BitVec 3) (p : BitVec 3) (s : State) : Out :=
  .next (slotOp s (.i2f d a e r p) fun s => toXF s 3 d (intToFloat f32 false (dynMode s r) (rx s a).toInt))

/-- F2I (R173, R174), latency 3. -/
def execF2i (d : BitVec 5) (a : BitVec 5) (e : Bool) (r : BitVec 3) (p : BitVec 3) (s : State) : Out :=
  .next (slotOp s (.f2i d a e r p) fun s => toXF s 3 d (floatToInt f32 true 64 (dynMode s r) (lo32 (rx s a))))

/-- MFS (R175): the register zero-extended, latency 1; in curator mode that of the context named by KSTAT.ctx, 0 when
KSTAT.idle is set (R330). -/
def execMfs (d : BitVec 5) (s : BitVec 12) (p : BitVec 3) (st : State) : Out :=
  .next (slotOp st (.mfs d s p) fun st =>
    let c := curCore st
    let x := seenCtx st
    if c.curator && kIdle c then toX st 1 d 0
    else if sregWaits x s.toNat then freeze st .flags
    else toX st 1 d (BitVec.ofNat 64 (readSreg x s.toNat)))

/-- MTS (R175): am0 to am3 are deferred (R55); every other register is written for the bundles that follow. In
curator mode it acts on the context named by KSTAT.ctx, am0 to am3 included (R330). -/
def execMts (a : BitVec 5) (e : Bool) (s : BitVec 12) (p : BitVec 3) (st : State) : Out :=
  .next (slotOp st (.mts a e s p) fun st =>
    let c := curCore st
    let v := (rx st a).toNat
    if c.curator then
      (if kIdle c then st else if sregWaits (getCtx c (sregCtx c)) s.toNat then freeze st .flags else modScr st fun q => { q with sregs := q.sregs ++ [(s.toNat, v)] })
    else if sregWaits (actCtx st) s.toNat then freeze st .flags
    else if 0x20 ≤ s.toNat ∧ s.toNat ≤ 0x23 then withhold st (.amset (s.toNat - 0x20) (BitVec.ofNat 32 v))
    else modScr st fun q => { q with sregs := q.sregs ++ [(s.toNat, v)] })

end Sys2Proof.Machine
end

