-- ==== Sys2Proof/Machine/Control.lean ====
section
/-!
DEFINITION. The control slot in stage mode (06 R140 to R159), the sequencer (04 R92 to R97), and the checkpoint
boundary (04 R98).
-/
namespace Sys2Proof.Machine

/-! ### Streams (R61, R69, R71) -/

def stField (st : Stream) (lo w : Nat) : Nat := bitsOf st.desc.toNat lo w

/-- count_d; 0 means that the dimension is absent. -/
def stCount (st : Stream) (d : Nat) : Nat := stField st (40 + 40 * d) 16

/-- stride_d, signed. -/
def stStride (st : Stream) (d : Nat) : Int := sextNat 24 (stField st (56 + 40 * d) 24)

/-- The advance of a stream at the end of an iteration of level `d` (R71): deeper indices return to 0. -/
def advStream (st : Stream) (d : Nat) : Stream :=
  { st with idx := (List.range 6).map fun j =>
      if j < d then nth 0 st.idx j
      else if j = d then (if stCount st d = 0 then 0 else (nth 0 st.idx d + 1) % stCount st d)
      else 0 }

/-- Every loaded stream advances for level `d` (R71, R96). -/
def advStreams (r : Regs) (d : Nat) : Regs :=
  { r with st := r.st.map fun st => if st.loaded then advStream st d else st }

/-! ### The sequencer -/

def loopActive (r : Regs) (lvl : Nat) : Option Loop := r.loops.find? fun l => l.lvl == lvl

/-- The active levels whose body ends at bundle `i`, innermost first. -/
def endingAt (r : Regs) (i : Nat) : List Loop := r.loops.filter fun l => l.last == i

/-- The end of an iteration at bundle `i` (R96), over the levels that end there, innermost first. -/
def loopEnd (r : Regs) (i : Nat) : List Loop → Regs
  | [] => { r with next := .at (i + 1) }
  | l :: ls =>
    let n := r.lc.getD l.lvl 0 + 1
    let r := advStreams { r with lc := r.lc.setIfInBounds l.lvl n } l.lvl
    if n.ult (r.lt.getD l.lvl 0) then { r with next := .at l.first }
    else loopEnd { r with loops := r.loops.filter fun m => m.lvl != l.lvl } i ls

def Loop.holds (l : Loop) (n : Nat) : Bool := decide (l.first ≤ n) && decide (n ≤ l.last)

/-- The levels that a taken BR to `n` leaves active (R97): all while the innermost body holds the target, else those
whose bodies do. -/
def loopsHolding (r : Regs) (n : Nat) : List Loop :=
  if (r.loops.head?.map (·.holds n)).getD true then r.loops else r.loops.filter (·.holds n)

/-- The next-PC state after bundle `i` has issued, with the control slot's action (R92 to R97). -/
def advance (r : Regs) (i : Nat) (act : CtlAct) : Regs :=
  match r.next with
  | .delay _ (some (.goto n)) call =>
    { r with next := .at n, loops := if call then r.loops else loopsHolding r n }
  | .delay _ (some (.bad v)) _ => { r with next := .badTarget v }
  | _ =>
    match act with
    | .branch t call => { r with next := .delay (i + 1) t call }
    | .loop l true => { r with next := .at (i + 1), loops := l :: r.loops }
    | .loop l false => { r with next := .at (l.last + 1) }
    | .brk lvl =>
      match loopActive r lvl with
      | none => { r with next := .at (i + 1) }
      | some l =>
        let r := { r with loops := r.loops.filter fun m => decide (m.lvl < lvl) }
        if l.last = i then loopEnd r i (endingAt r i) else { r with next := .at (l.last + 1) }
    | .done => { r with next := .openFiring, loops := [] }
    | .ret => r
    | .none => loopEnd r i (endingAt r i)
    | .ckpt => loopEnd r i (endingAt r i)

def inDelay (s : State) : Bool :=
  match (actRegs s).next with
  | .delay _ _ _ => true
  | _ => false

def inTakenDelay (s : State) : Bool :=
  match (actRegs s).next with
  | .delay _ (some _) _ => true
  | _ => false

def setAct (s : State) (a : CtlAct) : State := modScr s fun q => { q with act := a }

/-- The trap of forbidden instructions: ILLEGAL in a delay bundle (R93), LOOP in the last bundle of an active body
(R96). The checks hold whatever the guard. -/
def ctlForbidden (s : State) (i : Instr) (delay last : Bool) : Option (Nat × Nat) :=
  if delay && inDelay s then some (0x01, (encode i).getD 0)
  else match endingAt (actRegs s) (issueIndex (curCore s)) with
    | l :: _ => if last then some (0x0E, l.lvl + 4 * 2 ^ 8) else none
    | [] => none

/-- A control instruction that R93 and R96 restrict. Of the reasons that R393 gives a structural error, reason 4, the last bundle
of an active body, is reported before those of LOOP and LOOPSL: DESIGN CHOICE, no rule orders them (log entry 30). -/
def ctlOp (s : State) (i : Instr) (last : Bool) (body : State → State) : State :=
  match decodeCause (curCore s).curator i with
  | some _ => slotOp s i body
  | none =>
    match ctlForbidden s i true last with
    | some (c, v) => raise s c v
    | none => slotOp s i body

/-! ### Branches -/

def setBt (s : State) (n : Nat) (b : BtReg) : State :=
  let s := modAct s fun r => { r with bt := r.bt.setIfInBounds n b }
  modCore s s.cur fun c => noteWrite c (actWho c) (btRec n b.target)

def getBt (s : State) (n : Nat) : BtReg := (actRegs s).bt.getD n .reset

/-- NOP. -/
def execNop (s : State) : Out := .next (slotOp s .nop fun s => s)

/-- The target of a PBR (R140). -/
def pbrTarget (s : State) (o : BitVec 24) : Int := (issueIndex (curCore s) : Int) + o.toInt

/-- PBR (R140): a target outside 0 to 8191 traps ILLEGAL (R121). -/
def execPbr (b : BitVec 2) (o : BitVec 24) (s : State) : Out :=
  .next (slotOp s (.pbr b o) fun s =>
    let t := pbrTarget s o
    if t < 0 ∨ 8191 < t then raise s 0x01 ((encode (.pbr b o)).getD 0)
    else setBt s b.toNat ⟨BitVec.ofInt 16 t, false, none⟩)

/-- PBRX (R141): a target above 8191 marks the register bad. -/
def execPbrx (a : BitVec 5) (e : Bool) (b : BitVec 2) (n : Bool) (p : BitVec 3) (s : State) : Out :=
  .next (slotOp s (.pbrx a e b n p) fun s =>
    let v := rx s a
    if v.toNat ≤ 8191 then setBt s b.toNat ⟨v.setWidth 16, false, none⟩
    else setBt s b.toNat ⟨(getBt s b.toNat).target, false, some v⟩)

/-- A branch whose condition `c` has been read: untaken, taken through a bad register (R141), frozen while the fetch
buffer does not hold the target (R92), or taken. `link` is done when it is taken. -/
def branch (s : State) (b : BitVec 2) (c call : Bool) (link : State → State) : State :=
  let t := getBt s b.toNat
  if c = false then setAct s (.branch none call)
  else match t.bad with
    | some v => setAct (link s) (.branch (some (.bad v)) call)
    | none => if t.fetched then setAct (link s) (.branch (some (.goto t.target.toNat)) call) else freeze s .fetch

/-- BR (R142). -/
def execBr (b : BitVec 2) (n : Bool) (p : BitVec 3) (s : State) : Out :=
  .next (ctlOp s (.br b n p) true fun s => branch s b (xor (readQ (actRegs s) p.toNat) n) false fun s => s)

/-- CALL (R143): the link is the index of the bundle after the delay bundle, at latency 1. -/
def execCall (d : BitVec 5) (b : BitVec 2) (n : Bool) (p : BitVec 3) (s : State) : Out :=
  .next (ctlOp s (.call d b n p) true fun s =>
    branch s b (xor (readQ (actRegs s) p.toNat) n) true fun s =>
      toX s 1 d (BitVec.ofNat 64 (issueIndex (curCore s) + 2)))

/-! ### Loop bodies -/

/-- The reason that a LOOP of level `lvl` with body `first` to `last` traps (R94, R393). -/
def loopReason (r : Regs) (i lvl last : Nat) : Option Nat :=
  if (loopActive r lvl).isSome then some 1
  else if r.loops.any (fun l => decide (lvl ≤ l.lvl)) then some 2
  else if r.loops.any (fun l => decide (l.first ≤ i) && decide (i ≤ l.last) && decide (l.last < last)) then some 3
  else none

/-- Declare a level (R94): the counter and the trip are written for the next bundle, and the level becomes active when
the counter is below the trip. -/
def declareLoop (s : State) (lvl len : Nat) (lc lt : Nat) (write : Bool) : State :=
  let i := issueIndex (curCore s)
  let r := actRegs s
  if rngPending (actCtx s) lvl then freeze s .rngAnswer
  else match loopReason r i lvl (i + 1 + len) with
    | some w => raise s 0x0E (lvl + w * 2 ^ 8)
    | none =>
      let s := if write then modScr s fun q => { q with sregs := q.sregs ++ [(lvl, lc), (8 + lvl, lt)] } else s
      setAct s (.loop ⟨lvl, i + 1, i + 1 + len⟩ (decide (lc < lt)))

/-- LOOP with an immediate trip (R144). -/
def execLoopImm (v : BitVec 3) (l : BitVec 8) (t : BitVec 14) (s : State) : Out :=
  .next (ctlOp s (.loopImm v l t) true fun s => declareLoop s v.toNat l.toNat 0 t.toNat true)

/-- LOOP with a register trip (R144): 2^32 or more traps LOOP. -/
def execLoopReg (v : BitVec 3) (l : BitVec 8) (a : BitVec 5) (e : Bool) (s : State) : Out :=
  .next (ctlOp s (.loopReg v l a e) true fun s =>
    let i := issueIndex (curCore s)
    if rngPending (actCtx s) v.toNat then freeze s .rngAnswer
    else if loopReason (actRegs s) i v.toNat (i + 1 + l.toNat) = none ∧ 2 ^ 32 ≤ (rx s a).toNat then
      raise s 0x0E (v.toNat + 6 * 2 ^ 8)
    else declareLoop s v.toNat l.toNat 0 (rx s a).toNat true)

/-- LOOP in its counter-keeping form (R144). -/
def execLoopKeep (v : BitVec 3) (l : BitVec 8) (s : State) : Out :=
  .next (ctlOp s (.loopKeep v l) true fun s =>
    let r := actRegs s
    declareLoop s v.toNat l.toNat (r.lc.getD v.toNat 0).toNat (r.lt.getD v.toNat 0).toNat false)

/-- The trip of a LOOPSL (R95), formed in 33 bits. -/
def slTrip (sl : BitVec 32) (h : Nat) : Nat := (sl.toNat + 2 ^ h - 1) / 2 ^ h

/-- LOOPSL (R145). -/
def execLoopsl (v : BitVec 3) (l : BitVec 8) (h : BitVec 4) (s : State) : Out :=
  .next (ctlOp s (.loopsl v l h) true fun s =>
    declareLoop s v.toNat l.toNat 0 (slTrip (actRegs s).sl h.toNat) true)

/-- LBRK (R146): on an inactive level it traps LOOP when its condition holds. -/
def execLbrk (v : BitVec 3) (n : Bool) (p : BitVec 3) (s : State) : Out :=
  .next (ctlOp s (.lbrk v n p) false fun s =>
    if xor (readQ (actRegs s) p.toNat) n = false then s
    else if (loopActive (actRegs s) v.toNat).isNone then raise s 0x0E (v.toNat + 5 * 2 ^ 8)
    else setAct s (.brk v.toNat))

/-! ### Waiting -/

/-- A write of class 0 to the core's own storage that a commit has released: a later load performs after it (R279). -/
def ownWrite : Effect → Bool
  | .store _ _ _ => true
  | .bari _ _ => true
  | .bara a _ => !bitOf a.toNat 63
  | .barError _ => true
  | _ => false

/-- What a load of these bytes waits for: an in-flight job of the core that writes them (R241), a launch that a FENCE holds
back among them (R280), a released acquire or full FENCE
(R286), or a write to the core's own storage that the context has released and that has not performed (R279). -/
def loadWait (s : State) (sp : Space) (a n : Nat) : Option Freeze :=
  let c := curCore s
  let q := if c.curator then [] else (actCtx s).relq.map (·.eff)
  if (c.jobs.any fun j => j.regions.any fun r => r.write && fpOverlap r sp a n)
      || ((heldRegions s s.cur).any fun e => e.2.write && fpOverlap e.2 sp a n) then some .jobOverlap
  else if q.any (fun e => match e with
      | .fence k _ _ => k == 1 || k == 3
      | _ => false) then some .fence
  else if q.any ownWrite then some .jobOverlap
  else none

/-- KVAL of ALIGN and BOUND (R393). -/
def addrVal (sp : Space) (a : Nat) : Nat := a % 2 ^ 63 + (if sp = .win then 2 ^ 63 else 0)

/-- KVAL of RINGERR (R393). -/
def ringVal (port : Nat) (out : Bool) (reason : Nat) : Nat := port + b01 out * 8 + reason * 2 ^ 8

/-- WAITT (R148). -/
def execWaitt (a : BitVec 5) (e : Bool) (o : BitVec 3) (n : Bool) (p : BitVec 3) (s : State) : Out :=
  .next (slotOp s (.waitt a e o n p) fun s =>
    match ringCfg (actCtx s) o.toNat with
    | none => raise s 0x10 (ringVal o.toNat false 1)
    | some c =>
      if 2 ^ c.n < (rx s a).toNat then raise s 0x10 (ringVal o.toNat false 5)
      else if (visibleToks c (getIn (actCtx s) o.toNat)).length < (rx s a).toNat then freeze s (.waitt o.toNat)
      else s)

/-- EVPOP (R149): both destinations are claimed; the record arrives later. -/
def execEvpop (d : BitVec 5) (b : BitVec 5) (n : Bool) (p : BitVec 3) (s : State) : Out :=
  .next (slotOp s (.evpop d b n p) fun s =>
    match (actCtx s).cfg.evq with
    | none => raise s 0x10 (ringVal 0 false 6)
    | some _ => addProducer (claim s [xReg d.toNat, xReg b.toNat]) (.evpop d.toNat b.toNat))

/-! ### Ending a firing, checkpoints, fences, traps -/

/-- DONE (R150): the firing ends with its checkpoint after the bundle. -/
def execDone (n : Bool) (p : BitVec 3) (s : State) : Out :=
  .next (ctlOp s (.done n p) true fun s => setAct s .done)

/-- CKPT (R151). -/
def execCkpt (n : Bool) (p : BitVec 3) (s : State) : Out :=
  .next (slotOp s (.ckpt n p) fun s => setAct s .ckpt)

/-- FENCE (R152, R285): withheld in stage mode. A curator FENCE takes effect at issue (R329): it freezes its bundle
until the curator's outstanding jobs of a class in its mask have completed, and, for a release, until its remote barrier
arrivals within the scope, which are of class 0, have performed (R292). -/
def execFence (k : BitVec 2) (sc : BitVec 2) (m : BitVec 16) (n : Bool) (p : BitVec 3) (s : State) : Out :=
  .next (slotOp s (.fence k sc m n p) fun s =>
    if (curCore s).curator then
      (if (curCore s).jobs.any (fun j => j.owner == .cur && bitOf m.toNat j.cls)
          || (k != 1 && bitOf m.toNat 0 && baraOpen s s.cur true (inScope s s.cur sc.toNat)) then freeze s .fence else s)
    else withhold s (.fence k.toNat sc.toNat m))

/-- TRAP (R153). -/
def execTrap (i : BitVec 16) (n : Bool) (p : BitVec 3) (s : State) : Out :=
  .next (slotOp s (.trap i n p) fun s => raise s 0x06 i.toNat)

/-- BRK (R153). -/
def execBrk (i : BitVec 16) (n : Bool) (p : BitVec 3) (s : State) : Out :=
  .next (slotOp s (.brk i n p) fun s => raise s 0x07 i.toNat)

/-- The rank of a core in a gang by ascending core index (R154). -/
def gangRank (g : List Nat) (k : Nat) : Nat := (g.filter fun j => decide (j < k)).length

/-- The result of GETID for context `b` of core `k` (R154). -/
def getidWord (s : State) (k : Nat) (b : Bool) : Nat :=
  let x := ctxAt s k b
  s.chip % 2 ^ 12 + (k / 4) * 2 ^ 12 + (k % 4) * 2 ^ 14 + b01 b * 2 ^ 16 + x.cfg.stage % 2 ^ 12 * 2 ^ 20
    + (x.cfg.gang.length - 1) % 16 * 2 ^ 32 + gangRank x.cfg.gang k * 2 ^ 36 + partOf (getCore s k) * 2 ^ 40

/-- GETID (R154); in curator mode it reports the context named by KSTAT.ctx (R330). -/
def execGetid (d : BitVec 5) (n : Bool) (p : BitVec 3) (s : State) : Out :=
  .next (slotOp s (.getid d n p) fun s =>
    toX s 1 d (BitVec.ofNat 64 (getidWord s s.cur (sregCtx (curCore s)))))

/-- A counter of RDCT (R156). -/
def counter (x : Context) (n : Nat) : Word :=
  if n = 0 then x.cyc else if n = 1 then x.fires else x.cnt.getD (n - 2) 0

/-- RDCT (R156); in curator mode it reports the context named by KSTAT.ctx (R330). -/
def execRdct (d : BitVec 5) (c : BitVec 5) (n : Bool) (p : BitVec 3) (s : State) : Out :=
  .next (slotOp s (.rdct d c n p) fun s =>
    toX s 1 d (counter (getCtx (curCore s) (sregCtx (curCore s))) c.toNat))

/-- Release the range that a member holds (R157, R23). -/
def releaseRange (s : State) (k : Nat) (b : Bool) : State :=
  { s with cells := s.cells.map fun c => { c with held := c.held.filter fun h => !(h.core == k && h.ctx == b) } }

/-- RNG (R157): traps LOOP at an active level; releases the range held; the answer arrives later. -/
def execRng (d : BitVec 5) (v : BitVec 3) (n : Bool) (p : BitVec 3) (s : State) : Out :=
  .next (slotOp s (.rng d v n p) fun s =>
    if (loopActive (actRegs s) v.toNat).isSome then raise s 0x0E (v.toNat + 7 * 2 ^ 8)
    else if rngPending (actCtx s) v.toNat then freeze s .rngAnswer
    else
      let s := if (actCtx s).rngReplay.isEmpty then releaseRange s s.cur (runCtx (curCore s)) else s
      addProducer (claim s [xReg d.toNat]) (.rng d.toNat v.toNat))

end Sys2Proof.Machine
end

