-- ==== Sys2Proof/Machine/Transc.lean ====
section
/-!
DEFINITION. The special functions (07 R212 to R214) and the powers of two of the softmax updates (07 R203, R204).
The exact cases are computed exactly. The transcendental ones are evaluated to 320 fraction bits and marked with a
sticky bit, so that one rounding gives the correctly rounded result (log entry 20, UNVERIFIED: the distance of every
value from a rounding boundary is taken to exceed the error of that evaluation).
-/
namespace Sys2Proof.Machine

/-- Fraction bits of the fixed-point evaluation. -/
def fxP : Nat := 320

/-- ln 2 times 2^400, rounded down. -/
def ln2Const : Nat :=
  0xb17217f7d1cf79abc9e3b39803f2f6af40f343267298b62d8a0d175b8baafa2be7b876206debac98559552fb4afa1b10ed2e

/-- π times 2^400, rounded down. -/
def piConst : Nat :=
  0x3243f6a8885a308d313198a2e03707344a4093822299f31d0082efa98ec4e6c89452821e638d01377be5466cf34e90c6cc0ac

/-- The Taylor sum of exp on fixed-point `r`: `t` is the current term, `n` its index. -/
def expSum : Nat → Nat → Nat → Nat → Nat
  | 0, _, _, _ => 0
  | k + 1, r, n, t => t + expSum k r (n + 1) (t * r / 2 ^ fxP / (n + 1))

/-- exp of a fixed-point number below 1. -/
def fxExp (r : Nat) : Nat := expSum 90 r 0 (2 ^ fxP)

/-- The alternating sum of sin and cos on fixed-point `r2 = r * r`. -/
def trigSum : Nat → Nat → Nat → Nat → Int
  | 0, _, _, _ => 0
  | k + 1, r2, n, t => (t : Int) - trigSum k r2 (n + 2) (t * r2 / 2 ^ fxP / ((n + 1) * (n + 2)))

def fxSin (r : Nat) : Int := trigSum 50 (r * r / 2 ^ fxP) 1 r
def fxCos (r : Nat) : Int := trigSum 50 (r * r / 2 ^ fxP) 0 (2 ^ fxP)

/-- The sum of `z^(2i+1) / (2i+1)` on fixed-point `z`. -/
def atanhSum : Nat → Nat → Nat → Nat → Nat
  | 0, _, _, _ => 0
  | k + 1, z2, n, t => t / n + atanhSum k z2 (n + 2) (t * z2 / 2 ^ fxP)

/-- A fixed-point number as a dyadic with a sticky bit below it. -/
def stickyFx (neg : Bool) (v : Nat) : Dy := ⟨neg, 2 * v + 1, -(fxP : Int) - 1⟩

/-- The least exponent of two that the model tells from zero: far below every format. -/
def tinyExp : Int := -5000

/-- `2^x` for a dyadic `x`, exact when `x` is an integer. Powers beyond ±5000 are cut there: they round alike. -/
def exp2Dy (x : Dy) : Dy :=
  if x.mant = 0 then ⟨false, 1, 0⟩
  else if 14 ≤ dyLog x then (if x.neg then ⟨false, 1, tinyExp⟩ else ⟨false, 1, 5000⟩)
  else if 0 ≤ x.exp then ⟨false, 1, dyInt x 0⟩
  else
    let d := (-x.exp).toNat
    let n : Int := if x.neg then -(x.mant : Int) else (x.mant : Int)
    let k := n / ((2 ^ d : Nat) : Int)
    let fr := (n % ((2 ^ d : Nat) : Int)).toNat
    if fr = 0 then ⟨false, 1, k⟩
    else
      let r := if d ≤ 400 then fr * 2 ^ (400 - d) * ln2Const / 2 ^ (800 - fxP)
               else fr * ln2Const / 2 ^ (d + 400 - fxP)
      let v := fxExp r
      ⟨false, 2 * v + 1, k - fxP - 1⟩

/-- log2 of a positive dyadic, exact for a power of two. -/
def log2Dy (x : Dy) : Dy :=
  let l := Nat.log2 x.mant
  let e := x.exp + (l : Int)
  if x.mant = 2 ^ l then dyOfInt e 0
  else
    let up := decide (3 * 2 ^ l ≤ 2 * x.mant)
    let e' := if up then e + 1 else e
    let den := if up then 2 ^ (l + 1) else 2 ^ l
    let num := if up then den - x.mant else x.mant - den
    let z := num * 2 ^ fxP / (x.mant + den)
    let s := 2 * atanhSum 110 (z * z / 2 ^ fxP) 1 z
    let lg : Nat := s * 2 ^ 400 / ln2Const
    let tot : Int := e' * ((2 ^ fxP : Nat) : Int) + (if up then -(lg : Int) else (lg : Int))
    stickyFx (decide (tot < 0)) tot.natAbs

/-- tanh of a nonzero dyadic. -/
def tanhDy (x : Dy) : Dy :=
  if dyLog x < -40 then ⟨x.neg, x.mant * 2 ^ 60 - 1, x.exp - 60⟩
  else if 5 ≤ dyLog x then ⟨x.neg, 2 ^ 80 - 1, -80⟩
  else
    let y := exp2Fx (2 * x.mant) x.exp
    let one := 2 ^ fxP
    stickyFx x.neg ((y - one) * one / (y + one))
where
  /-- exp of `m * 2^e` in fixed point, for arguments below 64. -/
  exp2Fx (m : Nat) (e : Int) : Nat :=
    let a := if 0 ≤ e then m * 2 ^ (400 + e.toNat) else m * 2 ^ 400 / 2 ^ (-e).toNat
    let k := a / ln2Const
    fxExp ((a - k * ln2Const) / 2 ^ (400 - fxP)) * 2 ^ k

/-- sin(πx) and cos(πx): `none` stands for an exact zero. -/
def sincosDy (x : Dy) : Option Dy × Option Dy :=
  if x.mant = 0 then (none, some ⟨false, 1, 0⟩)
  else if 1 ≤ x.exp then (none, some ⟨false, 1, 0⟩)
  else
    let d := (-x.exp).toNat
    let u := x.mant % 2 ^ (d + 1)
    let half := 2 ^ d
    if u = 0 then (none, some ⟨false, 1, 0⟩)
    else if u = half then (none, some ⟨true, 1, 0⟩)
    else if 2 * u = half then (some ⟨x.neg, 1, 0⟩, none)
    else if 2 * u = 3 * half then (some ⟨!x.neg, 1, 0⟩, none)
    else
      let sneg := decide (half < u)
      let u1 := if sneg then u - half else u
      let cneg1 := sneg
      let second := decide (half < 2 * u1)
      let u2 := if second then half - u1 else u1
      let r := u2 * piConst * 2 ^ fxP / 2 ^ (400 + d)
      (some (stickyFx (xor x.neg sneg) (fxSin r).toNat), some (stickyFx (xor cneg1 second) (fxCos r).toNat))

/-! ### Special functions on encodings (R212, R213) -/

def fexp2 (f : FFmt) (b : Nat) : FRes :=
  match nanRule f [b] false with
  | some r => r
  | none =>
    match fdecode f b with
    | .inf s => (if s then 0 else finfBits f false, 0)
    | v => roundTo f .rne (exp2Dy (fdy v))

def flog2 (f : FFmt) (b : Nat) : FRes :=
  let v := fdecode f b
  match nanRule f [b] (belowZero v) with
  | some r => r
  | none =>
    if visInf v then (finfBits f false, 0)
    else if visZero v then (finfBits f true, fDZ)
    else roundTo f .rne (log2Dy (fdy v))

def frcp (f : FFmt) (mode : RMode) (b : Nat) : FRes :=
  let v := fdecode f b
  match nanRule f [b] false with
  | some r => r
  | none =>
    if visInf v then (fsign f (fneg? v), 0)
    else if visZero v then (finfBits f (fneg? v), fDZ)
    else roundTo f mode (dyQuot (f.m + 3) (fneg? v) 1 (fdy v).mant (-(fdy v).exp))

def frsq (f : FFmt) (b : Nat) : FRes :=
  let v := fdecode f b
  match nanRule f [b] (belowZero v) with
  | some r => r
  | none =>
    if visInf v then (0, 0)
    else if visZero v then (finfBits f (fneg? v), fDZ)
    else roundTo f .rne (dyRsqrt (f.m + 3) (fdy v).mant (fdy v).exp)

def ftanh (f : FFmt) (b : Nat) : FRes :=
  let v := fdecode f b
  match nanRule f [b] false with
  | some r => r
  | none =>
    if visInf v then (roundTo f .rne ⟨fneg? v, 1, 0⟩)
    else if visZero v then (fsign f (fneg? v), 0)
    else roundTo f .rne (tanhDy (fdy v))

/-- sin(πx) and cos(πx) (R213, R214). -/
def fsincos (f : FFmt) (b : Nat) : FRes × FRes :=
  let v := fdecode f b
  match nanRule f [b] (visInf v) with
  | some r => (r, r)
  | none =>
    let (s, c) := sincosDy (fdy v)
    let sr : FRes := match s with
      | none => (fsign f (fneg? v), 0)
      | some y => roundTo f .rne y
    let cr : FRes := match c with
      | none => (0, 0)
      | some y => roundTo f .rne y
    (sr, cr)

end Sys2Proof.Machine
end

