-- ==== Sys2Proof/Machine/Vector.lean ====
section
/-!
DEFINITION. The vector slots VA and VB (07 R177 to R214): elements, lanes and masks, arithmetic, moves, reductions,
conversions, the softmax states, the chain, mask registers and special functions.
-/
namespace Sys2Proof.Machine

/-! ### Elements and lanes (R60, R177, R178) -/

/-- An element format: floating, or a signed integer of `w` bits. -/
inductive EFmt where
  | fl (f : FFmt)
  | int (w : Nat)
  deriving DecidableEq, Repr

/-- The element format of a vector fmt (R129). -/
def efmt (t : BitVec 3) : EFmt :=
  match t.toNat with
  | 0 => .fl f32
  | 1 => .fl bf16
  | 2 => .fl f16
  | 3 => .fl f64
  | 4 => .int 32
  | 5 => .int 16
  | _ => .int 8

/-- Element `j` of width `w`. -/
def elem (w v j : Nat) : Nat := bitsOf v (w * j) w

/-- Elements of width `w`, packed from bit 0. -/
def packElems (w : Nat) : List Nat → Nat
  | [] => 0
  | x :: xs => x % 2 ^ w + 2 ^ w * packElems w xs

/-- The lane of element `j` is selected (R178). -/
def laneOn (m : BitVec 16) (w j : Nat) : Bool := m.getLsbD (w * j / 128)

def rv (s : State) (n : BitVec 5) : Nat := (readV (actRegs s) n.toNat).toNat
def rm (s : State) (n : BitVec 4) : BitVec 16 := readM (actRegs s) n.toNat

def orFlags (l : List FRes) : Flg := l.foldl (fun a r => a ||| r.2) 0

/-- Write the selected elements of width `w` of `d`, the others kept (R178); flags of the selected ones (R51). -/
def vPut (s : State) (lat : Nat) (d : BitVec 5) (w : Nat) (m : BitVec 4) (res : Nat → FRes) : State :=
  let mask := rm s m
  let old := rv s d
  let rs := (List.range (2048 / w)).map fun j => if laneOn mask w j then res j else (elem w old j, 0)
  withFlags s (orFlags rs) fun s => sendReg s lat (vReg d.toNat) (packElems w (rs.map (·.1)))

/-- As `vPut`, long-latency. -/
def vPutLong (s : State) (ds : List (BitVec 5 × (Nat → FRes))) (w : Nat) (m : BitVec 4) : State :=
  let mask := rm s m
  let outs := ds.map fun e =>
    (vReg e.1.toNat, (List.range (2048 / w)).map fun j =>
      if laneOn mask w j then e.2 j else (elem w (rv s e.1) j, (0 : Flg)))
  let fl := orFlags (outs.flatMap (·.2))
  withLateFlags s fl fun s => sendLong s (outs.map fun o => (o.1, packElems w (o.2.map (·.1)))) fl .float

/-- The second operand's element: of a v register, or the broadcast low element of an x register (R129). -/
def opB (s : State) (b : BitVec 5) (u : BitVec 2) (w j : Nat) : Nat :=
  if u = 1 then (rx s b).toNat % 2 ^ w else elem w (rv s b) j

/-- A binary element operation: floating by `ff`, integer by `fi` on signed values. -/
def eop (e : EFmt) (ff : FFmt → Nat → Nat → FRes) (fi : Int → Int → Int) (a b : Nat) : FRes :=
  match e with
  | .fl f => ff f a b
  | .int w => (intMod w (fi (sextNat w a) (sextNat w b)), 0)

/-- An element-wise binary instruction. -/
def vbin (s : State) (lat : Nat) (d a b : BitVec 5) (t : BitVec 3) (m : BitVec 4) (u : BitVec 2)
    (ff : FFmt → Nat → Nat → FRes) (fi : Int → Int → Int) : State :=
  let w := fmtBits t
  vPut s lat d w m fun j => eop (efmt t) ff fi (elem w (rv s a) j) (opB s b u w j)

/-- The operand with the larger magnitude, the positive one when they are equal (R183). -/
def imaxm (a b : Int) : Int :=
  if b.natAbs < a.natAbs then a else if a.natAbs < b.natAbs then b else if a < 0 then b else a

/-- A fused multiply-add of elements (R183): `nc` negates the addend. -/
def vfmaOp (s : State) (d a b : BitVec 5) (t : BitVec 3) (m : BitVec 4) (u : BitVec 2) (nc : Bool) : State :=
  let w := fmtBits t
  vPut s 4 d w m fun j =>
    let x := elem w (rv s a) j
    let y := opB s b u w j
    let c := elem w (rv s d) j
    match efmt t with
    | .fl f => ffma f (frmOf s) false nc x y c
    | .int w => (intMod w (sextNat w x * sextNat w y + (if nc then -sextNat w c else sextNat w c)), 0)

/-- A compare writes all ones or all zeros (R185); `u = 2` compares integers unsigned. -/
def vcmpOp (s : State) (d a b : BitVec 5) (t : BitVec 3) (m : BitVec 4) (u : BitVec 2) (c : FCmp) : State :=
  let w := fmtBits t
  vPut s 2 d w m fun j =>
    let x := elem w (rv s a) j
    let y := opB s b u w j
    let r : Bool × Flg := match efmt t with
      | .fl f => fcompare f c x y
      | .int w =>
        let (p, q) : Int × Int := if u = 2 then ((x : Int), (y : Int)) else (sextNat w x, sextNat w y)
        (match c with
          | .eq => decide (p = q)
          | .lt => decide (p < q)
          | .le => decide (p ≤ q)
          | .un => false, 0)
    (if r.1 then 2 ^ w - 1 else 0, r.2)

/-- A bitwise element operation (R187). -/
def vbits (s : State) (d a b : BitVec 5) (t : BitVec 3) (m : BitVec 4) (u : BitVec 2) (f : Nat → Nat → Nat) : State :=
  let w := fmtBits t
  vPut s 2 d w m fun j => (f (elem w (rv s a) j) (opB s b u w j), 0)

/-- An element shift (R188): the count is the low log2(w) bits of the operand, or the immediate. -/
def vshift (s : State) (d a b : BitVec 5) (t : BitVec 3) (m : BitVec 4) (u : BitVec 2) (f : Nat → Nat → Nat → Nat) :
    State :=
  let w := fmtBits t
  vPut s 2 d w m fun j =>
    let c := if u = 2 then b.toNat else opB s b u w j % w
    (f w (elem w (rv s a) j) c, 0)

/-! ### Reductions and scans (R195, R196) -/

/-- comb of R195. -/
def comb (e : EFmt) (mode : RMode) (o : Nat) (a b : Nat) : FRes :=
  match o with
  | 0 => eop e (fun f => fadd f mode false) (· + ·) a b
  | 1 => eop e (fun f => fminmax f true) (fun x y => if x < y then y else x) a b
  | 2 => eop e (fun f => fminmax f false) (fun x y => if y < x then y else x) a b
  | _ => eop e fmaxm imaxm a b

/-- comb on possibly absent values, flags joined. -/
def combOpt (e : EFmt) (mode : RMode) (o : Nat) : Option FRes → Option FRes → Option FRes
  | some a, some b =>
    let r := comb e mode o a.1 b.1
    some (r.1, a.2 ||| b.2 ||| r.2)
  | some a, none => some a
  | none, b => b

/-- One level of the pairwise tree. -/
def pairUp (e : EFmt) (mode : RMode) (o : Nat) : List (Option FRes) → List (Option FRes)
  | a :: b :: l => combOpt e mode o a b :: pairUp e mode o l
  | l => l

/-- The tree, for at most `n` levels. -/
def redTree (e : EFmt) (mode : RMode) (o : Nat) : Nat → List (Option FRes) → Option FRes
  | _, [] => none
  | _, [a] => a
  | 0, a :: _ => a
  | n + 1, l => redTree e mode o n (pairUp e mode o l)

/-- The identity of a reduction (R195). -/
def redIdentity (e : EFmt) (o : Nat) : Nat :=
  match e, o with
  | .fl f, 1 => finfBits f true
  | .fl f, 2 => finfBits f false
  | .int w, 1 => 2 ^ (w - 1)
  | .int w, 2 => 2 ^ (w - 1) - 1
  | _, _ => 0

/-- The inclusive prefix (R196): the running value, then the selected elements in order. -/
def scanFrom (e : EFmt) (mode : RMode) (o : Nat) : Option FRes → List (Option Nat) → List (Option FRes)
  | _, [] => []
  | acc, none :: l => none :: scanFrom e mode o acc l
  | acc, some x :: l =>
    let r := combOpt e mode o acc (some (x, 0))
    r :: scanFrom e mode o r l

/-! ### Conversion (R197) -/

/-- A format that VCVT converts: floating, or an integer, signed or not. -/
inductive CFmt where
  | fl (f : FFmt)
  | int (signed : Bool) (w : Nat)
  deriving DecidableEq, Repr

/-- The format of a code (R29). -/
def codeFmt (c : Nat) : CFmt :=
  match c with
  | 0 => .fl f32
  | 1 => .fl bf16
  | 2 => .fl f16
  | 3 => .fl f64
  | 4 => .fl fE4m3
  | 5 => .fl fE5m2
  | 9 => .int true 32
  | 10 => .int true 16
  | 11 => .int true 8
  | 12 => .int false 8
  | _ => .int true 4

/-- The format code of a vector fmt (R129). -/
def fmtCode (t : BitVec 3) : Nat := if t.toNat ≤ 3 then t.toNat else t.toNat + 5

def cfWidth : CFmt → Nat
  | .fl f => f.w
  | .int _ w => w

def cfInt (signed : Bool) (w x : Nat) : Int := if signed then sextNat w x else (x % 2 ^ w : Nat)

/-- One element converted. -/
def convert (src dst : CFmt) (nsat : Bool) (mode : RMode) (x : Nat) : FRes :=
  if src = dst then (x, 0)
  else match src, dst with
    | .fl f, .fl g => cvtFloat f g nsat mode x
    | .fl f, .int sg w => floatToInt f sg w mode x
    | .int sg w, .fl g => intToFloat g nsat mode (cfInt sg w x)
    | .int sg w, .int tg v =>
      let i := cfInt sg w x
      (intMod v (if i < intLo tg v then intLo tg v else if intHi tg v < i then intHi tg v else i), 0)

/-! ### Quantisation (R198 to R200) -/

/-- The MX format of a code. -/
def mxOf (c : Nat) : Option MxFmt :=
  match c with
  | 6 => some mxint8
  | 7 => some mxint6
  | 8 => some mxint4
  | _ => none

/-- The control word is legal (R198). -/
def qctlOk (c : Nat) (quant : Bool) : Bool :=
  let code := bitsOf c 0 4
  decide (4 ≤ code) && decide (code ≤ 8) && decide (bitsOf c 5 3 ≤ 4) && bitsOf c 11 5 == 0 && bitsOf c 24 8 == 0
    && (if quant then decide (code ≤ 5) || !bitOf c 4 else !bitOf c 4 && !bitOf c 10)

/-- x × s, not rounded, into an 8-bit float (R199). -/
def quant8 (src dst : FFmt) (nsat : Bool) (mode : RMode) (x s : Nat) : FRes :=
  let vx := fdecode src x
  let sv := fdecode f32 s
  let sn : Flg := if fisSnan src x || fisSnan f32 s then fNV else 0
  match vx, sv with
  | .nan g m, _ => ((cvtNan src dst g m).1, sn)
  | _, .nan g m => ((cvtNan f32 dst g m).1, sn)
  | _, _ =>
    let neg := xor (fneg? vx) (fneg? sv)
    if (visInf vx && visZero sv) || (visZero vx && visInf sv) then (fcanon dst, fNV)
    else if visInf vx || visInf sv then toFloat8 dst nsat mode (.inf neg)
    else
      let p := dyMul (fdy vx) (fdy sv)
      toFloat8 dst nsat mode (.fin p.neg p.mant p.exp)

/-- value × s into fmt, one rounding (R200). -/
def dequant8 (src dst : FFmt) (mode : RMode) (x s : Nat) : FRes :=
  let vx := fdecode src x
  let sv := fdecode f32 s
  let sn : Flg := if fisSnan src x || fisSnan f32 s then fNV else 0
  match vx, sv with
  | .nan g m, _ => ((cvtNan src dst g m).1, sn)
  | _, .nan g m => ((cvtNan f32 dst g m).1, sn)
  | _, _ =>
    let neg := xor (fneg? vx) (fneg? sv)
    if (visInf vx && visZero sv) || (visZero vx && visInf sv) then (fcanon dst, fNV)
    else if visInf vx || visInf sv then (finfBits dst neg, 0)
    else roundTo dst mode (dyMul (fdy vx) (fdy sv))

/-- A block of 32 elements quantised (R48): the scale, the fields and the flags. -/
def mxBlock (f : FFmt) (x : MxFmt) (X : Nat) (mode : RMode) (es : List Nat) : Nat × List Nat × Flg :=
  if X = 0xFF ∨ es.any (fisNan f) then (0xFF, es.map fun _ => 0, if es.any (fisSnan f) then fNV else 0)
  else
    let rs := es.map fun e => mxQuant x X mode (fdecode f e)
    (X, rs.map (·.1), orFlags rs)

/-- The list cut into runs of `k`, at most `n` of them. -/
def chunks (k : Nat) : Nat → List Nat → List (List Nat)
  | 0, _ => []
  | n + 1, l => l.take k :: chunks k n (l.drop k)

/-- The packed layout of R198: element fields from bit 0, scales from byte 248. -/
def packBlocks (x : MxFmt) (bs : List (Nat × List Nat × Flg)) : Nat :=
  packElems x.n (bs.flatMap fun b => b.2.1) + packElems 8 (bs.map (·.1)) * 2 ^ (8 * 248)

/-! ### Hadamard (R54) -/

/-- One butterfly stage over FP32 elements with their flags. -/
def hadStage (h : Nat) (xs : List FRes) : List FRes :=
  (List.range xs.length).map fun i =>
    let lowHalf := decide (i % (2 * h) < h)
    let a := xs.getD (if lowHalf then i else i - h) (0, 0)
    let b := xs.getD (if lowHalf then i + h else i) (0, 0)
    let r := fadd f32 .rne (!lowHalf) a.1 b.1
    (r.1, a.2 ||| b.2 ||| r.2)

/-- Stages `j`, `j + 1`, … for `n` stages. -/
def hadStages : Nat → Nat → List FRes → List FRes
  | 0, _, xs => xs
  | n + 1, j, xs => hadStages n (j + 1) (hadStage (2 ^ (j - 1)) xs)

/-- x × 2^k in FP32. -/
def scale2 (mode : RMode) (k : Int) (x : Nat) : FRes :=
  let k : Int := if k < -2000 then -2000 else if 2000 < k then 2000 else k
  match nanRule f32 [x] false with
  | some r => r
  | none =>
    match fdecode f32 x with
    | .fin g m e => roundTo f32 mode ⟨g, m, e + k⟩
    | _ => (x, 0)

/-- x × 2^(−1/2), the exact real (R54). -/
def scaleHalf (x : Nat) : FRes :=
  match nanRule f32 [x] false with
  | some r => r
  | none =>
    match fdecode f32 x with
    | .fin g m e =>
      if m = 0 then (x, 0) else roundTo f32 .rne { dySqrt 30 (m * m) (2 * e - 1) with neg := g }
    | _ => (x, 0)

def mapRes (f : Nat → FRes) (xs : List FRes) : List FRes :=
  xs.map fun x =>
    let r := f x.1
    (r.1, x.2 ||| r.2)

/-- VHAD on 64 elements (R54, R201). For odd stage counts the scaling follows the pseudocode, 2^(-⌈s/2⌉) and then
2^(-1/2), though R54 also calls the scaled transform orthonormal: DEDUCED (log entry 99). -/
def hadamard (st : Nat) (scale : Bool) (xs : List Nat) : List FRes :=
  let ys := hadStages st 1 (xs.map fun x => (x, 0))
  if scale then
    let ys := mapRes (scale2 .rne (-(((st + 1) / 2 : Nat) : Int))) ys
    if st % 2 = 1 then mapRes scaleHalf ys else ys
  else ys

/-! ### Softmax states (R202 to R204) -/

/-- The fields of a state. -/
structure Smax where
  m     : Nat
  f     : Nat
  l     : Nat
  g     : Nat
  plain : Bool
  dmen  : Bool
  dmass : Nat
  deriving DecidableEq, Repr

def smaxOf (v : Nat) : Smax :=
  ⟨bitsOf v 0 32, bitsOf v 32 32, bitsOf v 64 64, bitsOf v 128 32, bitOf v 160, bitOf v 161, bitsOf v 192 64⟩

def smaxBits (x : Smax) : Nat :=
  x.m + x.f * 2 ^ 32 + x.l * 2 ^ 64 + x.g * 2 ^ 128 + b01 x.plain * 2 ^ 160 + b01 x.dmen * 2 ^ 161 + x.dmass * 2 ^ 192

/-- The NaN outcome (R202); plain and dmen keep what the state held: DEDUCED, R202 names only the other fields (log entry
106). -/
def smaxNan (x : Smax) : Smax :=
  { x with m := fcanon f32, f := fcanon f32, l := fcanon f64, g := fcanon f32, dmass := fcanon f64 }

/-- A value that makes a state or a score invalid: a NaN or +∞. -/
def smaxBad (b : Nat) : Bool := fisNan f32 b || b == finfBits f32 false

/-- The maximum of R44, -0 below +0. -/
def maxBits (a b : Nat) : Nat := (fminmax f32 true a b).1

/-- 2^(m − mx) as an exact or sticky dyadic; 0 for m = −∞. -/
def powDiff (m mx : Nat) : Option Dy :=
  match fdecode f32 m, fdecode f32 mx with
  | .fin g a e, .fin h b k => some (exp2Dy (dyAdd .rne ⟨g, a, e⟩ ⟨!h, b, k⟩))
  | _, _ => none

/-- f of R203 and R204. -/
def smaxFactor (m mx : Nat) : FRes :=
  match powDiff m mx with
  | some t => roundTo f32 .rne t
  | none => (0, 0)

/-- round_to(Σ a_i × b_i + Σ extra, binary64, RNE) over encodings (a in binary64, b in FP32). DESIGN CHOICE, R203 and R204 say
nothing of an l or dmass that is a NaN or infinite beside a valid m: the sum is that of R42, so a quiet NaN among the terms
answers without the invalid of a product 0 × ∞ of another (log entry 155). -/
def smaxSum (ps : List (Nat × Nat)) (extra : List Dy) : FRes :=
  let ts := ps.map fun p => termMul (fdecode f64 p.1) (fdecode f32 p.2)
  match nanRule f64 (ps.map (·.1)) (ts.any visNan && !(ps.any fun p => fisNan f64 p.1)) with
  | some r => r
  | none =>
    match ts.find? visInf with
    | some t =>
      if ts.any (fun u => visInf u && (fneg? u != fneg? t)) then (fcanon f64, fNV) else (finfBits f64 (fneg? t), 0)
    | none => roundTo f64 .rne (match ts.map fdy ++ extra with
        | [] => ⟨false, 0, 0⟩
        | d :: ds => ds.foldl (dyAdd .rne) d)

/-- VSMUP (R203): the probabilities, the new state and the flags. DESIGN CHOICE, R203 does not say what drop is when nothing is
dropped: dmass then takes no term for it, so that −0 stays −0 (log entry 156). -/
def smaxUpdate (scores : List Nat) (x : Smax) : List Nat × Smax × Flg :=
  if smaxBad x.m || scores.any smaxBad then
    (scores.map fun _ => 0x7FC00000, smaxNan x,
      if fisSnan f32 x.m || scores.any (fun b => fisSnan f32 b || b == finfBits f32 false) then fNV else 0)
  else
    let mx := scores.foldl maxBits x.m
    let f := smaxFactor x.m mx
    let ts := scores.map fun b => powDiff b mx
    let ps : List FRes := ts.map fun t =>
      match t with
      | none => (0, 0)
      | some d =>
        if x.plain then roundTo f32 .rne d
        else
          let r := roundTo fE4m3 .rne d
          ((cvtFloat fE4m3 f32 false .rne r.1).1, if r.2 = 0 then 0 else fNX)
    let drop := if x.dmen && !x.plain then (ts.zip ps).filterMap (fun e => if e.2.1 = 0 then e.1 else none) else []
    let l := smaxSum [(x.l, f.1)] (ps.map fun p => fdy (fdecode f32 p.1))
    let dm := if x.dmen then smaxSum [(x.dmass, f.1)] drop else (x.dmass, 0)
    (ps.map (·.1), { x with m := mx, f := f.1, l := l.1, g := 0, dmass := dm.1 }, f.2 ||| orFlags ps ||| l.2 ||| dm.2)

/-- VSMRG (R204): the merged state, the flags of lane 0, of lane 1, and invalid. -/
def smaxMerge (d a : Smax) : Smax × Flg × Flg × Flg :=
  if smaxBad d.m || smaxBad a.m then
    (smaxNan d, 0, 0, if fisSnan f32 d.m || fisSnan f32 a.m then fNV else 0)
  else
    let mx := maxBits d.m a.m
    let f := smaxFactor d.m mx
    let g := smaxFactor a.m mx
    let l := smaxSum [(d.l, f.1), (a.l, g.1)] []
    let dm := smaxSum [(d.dmass, f.1), (a.dmass, g.1)] []
    ({ d with m := mx, f := f.1, l := l.1, g := g.1, dmass := dm.1 }, f.2 ||| l.2, g.2 ||| dm.2, 0)

/-! ### The chain (R205 to R208) -/

/-- A constant that the table of R206 admits. -/
def chainConstOk (op c : Nat) : Bool :=
  match op with
  | 6 =>
    let k := bitsOf c 0 4
    (k == 0 || k == 1 || k == 2 || k == 4 || k == 5) && (!bitOf c 4 || k == 4 || k == 5) && bitsOf c 5 27 == 0
  | 7 =>
    let k := bitsOf c 0 3
    decide (1 ≤ k) && decide (k ≤ 5) && bitsOf c 4 28 == 0
  | _ => true

/-- An element in the chain: its format, encoding and flags. -/
structure ChainEl where
  fmt : FFmt
  b   : Nat
  fl  : Flg
  deriving DecidableEq, Repr

/-- An element as FP32, exactly. -/
def chain32 (x : ChainEl) : FRes := if x.fmt = f32 then (x.b, x.fl) else
  let r := cvtFloat x.fmt f32 false .rne x.b
  (r.1, x.fl ||| r.2)

/-- One chain stage over the elements; `src` are the elements of the VCH source. -/
def chainStep (mode : RMode) (src : List Nat) (g : ChainStage) (xs : List ChainEl) : List ChainEl :=
  let cN := g.const.toNat
  let c0 := elem 32 cN 0
  let one (f : Nat → Nat → FRes) : List ChainEl :=
    (List.range xs.length).map fun j =>
      let x := chain32 (xs.getD j ⟨f32, 0, 0⟩)
      let r := f j x.1
      ⟨f32, r.1, x.2 ||| r.2⟩
  match g.op with
  | 0 => xs
  | 1 => one fun j x => fadd f32 mode false x (elem 32 cN j)
  | 2 => one fun j x => fmul f32 mode x (elem 32 cN j)
  | 3 => one fun j x => ffma f32 mode false false x (elem 32 cN j) (src.getD j 0)
  | 4 => one fun j x => fminmax f32 true x (elem 32 cN j)
  | 5 => one fun _ x => fexp2 f32 x
  | 6 =>
    match codeFmt (bitsOf c0 0 4) with
    | .fl f => (one fun _ x => cvtFloat f32 f (bitOf c0 4) mode x).map fun e => { e with fmt := f }
    | .int _ _ => xs
  | 7 =>
    let ys := hadStage (2 ^ (bitsOf c0 0 3 - 1)) (xs.map chain32)
    let ys := if bitOf c0 3 then mapRes scaleHalf ys else ys
    ys.map fun r => ⟨f32, r.1, r.2⟩
  | 8 => one fun _ x => scale2 mode (sextNat 32 c0) x
  | _ => one fun j x =>
    let c := elem 32 cN j
    let lo := c % 2 ^ 31 + 2 ^ 31
    let hi := c % 2 ^ 31
    if fisNan f32 x || fisNan f32 c then (nanRule f32 [x, c] false).getD (x, 0)
    else
      let r := fminmax f32 true x lo
      fminmax f32 false r.1 hi

/-- The value of a VCH: the output elements, in the format of the last stage. -/
def chainRun (mode : RMode) (cfg : List ChainStage) (src : List Nat) : List ChainEl :=
  cfg.foldl (fun xs g => chainStep mode src g xs) (src.map fun x => ⟨f32, x, 0⟩)

def elems32 (v : Nat) : List Nat := (List.range 64).map (elem 32 v)

/-! ### The instructions -/

/-- VADD (R183), latency 2. -/
def execVadd (d : BitVec 5) (a : BitVec 5) (e : Bool) (b : BitVec 5) (f : Bool) (t : BitVec 3) (m : BitVec 4) (u : BitVec 2) (st : State) : Out :=
  .next (slotOp st (.vadd d a e b f t m u) fun st => vbin st 2 d a b t m u (fun f => fadd f (frmOf st) false) ((· + ·)))

/-- VSUB (R183), latency 2. -/
def execVsub (d : BitVec 5) (a : BitVec 5) (e : Bool) (b : BitVec 5) (f : Bool) (t : BitVec 3) (m : BitVec 4) (u : BitVec 2) (st : State) : Out :=
  .next (slotOp st (.vsub d a e b f t m u) fun st => vbin st 2 d a b t m u (fun f => fadd f (frmOf st) true) ((· - ·)))

/-- VMUL (R183), latency 2. -/
def execVmul (d : BitVec 5) (a : BitVec 5) (e : Bool) (b : BitVec 5) (f : Bool) (t : BitVec 3) (m : BitVec 4) (u : BitVec 2) (st : State) : Out :=
  .next (slotOp st (.vmul d a e b f t m u) fun st => vbin st 2 d a b t m u (fun f => fmul f (frmOf st)) ((· * ·)))

/-- VMIN (R183), latency 2. -/
def execVmin (d : BitVec 5) (a : BitVec 5) (e : Bool) (b : BitVec 5) (f : Bool) (t : BitVec 3) (m : BitVec 4) (u : BitVec 2) (st : State) : Out :=
  .next (slotOp st (.vmin d a e b f t m u) fun st => vbin st 2 d a b t m u (fun f => fminmax f false) (fun x y => if y < x then y else x))

/-- VMAX (R183), latency 2. -/
def execVmax (d : BitVec 5) (a : BitVec 5) (e : Bool) (b : BitVec 5) (f : Bool) (t : BitVec 3) (m : BitVec 4) (u : BitVec 2) (st : State) : Out :=
  .next (slotOp st (.vmax d a e b f t m u) fun st => vbin st 2 d a b t m u (fun f => fminmax f true) (fun x y => if x < y then y else x))

/-- VMAXM (R183), latency 2. -/
def execVmaxm (d : BitVec 5) (a : BitVec 5) (e : Bool) (b : BitVec 5) (f : Bool) (t : BitVec 3) (m : BitVec 4) (u : BitVec 2) (st : State) : Out :=
  .next (slotOp st (.vmaxm d a e b f t m u) fun st => vbin st 2 d a b t m u (fmaxm) (imaxm))

/-- VFMA (R183), latency 4; the addend is the old vd. -/
def execVfma (d : BitVec 5) (a : BitVec 5) (e : Bool) (b : BitVec 5) (f : Bool) (t : BitVec 3) (m : BitVec 4) (u : BitVec 2) (st : State) : Out :=
  .next (slotOp st (.vfma d a e b f t m u) fun st => vfmaOp st d a b t m u false)

/-- VFMS (R183), latency 4. -/
def execVfms (d : BitVec 5) (a : BitVec 5) (e : Bool) (b : BitVec 5) (f : Bool) (t : BitVec 3) (m : BitVec 4) (u : BitVec 2) (st : State) : Out :=
  .next (slotOp st (.vfms d a e b f t m u) fun st => vfmaOp st d a b t m u true)

/-- VABS (R184): no flag. -/
def execVabs (d : BitVec 5) (a : BitVec 5) (e : Bool) (t : BitVec 3) (m : BitVec 4) (st : State) : Out :=
  .next (slotOp st (.vabs d a e t m) fun st => let w := fmtBits t
    vPut st 2 d w m fun j =>
      let x := elem w (rv st a) j
      match efmt t with
      | .fl f => (fmag f x, 0)
      | .int w => (intMod w ((sextNat w x).natAbs : Int), 0))

/-- VNEG (R184): no flag. -/
def execVneg (d : BitVec 5) (a : BitVec 5) (e : Bool) (t : BitVec 3) (m : BitVec 4) (st : State) : Out :=
  .next (slotOp st (.vneg d a e t m) fun st => let w := fmtBits t
    vPut st 2 d w m fun j =>
      let x := elem w (rv st a) j
      match efmt t with
      | .fl f => (if bitOf x (f.w - 1) then x - 2 ^ (f.w - 1) else x + 2 ^ (f.w - 1), 0)
      | .int w => (intMod w (-(sextNat w x)), 0))

/-- VCMPEQ (R185). -/
def execVcmpeq (d : BitVec 5) (a : BitVec 5) (e : Bool) (b : BitVec 5) (f : Bool) (t : BitVec 3) (m : BitVec 4) (u : BitVec 2) (st : State) : Out :=
  .next (slotOp st (.vcmpeq d a e b f t m u) fun st => vcmpOp st d a b t m u .eq)

/-- VCMPLT (R185). -/
def execVcmplt (d : BitVec 5) (a : BitVec 5) (e : Bool) (b : BitVec 5) (f : Bool) (t : BitVec 3) (m : BitVec 4) (u : BitVec 2) (st : State) : Out :=
  .next (slotOp st (.vcmplt d a e b f t m u) fun st => vcmpOp st d a b t m u .lt)

/-- VCMPLE (R185). -/
def execVcmple (d : BitVec 5) (a : BitVec 5) (e : Bool) (b : BitVec 5) (f : Bool) (t : BitVec 3) (m : BitVec 4) (u : BitVec 2) (st : State) : Out :=
  .next (slotOp st (.vcmple d a e b f t m u) fun st => vcmpOp st d a b t m u .le)

/-- VCMPUN (R185). -/
def execVcmpun (d : BitVec 5) (a : BitVec 5) (e : Bool) (b : BitVec 5) (f : Bool) (t : BitVec 3) (m : BitVec 4) (u : BitVec 2) (st : State) : Out :=
  .next (slotOp st (.vcmpun d a e b f t m u) fun st => vcmpOp st d a b t m u .un)

/-- VCMPM (R186). -/
def execVcmpm (d : BitVec 4) (a : BitVec 5) (e : Bool) (st : State) : Out :=
  .next (slotOp st (.vcmpm d a e) fun st => sendReg st 2 (mReg d.toNat)
      (packElems 1 ((List.range 16).map fun i => if bitsOf (rv st a) (128 * i) 128 = 0 then 0 else 1)))

/-- VAND (R187). -/
def execVand (d : BitVec 5) (a : BitVec 5) (e : Bool) (b : BitVec 5) (f : Bool) (t : BitVec 3) (m : BitVec 4) (u : BitVec 2) (st : State) : Out :=
  .next (slotOp st (.vand d a e b f t m u) fun st => vbits st d a b t m u Nat.land)

/-- VOR (R187). -/
def execVor (d : BitVec 5) (a : BitVec 5) (e : Bool) (b : BitVec 5) (f : Bool) (t : BitVec 3) (m : BitVec 4) (u : BitVec 2) (st : State) : Out :=
  .next (slotOp st (.vor d a e b f t m u) fun st => vbits st d a b t m u Nat.lor)

/-- VXOR (R187). -/
def execVxor (d : BitVec 5) (a : BitVec 5) (e : Bool) (b : BitVec 5) (f : Bool) (t : BitVec 3) (m : BitVec 4) (u : BitVec 2) (st : State) : Out :=
  .next (slotOp st (.vxor d a e b f t m u) fun st => vbits st d a b t m u Nat.xor)

/-- VSHL (R188). -/
def execVshl (d : BitVec 5) (a : BitVec 5) (e : Bool) (b : BitVec 5) (f : Bool) (t : BitVec 3) (m : BitVec 4) (u : BitVec 2) (st : State) : Out :=
  .next (slotOp st (.vshl d a e b f t m u) fun st => vshift st d a b t m u fun _ x c => x * 2 ^ c)

/-- VSHR (R188). -/
def execVshr (d : BitVec 5) (a : BitVec 5) (e : Bool) (b : BitVec 5) (f : Bool) (t : BitVec 3) (m : BitVec 4) (u : BitVec 2) (st : State) : Out :=
  .next (slotOp st (.vshr d a e b f t m u) fun st => vshift st d a b t m u fun _ x c => x / 2 ^ c)

/-- VSRA (R188). -/
def execVsra (d : BitVec 5) (a : BitVec 5) (e : Bool) (b : BitVec 5) (f : Bool) (t : BitVec 3) (m : BitVec 4) (u : BitVec 2) (st : State) : Out :=
  .next (slotOp st (.vsra d a e b f t m u) fun st => vshift st d a b t m u fun w x c => intMod w (sextNat w x / (2 ^ c : Nat)))

/-- VBLD (R189): bits of va where the old vd holds 1, of vb where it holds 0. -/
def execVbld (d : BitVec 5) (a : BitVec 5) (e : Bool) (b : BitVec 5) (f : Bool) (t : BitVec 3) (m : BitVec 4) (u : BitVec 2) (st : State) : Out :=
  .next (slotOp st (.vbld d a e b f t m u) fun st => let w := fmtBits t
    vPut st 2 d w m fun j =>
      let o := elem w (rv st d) j
      (Nat.lor (Nat.land o (elem w (rv st a) j)) (Nat.land (2 ^ w - 1 - o) (opB st b u w j)), 0))

/-- VBC (R190). -/
def execVbc (d : BitVec 5) (b : BitVec 5) (f : Bool) (t : BitVec 3) (m : BitVec 4) (st : State) : Out :=
  .next (slotOp st (.vbc d b f t m) fun st => vPut st 2 d (fmtBits t) m fun j => (opB st b 1 (fmtBits t) j, 0))

/-- VINS (R191): one element, if its lane is selected. -/
def execVins (d : BitVec 5) (a : BitVec 5) (e : Bool) (b : BitVec 5) (f : Bool) (t : BitVec 3) (m : BitVec 4) (st : State) : Out :=
  .next (slotOp st (.vins d a e b f t m) fun st => let w := fmtBits t
    let i := (rx st a).toNat % (2048 / w)
    vPut st 2 d w m fun j => (if j = i then opB st b 1 w j else elem w (rv st d) j, 0))

/-- VEXT (R192): integers sign-extended, floating bits zero-extended. -/
def execVext (d : BitVec 5) (a : BitVec 5) (e : Bool) (b : BitVec 5) (f : Bool) (t : BitVec 3) (st : State) : Out :=
  .next (slotOp st (.vext d a e b f t) fun st => let w := fmtBits t
    let x := elem w (rv st a) ((rx st b).toNat % (2048 / w))
    toX st 2 d (match efmt t with
      | .fl _ => BitVec.ofNat 64 x
      | .int w => BitVec.ofInt 64 (sextNat w x)))

/-- VPERM (R193), latency 3. -/
def execVperm (d : BitVec 5) (a : BitVec 5) (e : Bool) (b : BitVec 5) (f : Bool) (t : BitVec 3) (m : BitVec 4) (st : State) : Out :=
  .next (slotOp st (.vperm d a e b f t m) fun st => let w := fmtBits t
    vPut st 3 d w m fun j =>
      let u := elem w (rv st b) j
      (if u < 2048 / w then elem w (rv st a) u else 0, 0))

/-- VROT (R194), latency 3. -/
def execVrot (d : BitVec 5) (a : BitVec 5) (e : Bool) (b : BitVec 5) (f : Bool) (t : BitVec 3) (m : BitVec 4) (u : BitVec 2) (st : State) : Out :=
  .next (slotOp st (.vrot d a e b f t m u) fun st => let w := fmtBits t
    let n := 2048 / w
    let c := (if u = 1 then (rx st b).toNat else b.toNat) % n
    vPut st 3 d w m fun j => (elem w (rv st a) ((j + c) % n), 0))

/-- VRED (R195), latency 5: element 0, zero bits elsewhere. -/
def execVred (d : BitVec 5) (a : BitVec 5) (e : Bool) (o : BitVec 5) (t : BitVec 3) (m : BitVec 4) (st : State) : Out :=
  .next (slotOp st (.vred d a e o t m) fun st => let w := fmtBits t
    let r := redTree (efmt t) (frmOf st) o.toNat 8 ((List.range (2048 / w)).map fun j =>
      if laneOn (rm st m) w j then some (elem w (rv st a) j, 0) else none)
    let v := r.getD (redIdentity (efmt t) o.toNat, 0)
    withFlags st v.2 fun st => sendReg st 5 (vReg d.toNat) v.1)

/-- VSCAN (R196), latency 6. -/
def execVscan (d : BitVec 5) (a : BitVec 5) (e : Bool) (o : BitVec 5) (t : BitVec 3) (m : BitVec 4) (st : State) : Out :=
  .next (slotOp st (.vscan d a e o t m) fun st => let w := fmtBits t
    let rs := scanFrom (efmt t) (frmOf st) o.toNat none ((List.range (2048 / w)).map fun j =>
      if laneOn (rm st m) w j then some (elem w (rv st a) j) else none)
    vPut st 6 d w m fun j => ((rs.getD j none).getD (0, 0)))

/-- VCVT (R197, R180), latency 3. -/
def execVcvt (d : BitVec 5) (a : BitVec 5) (e : Bool) (r : Bool) (c : BitVec 4) (s : Bool) (t : BitVec 3) (m : BitVec 4) (st : State) : Out :=
  .next (slotOp st (.vcvt d a e r c s t m) fun st => let src := codeFmt (if r then c.toNat else fmtCode t)
    let dst := codeFmt (if r then fmtCode t else c.toNat)
    let ws := cfWidth src
    let wd := cfWidth dst
    let n := 2048 / Nat.max ws wd
    let conv := fun j => convert src dst s (frmOf st) (elem ws (rv st a) j)
    if r then vPut st 3 d wd m fun j => if j < n then conv j else (0, 0)
    else
      let rs := (List.range n).map fun j => if laneOn (rm st m) ws j then conv j else (0, 0)
      withFlags st (orFlags rs) fun st => sendReg st 3 (vReg d.toNat) (packElems wd (rs.map (·.1))))

/-- VQNT (R198, R199), latency 3: an illegal control word traps ILLEGAL at execution. -/
def execVqnt (d : BitVec 5) (a : BitVec 5) (e : Bool) (b : BitVec 5) (f : Bool) (t : BitVec 3) (m : BitVec 4) (st : State) : Out :=
  .next (slotOp st (.vqnt d a e b f t m) fun st => let cw := (rx st b).toNat
    if qctlOk cw true = false then raise st 0x01 ((encode (.vqnt d a e b f t m)).getD 0)
    else
      let w := fmtBits t
      let n := 2048 / w
      let ff := match efmt t with
        | .fl g => g
        | .int _ => f32
      let mode := (if bitsOf cw 5 3 = 4 then frmOf st else rmodeOf (bitsOf cw 5 3))
      let on := laneOn (rm st m) w
      let xs := (List.range n).map fun j => if on j then elem w (rv st a) j else 0
      let code := bitsOf cw 0 4
      let res : Nat × Flg := match mxOf code with
        | none =>
          let rs := xs.map (quant8 ff (if code = 4 then fE4m3 else fE5m2) (bitOf cw 4) mode · (bitsOf cw 32 32))
          (packElems 8 (rs.map (·.1)), orFlags (((List.range n).zip rs).filterMap fun e => if on e.1 then some e.2 else none))
        | some x =>
          let bs := (chunks 32 (n / 32) xs).map (mxBlock ff x (bitsOf cw 16 8) mode)
          (packBlocks x bs, bs.foldl (fun a b => a ||| b.2.2) 0)
      withFlags st res.2 fun st =>
        let st := if bitOf cw 10 then
            let sel := ((List.range n).filter fun j => laneOn (rm st m) w j).map fun j => elem w (rv st a) j
            withhold st (.amax (bitsOf cw 8 2) (sel.filterMap (magFp32 ff)) (sel.any (fisNan ff)))
          else st
        sendReg st 3 (vReg d.toNat) res.1)

/-- VDQNT (R198, R200), latency 3. -/
def execVdqnt (d : BitVec 5) (a : BitVec 5) (e : Bool) (b : BitVec 5) (f : Bool) (t : BitVec 3) (m : BitVec 4) (st : State) : Out :=
  .next (slotOp st (.vdqnt d a e b f t m) fun st => let cw := (rx st b).toNat
    if qctlOk cw false = false then raise st 0x01 ((encode (.vdqnt d a e b f t m)).getD 0)
    else
      let w := fmtBits t
      let ff := match efmt t with
        | .fl g => g
        | .int _ => f32
      let mode := (if bitsOf cw 5 3 = 4 then frmOf st else rmodeOf (bitsOf cw 5 3))
      let code := bitsOf cw 0 4
      let va := rv st a
      vPut st 3 d w m fun j =>
        match mxOf code with
        | none => dequant8 (if code = 4 then fE4m3 else fE5m2) ff mode (elem 8 va j) (bitsOf cw 32 32)
        | some x =>
          match mxValue x (bitsOf va (8 * (248 + j / 32)) 8) (elem x.n va j) with
          | none => (fcanon ff, 0)
          | some y => roundTo ff mode y)

/-- VHAD (R201), latency 2 + s. -/
def execVhad (d : BitVec 5) (a : BitVec 5) (e : Bool) (c : Bool) (s : BitVec 3) (t : BitVec 3) (m : BitVec 4) (st : State) : Out :=
  .next (slotOp st (.vhad d a e c s t m) fun st => let ys := hadamard s.toNat c (elems32 (rv st a))
    vPut st (2 + s.toNat) d 32 m fun j => ys.getD j (0, 0))

/-- VSMRG (R204), latency 6. Invalid of the NaN outcome is raised whatever lanes the mask selects: DEDUCED, R204 ties only
the flags of roundings to lanes (log entry 105). -/
def execVsmrg (d : BitVec 5) (a : BitVec 5) (e : Bool) (t : BitVec 3) (m : BitVec 4) (st : State) : Out :=
  .next (slotOp st (.vsmrg d a e t m) fun st => let (x, f0, f1, inv) := smaxMerge (smaxOf (rv st d)) (smaxOf (rv st a))
    let mask := rm st m
    let fl := inv ||| (if mask.getLsbD 0 then f0 else 0) ||| (if mask.getLsbD 1 then f1 else 0)
    let v := (List.range 16).map fun i =>
      if mask.getLsbD i then bitsOf (smaxBits x) (128 * i) 128 else bitsOf (rv st d) (128 * i) 128
    withFlags st fl fun st => sendReg st 6 (vReg d.toNat) (packElems 128 v))

/-- VSMUP (R203), latency 10: deselected lanes of va count as −∞; vd is written whole. -/
def execVsmup (d : BitVec 5) (a : BitVec 5) (e : Bool) (b : BitVec 5) (f : Bool) (t : BitVec 3) (m : BitVec 4) (st : State) : Out :=
  .next (slotOp st (.vsmup d a e b f t m) fun st => let sc := (List.range 64).map fun j => if laneOn (rm st m) 32 j then elem 32 (rv st a) j else 0xFF800000
    let (ps, x, fl) := smaxUpdate sc (smaxOf (rv st b))
    withFlags st fl fun st =>
      sendReg (sendReg st 10 (vReg d.toNat) (packElems 32 ps)) 10 (vReg b.toNat) (smaxBits x))

/-- VCHC (R206): a constant outside the table traps ILLEGAL. -/
def execVchc (s : BitVec 3) (o : BitVec 5) (b : BitVec 5) (f : Bool) (t : BitVec 3) (h : BitVec 4) (u : BitVec 2) (st : State) : Out :=
  .next (slotOp st (.vchc s o b f t h u) fun st => let cv := if u = 1 then packElems 32 (List.replicate 64 ((rx st b).toNat % 2 ^ 32)) else rv st b
    if chainConstOk o.toNat (elem 32 cv 0) = false then raise st 0x01 ((encode (.vchc s o b f t h u)).getD 0)
    else modAct st fun r => { r with chain := r.chain.setIfInBounds s.toNat ⟨o.toNat, BitVec.ofNat 2048 cv, h.toNat⟩ })

/-- VCH (R207), long-latency. -/
def execVch (d : BitVec 5) (a : BitVec 5) (e : Bool) (t : BitVec 3) (m : BitVec 4) (st : State) : Out :=
  .next (slotOp st (.vch d a e t m) fun st => let ys := chainRun (frmOf st) (actRegs st).chain.toList (elems32 (rv st a))
    let w := (ys.getD 0 ⟨f32, 0, 0⟩).fmt.w
    let mask := rm st m
    let v := packElems w (ys.map (·.b))
    let out := (List.range 16).map fun i => bitsOf (if mask.getLsbD i then v else rv st d) (128 * i) 128
    let fl := (List.range ys.length).foldl (fun a j => if laneOn mask w j then a ||| (ys.getD j ⟨f32, 0, 0⟩).fl else a) 0
    withLateFlags st fl fun st => sendLong st [(vReg d.toNat, packElems 128 out)] fl .chain)

/-- MAND (R209). -/
def execMand (d : BitVec 4) (a : BitVec 4) (e : Bool) (b : BitVec 4) (f : Bool) (st : State) : Out :=
  .next (slotOp st (.mand d a e b f) fun st => sendReg st 2 (mReg d.toNat) (rm st a &&& rm st b).toNat)

/-- MOR (R209). -/
def execMor (d : BitVec 4) (a : BitVec 4) (e : Bool) (b : BitVec 4) (f : Bool) (st : State) : Out :=
  .next (slotOp st (.mor d a e b f) fun st => sendReg st 2 (mReg d.toNat) (rm st a ||| rm st b).toNat)

/-- MXOR (R209). -/
def execMxor (d : BitVec 4) (a : BitVec 4) (e : Bool) (b : BitVec 4) (f : Bool) (st : State) : Out :=
  .next (slotOp st (.mxor d a e b f) fun st => sendReg st 2 (mReg d.toNat) (rm st a ^^^ rm st b).toNat)

/-- MNOT (R209). -/
def execMnot (d : BitVec 4) (a : BitVec 4) (e : Bool) (st : State) : Out :=
  .next (slotOp st (.mnot d a e) fun st => sendReg st 2 (mReg d.toNat) (~~~(rm st a)).toNat)

/-- MFX (R210). -/
def execMfx (d : BitVec 5) (a : BitVec 4) (e : Bool) (st : State) : Out :=
  .next (slotOp st (.mfx d a e) fun st => sendReg st 2 (xReg d.toNat) (rm st a).toNat)

/-- MTX (R210). -/
def execMtx (d : BitVec 4) (a : BitVec 5) (e : Bool) (st : State) : Out :=
  .next (slotOp st (.mtx d a e) fun st => sendReg st 2 (mReg d.toNat) ((rx st a).toNat % 2 ^ 16))

/-- MBIT, set (R211). -/
def execMbitSet (d : BitVec 4) (a : BitVec 4) (e : Bool) (i : BitVec 4) (st : State) : Out :=
  .next (slotOp st (.mbitSet d a e i) fun st => sendReg st 2 (mReg d.toNat) (rm st a ||| ((1 : BitVec 16) <<< i.toNat)).toNat)

/-- MBIT, clear (R211). -/
def execMbitClr (d : BitVec 4) (a : BitVec 4) (e : Bool) (i : BitVec 4) (st : State) : Out :=
  .next (slotOp st (.mbitClr d a e i) fun st => sendReg st 2 (mReg d.toNat) (rm st a &&& ~~~((1 : BitVec 16) <<< i.toNat)).toNat)

/-- MBIT, invert (R211). -/
def execMbitInv (d : BitVec 4) (a : BitVec 4) (e : Bool) (i : BitVec 4) (st : State) : Out :=
  .next (slotOp st (.mbitInv d a e i) fun st => sendReg st 2 (mReg d.toNat) (rm st a ^^^ ((1 : BitVec 16) <<< i.toNat)).toNat)

/-- A special function of one destination (R212), long-latency; fmt FP32, BF16 or FP16. -/
def special (st : State) (d a : BitVec 5) (t : BitVec 3) (m : BitVec 4) (f : FFmt → Nat → FRes) : State :=
  let w := fmtBits t
  match efmt t with
  | .fl g => vPutLong st [(d, fun j => f g (elem w (rv st a) j))] w m
  | .int _ => st

/-- VEXP2 (R212, R213). -/
def execVexp2 (d : BitVec 5) (a : BitVec 5) (e : Bool) (t : BitVec 3) (m : BitVec 4) (st : State) : Out :=
  .next (slotOp st (.vexp2 d a e t m) fun st => special st d a t m (fexp2))

/-- VLOG2 (R212, R213). -/
def execVlog2 (d : BitVec 5) (a : BitVec 5) (e : Bool) (t : BitVec 3) (m : BitVec 4) (st : State) : Out :=
  .next (slotOp st (.vlog2 d a e t m) fun st => special st d a t m (flog2))

/-- VRCP (R212, R213). -/
def execVrcp (d : BitVec 5) (a : BitVec 5) (e : Bool) (t : BitVec 3) (m : BitVec 4) (st : State) : Out :=
  .next (slotOp st (.vrcp d a e t m) fun st => special st d a t m (fun f => frcp f (frmOf st)))

/-- VRSQ (R212, R213). -/
def execVrsq (d : BitVec 5) (a : BitVec 5) (e : Bool) (t : BitVec 3) (m : BitVec 4) (st : State) : Out :=
  .next (slotOp st (.vrsq d a e t m) fun st => special st d a t m (frsq))

/-- VSQRT (R212, R213). -/
def execVsqrt (d : BitVec 5) (a : BitVec 5) (e : Bool) (t : BitVec 3) (m : BitVec 4) (st : State) : Out :=
  .next (slotOp st (.vsqrt d a e t m) fun st => special st d a t m (fun f => fsqrt f (frmOf st)))

/-- VTANH (R212, R213). -/
def execVtanh (d : BitVec 5) (a : BitVec 5) (e : Bool) (t : BitVec 3) (m : BitVec 4) (st : State) : Out :=
  .next (slotOp st (.vtanh d a e t m) fun st => special st d a t m (ftanh))

/-- VSINCOS (R214): sin(πx) to vd and cos(πx) to v(vd + 1). -/
def execVsincos (d : BitVec 5) (a : BitVec 5) (e : Bool) (t : BitVec 3) (m : BitVec 4) (st : State) : Out :=
  .next (slotOp st (.vsincos d a e t m) fun st => let w := fmtBits t
    match efmt t with
    | .fl g => vPutLong st [(d, fun j => (fsincos g (elem w (rv st a) j)).1),
        (d + 1, fun j => (fsincos g (elem w (rv st a) j)).2)] w m
    | .int _ => st)

end Sys2Proof.Machine
end

