-- ==== Sys2Proof/Machine/Stream.lean ====
section
/-!
DEFINITION. Accesses to storage by the issuing bundle: the checks of 03 R66, R67 and R75, loads with their waits
(09 R241, 10 R286) and memory errors (18 R394), and stream addresses (03 R69 to R72).
-/
namespace Sys2Proof.Machine

/-- An address in KVAL of ALIGN and BOUND (R393). -/
def addrValI (sp : Space) (a : Int) : Nat := addrVal sp (a % (2 ^ 63 : Nat)).toNat

/-- The source code of a storage space in KVAL of MEMERR (R395). -/
def spaceCode (sp : Space) : Nat :=
  match sp with
  | .spad => 0
  | .win => 1

/-- KVAL of MEMERR (R395). -/
def memerrVal (source loc : Nat) : Word := BitVec.ofNat 64 (loc % 2 ^ 27 + source * 2 ^ 56)

/-- The bundle consumes uncorrectable data (R394). -/
def memError (s : State) (persist : Bool) (v : Word) : State := modScr s fun q => { q with memerr := some (persist, v) }

/-- The checks of an access of the load/store slot or of a stream: ALIGN, BOUND (R66), and RINGERR (R75), from which
curator accesses are exempt (R330). -/
def accessTrap (s : State) (sp : Space) (a : Int) (n al : Nat) : Option (Nat × Nat) :=
  if a % (al : Int) ≠ 0 then some (0x04, addrValI sp a)
  else if a < 0 ∨ (spaceSize sp : Int) < a + n then some (0x05, addrValI sp a)
  else if (curCore s).curator ∨ sp = .win then none
  else match coreRingClash (curCore s) (runCtx (curCore s)) a.toNat n with
    | some p => some (0x10, ringVal p false 4)
    | none => none

/-- A load of `n` bytes: its checks, its waits, and its bytes. -/
def withLoad (s : State) (sp : Space) (a : Int) (n al : Nat) (body : State → List Byte → State) : State :=
  match accessTrap s sp a n al with
  | some (c, v) => raise s c v
  | none =>
    match loadWait s sp a.toNat n with
    | some w => freeze s w
    | none =>
      match actBad s sp a.toNat n with
      | some w => memError s (persistent s w) (memerrVal (spaceCode sp) (w % spaceSize sp))
      | none => body (countFixed s (spaceKey s.cur sp a.toNat) n) (actRead s sp a.toNat n)

/-! ### Stream addresses (R71) -/

/-- Stream register `n` as the slot reads it: page and miss marks of an earlier slot of the bundle included. -/
def getStream (s : State) (n : Nat) : Stream :=
  match s.scr.streams.reverse.find? fun e => e.1 == n with
  | some e => e.2
  | none => (actRegs s).st.getD n .reset

/-- Write stream register `n` at the end of the bundle. -/
def putStream (s : State) (n : Nat) (st : Stream) : State :=
  modScr s fun q => { q with streams := q.streams ++ [(n, st)] }

def stBase (st : Stream) : Int := (stField st 0 27 : Nat)
def stSpace (st : Stream) : Nat := stField st 27 2
def stFmt (st : Stream) : Nat := stField st 29 4
def stDir (st : Stream) : Bool := bitOf st.desc.toNat 33
def stPort (st : Stream) : Nat := stField st 34 3
def stIlvl (st : Stream) : Nat := stField st 280 3
def stIen (st : Stream) : Bool := bitOf st.desc.toNat 283
def stImap (st : Stream) : Bool := bitOf st.desc.toNat 284
def stIshift (st : Stream) : Nat := stField st 285 5
def stItab (st : Stream) : Int := (stField st 290 23 : Nat)
def stImapb (st : Stream) : Int := (stField st 313 23 : Nat)
def stSbase (st : Stream) : Int := (stField st 352 27 : Nat)
def stSstride (st : Stream) : Int := sextNat 24 (stField st 379 24)

def spaceOf (n : Nat) : Space := if n = 1 then .win else .spad

/-- i_d × stride_d. -/
def stTerm (st : Stream) (d : Nat) : Int := ((nth 0 st.idx d : Nat) : Int) * stStride st d

/-- The logical offset o (R71). -/
def stOffset (st : Stream) : Int :=
  (List.range 6).foldl (fun a d => if stCount st d = 0 then a else a + stTerm st d) 0

/-- p (R71); an absent indirect dimension adds nothing. -/
def stPage (st : Stream) : Int := if stCount st (stIlvl st) = 0 then 0 else stTerm st (stIlvl st)

/-- A reserved field of an index or map entry is set (R71). -/
def entryBad (e : Nat) : Bool := bitsOf e 27 4 != 0

/-- The index entry for page offset `p` (R71), through the map table when imap is set. -/
def withEntry (s : State) (st : Stream) (p : Int) (body : State → Nat → State) : State :=
  let a := stItab st + 4 * (p / ((2 ^ stIshift st : Nat) : Int))
  withLoad s .spad a 4 4 fun s bs =>
    if entryBad (leNat bs) then raise s 0x05 (addrValI .spad a)
    else if stImap st then
      let b := stImapb st + 4 * (bitsOf (leNat bs) 0 20 : Nat)
      withLoad s .spad b 4 4 fun s bs =>
        if entryBad (leNat bs) then raise s 0x05 (addrValI .spad b) else body s (leNat bs)
    else body s (leNat bs)

/-- Post a tier-miss record when the address moves onto a non-resident page (R72); the bundle stalls while the event queue
has no room for it (R77). -/
def noteMiss (s : State) (n : Nat) (st : Stream) (page : Nat) (e : Nat) : State :=
  if st.page = some page ∨ (actCtx s).cfg.evq.isNone then s
  else if evRoom (actCtx s) then withhold s (.tierMiss n page e) else freeze s .eventQueue

/-- The address of `n` bytes at logical distance `d` from the position of stream `k` (R71), whether the access is
non-resident, and the stream after it. ALIGN, for a resident access, comes before BOUND (R85); a ring-bound stream has no
residency (R242). -/
def withStAddr (s : State) (k : Nat) (st : Stream) (d : Int) (n al : Nat)
    (body : State → Int → Bool → Stream → State) : State :=
  let sp := spaceOf (stSpace st)
  if stIen st then
    let p := stPage st + d
    let size : Int := ((2 ^ stIshift st : Nat) : Int)
    withEntry s st p fun s e =>
      let off := p % size + (stOffset st - stPage st)
      let a := (bitsOf e 0 27 : Nat) + off
      let miss := bitOf e 31 && stSpace st != 2
      if !miss && a % (al : Int) != 0 then raise s 0x04 (addrValI sp a)
      else if off < 0 ∨ size < off + n then raise s 0x05 (addrValI sp a)
      else
        let page := (p / size % (2 ^ 32 : Nat)).toNat
        let s := if miss then noteMiss s k st page e else s
        body s a miss { st with page := some page, miss := st.miss || miss }
  else
    let a := stBase st + stOffset st + d
    if a % (al : Int) ≠ 0 then raise s 0x04 (addrValI sp a) else body s a false st

/-- The head token of a ring-bound stream's port: RINGERR when the port is unconfigured; a wait while none is
visible (R242). -/
def withHead (s : State) (port : Nat) (body : RingCfg → RingTok → State) : State :=
  match ringCfg (actCtx s) port with
  | none => raise s 0x10 (ringVal port false 1)
  | some c =>
    match visibleToks c (getIn (actCtx s) port) with
    | [] => freeze s (.rpop port)
    | t :: _ => body c t

/-- Bytes `[a, a + n)` of the payload of a port's head token, an acquire of that token (R19). -/
def withPayload (s : State) (port : Nat) (a : Int) (n : Nat) (body : State → List Byte → State) : State :=
  withHead s port fun c t =>
    if a < 0 ∨ (t.len : Int) < a + n then raise s 0x10 (ringVal port false 4)
    else withLoad s .spad (entryAddr c t.slot + 16 + a) n 1 body

/-- A read of `n` bytes at the stream's position, aligned to `al`: of the head token's payload when the stream is
ring-bound (R242); zeros from a non-resident page (R72). -/
def withStRead (s : State) (k : Nat) (st : Stream) (n al : Nat) (body : State → List Byte → Stream → State) : State :=
  withStAddr s k st 0 n al fun s a miss st =>
    if stSpace st = 2 then withPayload s (stPort st) a n fun s bs => body s bs st
    else if miss then body s (List.replicate n 0) st
    else withLoad s (spaceOf (stSpace st)) a n al fun s bs => body s bs st

/-- Read scale bytes at successive addresses. -/
def withScales (s : State) (st : Stream) (a : Int) : Nat → (State → List Nat → State) → State
  | 0, body => body s []
  | n + 1, body =>
    let one : (State → List Byte → State) → State := fun f =>
      if stSpace st = 2 then withPayload s (stPort st) a 1 f else withLoad s (spaceOf (stSpace st)) a 1 1 f
    one fun s b => withScales s st (a + stSstride st) n fun s l => body s (leNat b :: l)

/-- The scale address of the block that holds logical offset `o` (R71). -/
def scaleAddr (st : Stream) (x : MxFmt) (o : Int) : Int := stSbase st + o / (mxBytes x : Int) * stSstride st

end Sys2Proof.Machine
end

