-- ==== Sys2Proof/Machine/Matrix.lean ====
section
/-!
DEFINITION. The matrix slot and Caliper (08 R215 to R239, R481): planes and their loads, beats, drains with masking,
the check span and its comparison, and the array's own events.
-/
namespace Sys2Proof.Machine

/-! ### Exact sums (R226) -/

def exNorm (m e : Int) : Exact := if m = 0 then .zero else ⟨m, e⟩

def exAdd (a b : Exact) : Exact :=
  if a.m = 0 then b
  else if b.m = 0 then a
  else
    let e := if a.e ≤ b.e then a.e else b.e
    exNorm (a.m * ((2 ^ (a.e - e).toNat : Nat) : Int) + b.m * ((2 ^ (b.e - e).toNat : Nat) : Int)) e

def exNeg (a : Exact) : Exact := ⟨-a.m, a.e⟩
def exSub (a b : Exact) : Exact := exAdd a (exNeg b)
def exMul (a b : Exact) : Exact := exNorm (a.m * b.m) (a.e + b.e)
def exSum (l : List Exact) : Exact := l.foldl exAdd .zero

/-- A finite value exactly; a NaN or an infinity contributes 0, its row and column being flagged. -/
def exOf (v : FVal) : Exact :=
  match v with
  | .fin g m e => exNorm (if g then -(m : Int) else (m : Int)) e
  | _ => .zero

def ex32 (b : Nat) : Exact := exOf (fdecode f32 b)

/-- |a| > |b| · for sums and bounds. -/
def exAbove (a b : Exact) : Bool :=
  let d := exSub ⟨a.m.natAbs, a.e⟩ ⟨b.m.natAbs, b.e⟩
  decide (0 < d.m)

def exDy (a : Exact) : Dy := dyOfInt a.m a.e

def fvFinite : FVal → Bool
  | .fin _ _ _ => true
  | _ => false

/-- floor(log2 |v|) of a nonzero finite value. -/
def fvLog (v : FVal) : Option Int :=
  match v with
  | .fin g m e => if m = 0 then none else some (dyLog ⟨g, m, e⟩)
  | _ => none

def peakMax (a b : Option Int) : Option Int :=
  match a, b with
  | none, b => b
  | a, none => a
  | some x, some y => some (if x ≤ y then y else x)

/-! ### Formats and planes (R215 to R217) -/

/-- Bits of an element of an array format. -/
def codeBits (c : Nat) : Nat :=
  match c with
  | 1 => 16
  | 7 => 6
  | 8 => 4
  | _ => 8

/-- K: the rows of a plane of a weight format. -/
def codeK (c : Nat) : Nat :=
  match c with
  | 1 => 64
  | 8 => 256
  | _ => 128

/-- The value of an element field under block scale `X`. -/
def codeVal (c X f : Nat) : FVal :=
  match mxOf c with
  | some x =>
    match mxValue x X f with
    | some d => .fin d.neg d.mant d.exp
    | none => .nan false 1
  | none => fdecode (if c = 1 then bf16 else if c = 5 then fE5m2 else fE4m3) f

/-- `n` packed elements with one scale for each 32. -/
def rowVals (c n bits : Nat) (scales : List Nat) : List FVal :=
  (List.range n).map fun j => codeVal c (nth 0 scales (j / 32)) (elem (codeBits c) bits j)

/-- Bytes of one plane row (R216). -/
def rowBytes (c : Nat) : Nat := 128 * codeBits c

/-- Rows of one beat, and its bytes. -/
def beatRows (c : Nat) : Nat := codeK c / 64
def beatBytes (c : Nat) : Nat := beatRows c * rowBytes c

/-- A row that holds zeros. -/
def PlaneRow.zero : PlaneRow := ⟨0, 0, [], some .zero⟩

def getPlane (c : Core) (p : Bool) : Tab PlaneRow := if p then c.plane1 else c.plane0
def setPlane (c : Core) (p : Bool) (t : Tab PlaneRow) : Core := if p then { c with plane1 := t } else { c with plane0 := t }
def getRec (r : Regs) (p : Bool) : PlaneRec := if p then r.rec1 else r.rec0
def setRec (r : Regs) (p : Bool) (x : PlaneRec) : Regs := if p then { r with rec1 := x } else { r with rec0 := x }

/-- Row `k` of plane `p` as a beat reads it: zeros where the loaded-beat mask lacks its beat (R218). -/
def planeRow (c : Core) (r : Regs) (p : Bool) (k : Nat) : PlaneRow :=
  let rec' := getRec r p
  if rec'.mask.getLsbD (k / beatRows rec'.code) then tabGet .zero (getPlane c p) k else .zero

def planeVals (c : Core) (r : Regs) (p : Bool) (k : Nat) : List FVal :=
  let row := planeRow c r p k
  rowVals row.code 1024 row.bits row.scales

/-- The checksum of a row, exactly; none when a weight is not finite (R219). -/
def hiddenSum (vs : List FVal) : Option Exact :=
  if vs.all fvFinite then some (exSum (vs.map exOf)) else none

/-- A plane row from its bytes and scales. -/
def mkPlaneRow (c : Nat) (bs : List Byte) (scales : List Nat) : PlaneRow :=
  ⟨c, leNat bs, scales, hiddenSum (rowVals c 1024 (leNat bs) scales)⟩

/-- The rows of one beat from its run and its scales. -/
def mkBeat (c : Nat) (bs : List Byte) (scales : List Nat) : List PlaneRow :=
  (List.range (beatRows c)).map fun i =>
    mkPlaneRow c ((bs.drop (i * rowBytes c)).take (rowBytes c)) ((scales.drop (32 * i)).take 32)

def zeroBeat (c : Nat) : List PlaneRow := (List.range (beatRows c)).map fun _ => .zero

/-- Write the rows of beat `j`. -/
def putBeat (c : Nat) (t : Tab PlaneRow) (j : Nat) (rows : List PlaneRow) : Tab PlaneRow :=
  tabSetMany .zero t (j * beatRows c) rows

/-! ### The accumulator -/

def rowElems (r : AccRow) : List Nat := (List.range 1024).map fun j => elem 32 r.toNat j
def packRow (l : List Nat) : AccRow := BitVec.ofNat 32768 (packElems 32 l)

def setAcc (c : Core) (n : Nat) (r : AccRow) : Core := { c with acc := tabSet 0 c.acc n r }

/-- A row that an ACLD has yet to write (R247). -/
def acldOn (x : Context) (n : Nat) : Bool :=
  x.producers.any fun p =>
    match p with
    | .acld r _ _ => r == n
    | _ => false

/-- The storage region of the accumulator image (R82) as a byte key. -/
def accKey (k row col : Nat) : Nat := 3 * 2 ^ 40 + k * 2 ^ 20 + row * 4096 + col * 4

/-- The matrix slot reads words of a row: memory errors (R394). -/
def withAccRead (s : State) (row col n : Nat) (body : State → State) : State :=
  match badWord s (accKey s.cur row col) (4 * n) with
  | some w => memError s (persistent s w) (memerrVal 3 (w % 2 ^ 20))
  | none => body (countFixed s (accKey s.cur row col) (4 * n))

/-- A write of a row replaces every word of it. -/
def accWritten (s : State) (k row : Nat) : State :=
  if s.flips.isEmpty then s else { s with flips := clearFlips s.flips (accKey k row 0) 4096 }

/-! ### The check span -/

def rowSpan (sp : Span) (r : Nat) : RowSpan := tabGet .reset sp.rows r
def touched (sp : Span) (r : Nat) : Bool := (rowSpan sp r).b != 0
def colSpan (sp : Span) (n : Nat) : ColSpan := tabGet .reset sp.cols n

def putRow (sp : Span) (r : Nat) (x : RowSpan) : Span := { sp with rows := tabSet .reset sp.rows r x }

/-- Update every column by its index. -/
def mapCols (sp : Span) (f : Nat → ColSpan → ColSpan) : Span :=
  { sp with cols := (List.range 1024).foldl (fun t n => tabSet .reset t n (f n (tabGet .reset t n))) sp.cols }

/-- Flag row `r` and column `n` non-finite. -/
def flagAt (sp : Span) (r n : Nat) : Span :=
  let sp := putRow sp r { rowSpan sp r with flagged := true }
  { sp with cols := tabSet .reset sp.cols n { colSpan sp n with flagged := true } }

/-- One element of a touched row changes from `o` to `n` without check (R228). -/
def adjust (sp : Span) (r col o n : Nat) : Span :=
  let a := fdecode f32 o
  let b := fdecode f32 n
  if fvFinite a && fvFinite b then
    let d := exSub (exOf b) (exOf a)
    let sp := putRow sp r { rowSpan sp r with h := exAdd (rowSpan sp r).h d }
    { sp with cols := tabSet .reset sp.cols col { colSpan sp col with b := exAdd (colSpan sp col).b d } }
  else flagAt sp r col

/-- A write of segment values into a row by MCLR or ACLD (R228). -/
def spanWrite (sp : Span) (r col0 : Nat) (old new : List Nat) : Span :=
  if touched sp r then
    let sp := ((List.range new.length).zip (old.zip new)).foldl
      (fun sp e => adjust sp r (col0 + e.1) e.2.1 e.2.2) sp
    let x := rowSpan sp r
    putRow sp r { x with drained := tabErase (col0 / 64) ((col0 + new.length + 63) / 64) x.drained }
  else sp

/-! ### MAC (R221, R226) -/

/-- The truncated exact sum S of a column's terms, before rounding (R53). -/
def dotSum (terms : List FVal) : Exact :=
  let ds := terms.map fdy
  match (ds.filter fun d => d.mant != 0).map dyLog with
  | [] => .zero
  | e0 :: es =>
    let L := intMaxL e0 es - 86
    exNorm ((ds.map (truncAt L)).foldl (· + ·) 0) L

/-- What a beat does to one column. -/
structure BeatCol where
  new  : Nat
  adj  : Exact
  peak : Option Int
  bad  : Bool
  deriving DecidableEq, Repr

def beatCol (terms : List FVal) (o : Nat) (add u : Bool) : BeatCol :=
  let ov := fdecode f32 o
  let ts := if add then ov :: terms else terms
  let n := exactDot ts
  let nv := fdecode f32 n
  let bad := terms.any (fun t => !fvFinite t) || !fvFinite ov || !fvFinite nv
  let term := exSub (if add then exOf ov else .zero) (if u then exOf ov else .zero)
  ⟨n, if bad then .zero else exAdd (exSub (exOf nv) (dotSum ts)) term,
    (terms ++ [ov, nv]).foldl (fun a t => peakMax a (fvLog t)) none, bad⟩

/-- The products of an activation row with the plane, column by column. -/
def beatTerms (a : List FVal) (rows : List (List FVal)) : List (List FVal) :=
  (a.zip rows).foldr (fun e cols => (cols.zip e.2).map fun t => termMul e.1 t.2 :: t.1) (List.replicate 1024 [])

def insertPair (l : List (Nat × Nat)) (p : Nat × Nat) : List (Nat × Nat) := if l.contains p then l else l ++ [p]

/-- The span after a beat (R226). -/
def spanBeat (sp : Span) (r : Nat) (add : Bool) (pair : Nat × Nat) (a : List FVal) (hid : List (Option Exact))
    (o : List Nat) (cs : List BeatCol) : Span :=
  let u := touched sp r
  let x := rowSpan sp r
  let hsum := exSum ((a.zip hid).map fun e => exMul (exOf e.1) (e.2.getD .zero))
  let x := { x with
    h := exAdd x.h (exAdd hsum (exSum (cs.map (·.adj)))),
    b := x.b + 1,
    peak := cs.foldl (fun p c => peakMax p c.peak) x.peak,
    prior := x.prior || (add && !u && o.any fun b => b % 2 ^ 31 != 0),
    flagged := x.flagged || cs.any (·.bad),
    pairs := insertPair x.pairs pair,
    drained := [] }
  let sp := putRow sp r x
  let sp := { sp with b := sp.b + 1, pairs := insertPair sp.pairs pair, prior := sp.prior || x.prior,
                      s := ((List.range a.length).zip a).foldl
                        (fun t e => tabSet .zero t e.1 (exAdd (tabGet .zero t e.1) (exOf e.2))) sp.s }
  mapCols sp fun n c =>
    match cs[n]? with
    | none => c
    | some q => { c with b := exAdd c.b q.adj, peak := peakMax c.peak q.peak, flagged := c.flagged || q.bad }

/-- The activation row of a stream source (R217, R221). -/
def withActStream (s : State) (k code : Nat) (body : State → List FVal → State) (ill : State → State) : State :=
  let st := getStream s k
  let n := codeK code
  if !st.loaded || stFmt st != code || stDir st then ill s
  else match mxOf code with
    | none =>
      withStRead s k st (n * codeBits code / 8) (codeBits code / 8) fun s bs st =>
        body (putStream s k st) (rowVals code n (leNat bs) [])
    | some x =>
      withStRead s k st (n * codeBits code / 8) (mxBytes x) fun s bs st' =>
        withScales s st (scaleAddr st x (stOffset st)) (n / 32) fun s sc =>
          body (putStream s k st') (rowVals code n (leNat bs) sc)

/-- The activation row of a v register: scales from byte 248 (R217). -/
def actReg (s : State) (v code : Nat) : List FVal :=
  let b := (readV (actRegs s) v).toNat
  rowVals code (codeK code) b ((List.range 8).map fun i => bitsOf b (8 * (248 + i)) 8)

/-- The weight code of the front plane, or wcode while it is empty (R221). -/
def frontCode (r : Regs) : Nat := let x := getRec r r.front; if x.mask = 0 then r.wcode.toNat else x.code

/-- One beat of row `row` with a decoded activation row. -/
def macBeat (s : State) (row : Nat) (add : Bool) (a : List FVal) : State :=
  withAccRead s row 0 1024 fun s =>
    let c := curCore s
    let b := runCtx c
    let r := actRegs s
    let pair := (r.acode.toNat, frontCode r)
    let ks := List.range (codeK pair.2)
    let o := rowElems (accRow c row)
    let terms := beatTerms a (ks.map fun k => planeVals c r r.front k)
    let u := touched r.span row
    let cs := (terms.zip o).map fun e => beatCol e.1 e.2 add u
    let sp := spanBeat r.span row add pair a (ks.map fun k => (planeRow c r r.front k).hidden) o cs
    let s := modScr s fun q => { q with accOld := q.accOld ++ [(row, accRow c row)] }
    let s := modCore s s.cur fun c => setAcc (saveRow c b row) row (packRow (cs.map (·.new)))
    let s := accWritten s s.cur row
    let s := modAct s fun r => { r with span := sp, fixEn := false }
    modActCtx s fun x => { x with macBusy := if x.macBusy.contains row then x.macBusy else x.macBusy ++ [row],
                                  bf16Busy := x.bf16Busy || pair.1 == 1 }

/-- MAC (R221). -/
def execMac (r : BitVec 8) (src : BitVec 5) (o : BitVec 2) (e : Bool) (p : BitVec 3) (s : State) : Out :=
  .next (slotOp s (.mac r src o e p) fun s =>
    let ill := fun s : State => raise s 0x01 ((encode (.mac r src o e p)).getD 0)
    let g := actRegs s
    let code := g.acode.toNat
    if mfmtPair code (frontCode g) = false then ill s
    else
      let go := fun (s : State) (a : List FVal) =>
        if acldOn (actCtx s) r.toNat || (code == 1 && (actCtx s).bf16Busy) then freeze s .array
        else if undoOver (actCtx s) [r.toNat] then forceCkpt s
        else macBeat s r.toNat (o == 1) a
      if 16 ≤ src.toNat then go s (actReg s (src.toNat - 16) code)
      else withActStream s src.toNat code go ill)

/-! ### Loading and exchanging planes (R219, R220, R481) -/

/-- Read the beats `j` to 63 of a load (R219). DESIGN CHOICE where the stream's dimensions give an offset: a beat's page is that
of its address as R219 counts it, not of o + (j − k) × 2 KiB as R299 has it (log entry 158). -/
def withBeats (s : State) (k : Nat) (st : Stream) (code k0 : Nat) : Nat → Nat → Stream →
    (State → List (List PlaneRow) → Stream → State) → State
  | 0, _, cur, body => body s [] cur
  | n + 1, j, cur, body =>
    let d : Int := ((j - k0) * beatBytes code : Nat)
    withStAddr s k { st with page := cur.page, miss := cur.miss } d (beatBytes code) (if j = k0 then 64 else 1) fun s a miss cur =>
      if miss then
        withBeats s k st code k0 n (j + 1) cur fun s l cur => body s (zeroBeat code :: l) cur
      else
        withLoad s (spaceOf (stSpace st)) a (beatBytes code) (if j = k0 then 64 else 1) fun s bs =>
          let rest := fun (s : State) (sc : List Nat) =>
            withBeats s k st code k0 n (j + 1) cur fun s l cur => body s (mkBeat code bs sc :: l) cur
          match mxOf code with
          | none => rest s []
          | some x =>
            let first := scaleAddr st x (stOffset st)
            withScales s st (first + ((j - k0) * (beatRows code * 32) : Nat) * stSstride st) (beatRows code * 32) rest

/-- The traps of an MWLD that name ILLEGAL (R219). -/
def mwldIllegal (r : Regs) (st : Stream) : Bool :=
  let back := getRec r (!r.front)
  !st.loaded || stFmt st != r.wcode.toNat || stDir st || decide (2 ≤ stSpace st) || (stIen st && decide (stIshift st < 11))
    || (back.mask != 0 && back.code != r.wcode.toNat)

/-- MWLD (R219). -/
def execMwld (k : BitVec 6) (sn : BitVec 4) (p : BitVec 3) (s : State) : Out :=
  .next (slotOp s (.mwld k sn p) fun s =>
    let r := actRegs s
    let st := getStream s sn.toNat
    let code := r.wcode.toNat
    if mwldIllegal r st then raise s 0x01 ((encode (.mwld k sn p)).getD 0)
    else
      withBeats s sn.toNat st code k.toNat (64 - k.toNat) k.toNat st fun s data st' =>
        let c := curCore s
        let x := actCtx s
        if c.mwld.isSome then freeze s .array
        else if x.copy.front = !r.front then forceCkpt s
        else
          let back := getRec r (!r.front)
          let sc0 := match mxOf code with
            | some x => scaleAddr st x (stOffset st)
            | none => 0
          let a0 := stBase st + stOffset st
          let entries := (back.entries.filter fun e => decide (e.k < k.toNat)) ++ [⟨st, a0, sc0, k.toNat⟩]
          let s := modAct s fun r => setRec r (!r.front)
            { back with code := if back.mask = 0 then code else back.code, entries := entries }
          let s := putStream s sn.toNat st'
          modCore s s.cur fun c => { c with mwld := some ⟨runCtx c, !r.front, k.toNat, data, false⟩ })

/-- Σ_k s_k × W[k][n] over the plane's rows, for every column; none where a weight is not finite. -/
def weightSums (c : Core) (r : Regs) (sp : Span) : List (Option Exact) :=
  let ks := (List.range (codeK (frontCode r))).filter fun k => (tabGet .zero sp.s k).m != 0
  ks.foldl (fun acc k =>
    let sk := tabGet .zero sp.s k
    (acc.zip (planeVals c r r.front k)).map fun e =>
      match e.1 with
      | none => none
      | some t => if fvFinite e.2 then some (exAdd t (exMul sk (exOf e.2))) else none)
    (List.replicate 1024 (some .zero))

/-- MSWP's fold of the outgoing plane into E (R220). -/
def foldPlane (c : Core) (r : Regs) : Span :=
  let ws := weightSums c r r.span
  let sp := mapCols r.span fun n q =>
    match nth none ws n with
    | some w => { q with e := exAdd q.e w }
    | none => { q with flagged := true }
  { sp with s := [] }

/-- MSWP (R220): freezes until this context's load has landed. -/
def execMswp (p : BitVec 3) (s : State) : Out :=
  .next (slotOp s (.mswp p) fun s =>
    let c := curCore s
    let r := actRegs s
    if c.mwld.any (fun l => l.ctx == runCtx c) then freeze s .array
    else
      let sp := foldPlane c r
      let s := modAct s fun r =>
        let r := setRec r r.front { getRec r r.front with mask := 0, entries := [] }
        { r with front := !r.front, span := sp, ckres := 0, ckloc := 0, fixEn := false }
      modActCtx s fun x => if x.retry then x else { x with ckcnt := 0, pattern := 0 })

/-- MFMT (R238). -/
def execMfmt (a : BitVec 4) (w : BitVec 4) (p : BitVec 3) (s : State) : Out :=
  .next (slotOp s (.mfmt a w p) fun s => modAct s fun r => { r with acode := a, wcode := w })

/-! Reloading a plane from its record (R481): no check, no trap, zeros where a beat cannot be read. -/

/-- The index entry of a reload. -/
def reloadEntry (s : State) (k : Nat) (b : Bool) (st : Stream) (p : Int) : Option Nat :=
  let word := fun (a : Int) =>
    if a % 4 ≠ 0 ∨ a < 0 ∨ (2 ^ 23 : Int) < a + 4 then none
    else
      let e := leNat (viewRead s k b .spad a.toNat 4)
      if entryBad e then none else some e
  match word (stItab st + 4 * (p / ((2 ^ stIshift st : Nat) : Int))) with
  | none => none
  | some e => if stImap st then word (stImapb st + 4 * (bitsOf e 0 20 : Nat)) else some e

/-- The address of a reloaded beat; none where it loads zeros. -/
def reloadAddr (s : State) (k : Nat) (b : Bool) (st : Stream) (d : Int) (n : Nat) : Option Int :=
  let a : Option Int :=
    if stIen st then
      let p := stPage st + d
      let size : Int := ((2 ^ stIshift st : Nat) : Int)
      match reloadEntry s k b st p with
      | none => none
      | some e =>
        let off := p % size + (stOffset st - stPage st)
        if off < 0 ∨ size < off + n ∨ bitOf e 31 then none else some ((bitsOf e 0 27 : Nat) + off)
    else some (stBase st + stOffset st + d)
  match a with
  | none => none
  | some a => if a < 0 ∨ (spaceSize (spaceOf (stSpace st)) : Int) < a + n then none else some a

/-- One beat of a reload. -/
def reloadBeat (s : State) (k : Nat) (b : Bool) (code : Nat) (e : LoadEntry) (j : Nat) : List PlaneRow :=
  let st := e.st
  let sp := spaceOf (stSpace st)
  match reloadAddr s k b st ((j - e.k) * beatBytes code : Nat) (beatBytes code) with
  | none => zeroBeat code
  | some a =>
    let bs := viewRead s k b sp a.toNat (beatBytes code)
    match mxOf code with
    | none => mkBeat code bs []
    | some _ =>
      let n := beatRows code * 32
      let addrs := (List.range n).map fun i => e.sc0 + (((j - e.k) * n + i : Nat) : Int) * stSstride st
      if addrs.any (fun x => decide (x < 0) || decide ((spaceSize sp : Int) ≤ x)) then zeroBeat code
      else mkBeat code bs (addrs.map fun x => leNat (viewRead s k b sp x.toNat 1))

/-- Reload plane `p` of context `b` from its record (R481). -/
def reloadPlane (s : State) (k : Nat) (b p : Bool) : State :=
  let r := (ctxAt s k b).live
  let rec' := getRec r p
  let js := (List.range 64).filter fun j => rec'.mask.getLsbD j
  modCore s k fun c => setPlane c p (js.foldl (fun t j =>
    match (rec'.entries.filter fun e => decide (e.k ≤ j)).getLast? with
    | none => putBeat rec'.code t j (zeroBeat rec'.code)
    | some e => putBeat rec'.code t j (reloadBeat s k b rec'.code e j)) (getPlane c p))

def reloadPlanes (s : State) (k : Nat) (b : Bool) : State := reloadPlane (reloadPlane s k b false) k b true

/-! ### Draining and masking (R222 to R225) -/

/-- masked(q, k) (R225). -/
def maskedAt (u : MaskUnit) (q k : Int) : Bool :=
  match u.mode with
  | 0 => false
  | 2 =>
    let nq := q - u.tbase.toInt
    let nk := k - u.tbase.toInt
    if 0 ≤ nk then
      if nk < u.ntree then
        !(decide (0 ≤ nq) && decide (nq < u.ntree) && (tabGet 0 u.anc nq.toNat).getLsbD nk.toNat)
      else true
    else decide (q < k)
  | _ => decide (q < k)

/-- The sum of terms rounded to FP32 (R222), with the operands in order for R42. -/
def drainSum (ops : List Nat) (ts : List FVal) : Nat :=
  let inv := ts.any visNan || (ts.any (fun t => visInf t && fneg? t) && ts.any (fun t => visInf t && !fneg? t))
  match nanRule f32 ops inv with
  | some r => r.1
  | none =>
    match ts.find? visInf with
    | some t => finfBits f32 (fneg? t)
    | none =>
      match ts.map fdy with
      | [] => 0
      | d :: ds => (roundTo f32 .rne (ds.foldl (dyAdd .rne) d)).1

/-- One drained element (R222). -/
def drainElem (u : MaskUnit) (mask scale : Bool) (row col v : Nat) : Nat :=
  let q := u.qbase.toInt + row
  let k := u.kbase.toInt + col
  if !mask && !scale then v
  else if mask && maskedAt u q k then u.subst.toNat
  else
    let sc := u.scale.toNat
    let t0 := if scale then termMul (fdecode f32 v) (fdecode f32 sc) else fdecode f32 v
    let o0 := if scale then [v, sc] else [v]
    let bias := (tabGet 0 u.bias col).toNat
    let lmb := mask && u.lmb
    let slope := u.slope.toNat
    let dist := mask && u.mode == 3
    let d := q - k
    let t2 := termMul (fdecode f32 slope) (.fin (decide (d < 0)) d.natAbs 0)
    let t2 := match t2 with
      | .fin g m e => FVal.fin (!g) m e
      | .inf g => FVal.inf (!g)
      | n => n
    drainSum (o0 ++ (if lmb then [bias] else []) ++ (if dist then [slope] else []))
      ([t0] ++ (if lmb then [fdecode f32 bias] else []) ++ (if dist then [t2] else []))

/-- Caliper's record of a drained segment (R227). -/
def recordDrain (sp : Span) (row seg : Nat) (vs : List Nat) : Span :=
  if touched sp row then
    let x := rowSpan sp row
    let sp := putRow sp row { x with drained := tabSet [] x.drained seg (vs.map (BitVec.ofNat 32)) }
    ((List.range 64).zip vs).foldl (fun sp e => if fvFinite (fdecode f32 e.2) then sp else flagAt sp row (64 * seg + e.1)) sp
  else sp

/-- Elements of segment `g` of a row. -/
def segElems (r : AccRow) (g : Nat) : List Nat := (List.range 64).map fun j => elem 32 r.toNat (64 * g + j)

/-- MDRN (R222), long-latency. -/
def execMdrn (d : BitVec 5) (r : BitVec 8) (g : BitVec 4) (m : Bool) (c : Bool) (p : BitVec 3) (s : State) : Out :=
  .next (slotOp s (.mdrn d r g m c p) fun s =>
    let x := actCtx s
    if x.macBusy.contains r.toNat || acldOn x r.toNat || ((m || c) && x.mmpbBusy) then freeze s .array
    else withAccRead s r.toNat (64 * g.toNat) 64 fun s =>
      let u := (actRegs s).mask
      let vs := segElems (accRow (curCore s) r.toNat) g.toNat
      let out := ((List.range 64).zip vs).map fun e => drainElem u m c r.toNat (64 * g.toNat + e.1) e.2
      let s := modAct s fun q => { q with span := recordDrain q.span r.toNat g.toNat vs }
      sendLong s [(vReg d.toNat, packElems 32 out)] 0 .plain)

/-- The mask unit from the bytes of a parameter block (R223). -/
def maskBlock (w : Nat) (bias : Tab (BitVec 32)) : MaskUnit :=
  { mode := bitsOf w 0 2, lmb := bitOf w 2, ntree := bitsOf w 8 8,
    qbase := BitVec.ofNat 32 (bitsOf w 32 32), kbase := BitVec.ofNat 32 (bitsOf w 64 32),
    tbase := BitVec.ofNat 32 (bitsOf w 96 32), scale := BitVec.ofNat 32 (bitsOf w 128 32),
    subst := BitVec.ofNat 32 (bitsOf w 160 32), slope := BitVec.ofNat 32 (bitsOf w 192 32),
    anc := tabSetMany 0 [] 0 ((List.range 64).map fun i => BitVec.ofNat 64 (bitsOf w (4096 + 64 * i) 64)),
    bias := bias }

/-- A reserved field is set or ntree breaks its limits (R224). -/
def maskIllegal (w : Nat) : Bool :=
  bitsOf w 3 5 != 0 || bitsOf w 16 16 != 0 || bitsOf w 247 (4096 - 247) != 0
    || (let n := bitsOf w 8 8; if bitsOf w 0 2 = 2 then n == 0 || decide (64 < n) else n != 0)

/-- MMPB (R224). Without lmb the bias array is left as it was. -/
def execMmpb (a : BitVec 5) (e : Bool) (p : BitVec 3) (s : State) : Out :=
  .next (slotOp s (.mmpb a e p) fun s =>
    withLoad s .spad ((rx s a).toNat : Nat) 1024 64 fun s bs =>
      let w := leNat bs
      if maskIllegal w then raise s 0x01 ((encode (.mmpb a e p)).getD 0)
      else
        let load := fun (s : State) (bias : Tab (BitVec 32)) =>
          modActCtx (modAct s fun r => { r with mask := maskBlock w bias }) fun x => { x with mmpbBusy := true }
        if bitOf w 2 then
          withLoad s .spad (bitsOf w 224 23 : Nat) 4096 64 fun s bb =>
            let v := leNat bb
            load s (tabSetMany 0 [] 0 ((List.range 1024).map fun i => BitVec.ofNat 32 (elem 32 v i)))
        else load s (actRegs s).mask.bias)

/-! ### Caliper's instructions -/

/-- MCHK (R229): the comparison follows. With policy 1 its possible effect needs an entry of the pending-effect list. -/
def execMchk (p : BitVec 3) (s : State) : Out :=
  .next (slotOp s (.mchk p) fun s =>
    if bitOf (actRegs s).ckpol.toNat 0 && decide (64 ≤ pendCount (actCtx s)) then forceCkpt s
    else
      let i := issueIndex (curCore s)
      modActCtx s fun x => { x with mchk := some i })

/-- MLOC (R233). -/
def execMloc (p : BitVec 3) (s : State) : Out :=
  .next (slotOp s (.mloc p) fun s =>
    modAct s fun r =>
      match r.fixEn, r.span.delta with
      | true, some (row, col, d) =>
        { r with ckloc := BitVec.ofNat 64 (row + col * 2 ^ 8 + 2 ^ 18 + (roundTo f32 .rne (exDy d)).1 * 2 ^ 32) }
      | _, _ => { r with ckloc := 0 })

/-- D_r: the exact sum of the drained values of a row (R227). -/
def drainedSum (x : RowSpan) : Exact :=
  exSum (x.drained.flatMap fun e => e.2.map fun v => ex32 v.toNat)

/-- Δ_r for MFIX: the comparison's for the row it located; else the row's own as it stands. -/
def fixDelta (sp : Span) (row : Nat) : Exact :=
  match sp.delta with
  | some (r, _, d) => if r = row then d else if touched sp row then exSub (drainedSum (rowSpan sp row)) (rowSpan sp row).h else .zero
  | none => .zero

/-- MFIX (R234). An old element that is NaN or infinite keeps its bits and adds nothing to H and B, where the rule names no
result: DEDUCED (log entry 107). -/
def execMfix (p : BitVec 3) (s : State) : Out :=
  .next (slotOp s (.mfix p) fun s =>
    let r := actRegs s
    if r.fixEn = false then s
    else
      let row := bitsOf r.ckloc.toNat 0 8
      let col := bitsOf r.ckloc.toNat 8 10
      if acldOn (actCtx s) row then freeze s .array
      else if undoOver (actCtx s) [row] then forceCkpt s
      else withAccRead s row col 1 fun s =>
        let c := curCore s
        let old := accRow c row
        let o := elem 32 old.toNat col
        let want := exSub (ex32 o) (fixDelta r.span row)
        let n := if fvFinite (fdecode f32 o) then (roundTo f32 .rne (exDy want)).1 else o
        let d := if fvFinite (fdecode f32 o) && fvFinite (fdecode f32 n) then exSub (ex32 n) want else .zero
        let x := rowSpan r.span row
        let sp := if touched r.span row then
            putRow r.span row { x with h := exAdd x.h d, drained := tabErase (col / 64) (col / 64 + 1) x.drained }
          else r.span
        let q := colSpan sp col
        let sp := { sp with cols := tabSet .reset sp.cols col { q with b := exAdd q.b d } }
        let s := modScr s fun z => { z with accOld := z.accOld ++ [(row, old)] }
        let s := modCore s s.cur fun c => setAcc (saveRow c (runCtx c) row) row (BitVec.ofNat 32768 (setBits old.toNat (32 * col) 32 n))
        modAct s fun r => { r with span := sp, fixEn := false })

/-- MCLR (R237). -/
def execMclr (r : BitVec 8) (c : BitVec 5) (p : BitVec 3) (s : State) : Out :=
  .next (slotOp s (.mclr r c p) fun s =>
    let rows := rangeFrom r.toNat (r.toNat + c.toNat + 1)
    if rows.any fun n => acldOn (actCtx s) n then freeze s .array
    else if undoOver (actCtx s) rows then forceCkpt s
    else
      let s := rows.foldl (fun s n =>
        let old := accRow (curCore s) n
        let s := modScr s fun q => { q with accOld := q.accOld ++ [(n, old)] }
        let s := modAct s fun g =>
          if touched g.span n then { g with span := spanWrite g.span n 0 (rowElems old) (List.replicate 1024 0) } else g
        accWritten (modCore s s.cur fun c => setAcc (saveRow c (runCtx c) n) n 0) s.cur n) s
      modAct s fun g => { g with fixEn := false })

/-- An ACLD lands (R247): the row is saved, the segment written, the span adjusted. -/
def acldLand (s : State) (k : Nat) (b : Bool) (row seg : Nat) (bits : VWord) : State :=
  let c := getCore s k
  let old := accRow c row
  let new := BitVec.ofNat 32768 (setBits old.toNat (2048 * seg) 2048 bits.toNat)
  let s := setCore s k (setAcc (saveRow c b row) row new)
  let s := if s.flips.isEmpty then s else { s with flips := clearFlips s.flips (accKey k row (64 * seg)) 256 }
  modRegsAt s k (whoCtx b) fun r =>
    { r with span := spanWrite r.span row (64 * seg) (segElems old seg) (segElems new seg) }

/-! ### The comparison (R229, R232, R235) -/

/-- The ctol index of a format pair (R229, R63). -/
def ctolIndex (p : Nat × Nat) : Nat :=
  if p.1 ≠ p.2 then 6
  else match p.1 with
    | 4 => 0
    | 5 => 1
    | 6 => 2
    | 7 => 3
    | 8 => 4
    | _ => 5

/-- CTOLMIN of the core's partition (R337). -/
def ctolMin (s : State) (k : Nat) : Nat :=
  match s.parts.find? fun p => p.params.num == partOf (getCore s k) with
  | some p => p.ctolmin.toNat
  | none => 0x0100

/-- mult(set) (R229). -/
def multOf (x : Context) (lo : Nat) (ps : List (Nat × Nat)) (prior : Bool) : Nat :=
  let is := ps.map ctolIndex ++ (if prior then [7] else [])
  is.foldl (fun m i => Nat.max m (x.ctol.getD i 0).toNat) lo

/-- |Δ| exceeds mult × b × 2^(P − 23), mult in 8.8 fixed point. -/
def beyond (d : Exact) (mult b : Nat) (peak : Option Int) : Bool :=
  match peak with
  | none => d.m != 0
  | some p => exAbove d (exNorm (mult * b : Nat) (p - 31))

/-- The outcome of a comparison. -/
structure Verdict where
  rows : List (Nat × Exact)
  cols : List Nat
  unchecked : Bool
  deriving DecidableEq, Repr

def compareSpan (s : State) (k : Nat) (b : Bool) : Verdict :=
  let c := getCore s k
  let x := getCtx c b
  let r := x.live
  let sp := r.span
  let lo := ctolMin s k
  let ts := sp.rows.filter fun e => e.2.b != 0
  let rows := ts.filterMap fun e =>
    if e.2.flagged then none
    else
      let d := exSub (drainedSum e.2) e.2.h
      if beyond d (multOf x lo e.2.pairs e.2.prior) e.2.b e.2.peak then some (e.1, d) else none
  let ws := weightSums c r sp
  let m := multOf x lo sp.pairs (ts.any (·.2.prior))
  let drained := fun n : Nat =>
    exSum (ts.map fun e => match (tabGet [] e.2.drained (n / 64))[n % 64]? with
      | some v => ex32 v.toNat
      | none => .zero)
  let cols := if ts.isEmpty then [] else ((List.range 1024).zip ws).map fun c =>
    let q := colSpan sp c.1
    match c.2 with
    | none => (c.1, true, false)
    | some w =>
      if q.flagged then (c.1, true, false)
      else
        let d := exSub (drained c.1) (exAdd (exAdd q.e w) q.b)
        (c.1, false, beyond d m sp.b q.peak)
  ⟨rows, (cols.filter (·.2.2)).map (·.1), ts.any (·.2.flagged) || cols.any (·.2.1)⟩

/-- ckres (R64). -/
def ckresOf (v : Verdict) : BitVec 32 :=
  let single := v.rows.length == 1 && v.cols.length == 1
  BitVec.ofNat 32 (1 + 2 * b01 (!v.rows.isEmpty) + 4 * b01 (!v.cols.isEmpty) + 8 * b01 v.unchecked + 16 * b01 single
    + Nat.min 255 v.rows.length * 2 ^ 8 + v.cols.length * 2 ^ 16)

/-- The pattern word (R235). -/
def patternOf (v : Verdict) : BitVec 32 :=
  crc32c (natLe 32 (v.rows.foldl (fun a e => a + 2 ^ e.1) 0) ++ natLe 128 (v.cols.foldl (fun a n => a + 2 ^ n) 0))

/-- A Caliper retry (R235). -/
def caliperRetry (s : State) (k : Nat) (b : Bool) (pat : BitVec 32) : State :=
  let c := rollBack (getCore s k) b
  let s := setCore s k (modCtx c b fun x =>
    { x with ckcnt := x.ckcnt + 1, pattern := pat, retry := true,
             cnt := x.cnt.setIfInBounds 5 (x.cnt.getD 5 0 + 1) })
  reloadPlanes s k b

/-- A result of the array, or a segment that an ACLD loads, is still on its way: every MDRN before the MCHK ends first, and
an ACLD, which lands 6 cc after its issue, before the comparison (R229, R247). -/
def arrayOpen (x : Context) : Bool :=
  x.producers.any fun p => match p with
    | .value _ _ _ => true
    | .acld _ _ _ => true
    | _ => false

/-- CALIPER_COMPARE (R229): once what the MCHK waits for has finished. -/
def execCaliperCompare (k : Nat) (b : Bool) (s : State) : Out :=
  .next (
    let x := ctxAt s k b
    match x.mchk with
    | none => s
    | some pc =>
      if x.mmpbBusy || !x.macBusy.isEmpty || arrayOpen x then s
      else
        let v := compareSpan s k b
        let single := v.rows.length == 1 && v.cols.length == 1
        let bad := !v.rows.isEmpty || !v.cols.isEmpty
        let delta := match v.rows, v.cols with
          | [(r, d)], [n] => some (r, n, d)
          | _, _ => none
        let s := modRegsAt s k (whoCtx b) fun r =>
          { r with ckres := ckresOf v, fixEn := single, span := if bad then { r.span with delta := delta } else .reset }
        let s := modCtxAt s k b fun y => noteSregs x { y with mchk := none }
        if bad && !single then
          if bitOf x.live.ckpol.toNat 0 then
            modCtxAt s k b fun x =>
              { x with withheld := x.withheld ++ [.barError (bitsOf x.live.ckpol.toNat 3 20 * 8)] }
          else if x.rerun ≠ .none ∨ x.ckcnt = 15 ∨ (x.ckcnt ≠ 0 ∧ x.pattern = patternOf v) then
            takeTrap s k b ⟨0x09, 5, false, some (BitVec.ofNat 16 pc), (ckresOf v).setWidth 64⟩
          else caliperRetry s k b (patternOf v)
        else s)

/-! ### Events of the array -/

/-- MWLD_BEAT_LAND (R219): the next beat of the core's load is written and its mask bit set; in the checkpoint copy too,
when the load was issued before the last checkpoint: DEDUCED, no rule says which copy it belongs to (log entry 108). -/
def execMwldBeatLand (k : Nat) (s : State) : Out :=
  .next (
    let c := getCore s k
    match c.mwld with
    | none => s
    | some l =>
      let mark := fun r : Regs =>
        let x := getRec r l.plane
        setRec r l.plane { x with mask := x.mask ||| BitVec.ofNat 64 (2 ^ l.beat) }
      let code := (getRec (getCtx c l.ctx).live l.plane).code
      let c := modCtx c l.ctx fun x =>
        { x with live := mark x.live, copy := if l.old then mark x.copy else x.copy }
      match l.data with
      | [] => setCore s k { c with mwld := none }
      | d :: ds =>
        let c := setPlane c l.plane (putBeat code (getPlane c l.plane) l.beat d)
        setCore s k { c with mwld := if ds.isEmpty then none else some { l with beat := l.beat + 1, data := ds } })

/-- ARRAY_INTERLOCK_EXPIRY (R239): the 10 cc after a MAC to a row, or the 1 cc after a BF16 beat, are over. -/
def execArrayInterlockExpiry (k : Nat) (b : Bool) (row : Option Nat) (s : State) : Out :=
  .next (modCtxAt s k b fun x =>
    match row with
    | some r => { x with macBusy := x.macBusy.filter fun n => n != r }
    | none => { x with bf16Busy := false })

/-- MMPB_LOAD_DONE (R224). -/
def execMmpbLoadDone (k : Nat) (b : Bool) (s : State) : Out :=
  .next (modCtxAt s k b fun x => { x with mmpbBusy := false })

end Sys2Proof.Machine
end

