-- ==== Sys2Proof/Machine/LoadStore.lean ====
section
/-!
DEFINITION. The load/store slot (09 R240 to R253): vector and scalar loads and stores, accumulator segments, stream
registers, ring pops and exact-cell reads.
-/
namespace Sys2Proof.Machine

/-! ### Stores -/

/-- The arena of the issuing core holds window address `a` (R67). -/
def inArena (c : Core) (a : Int) : Bool :=
  match c.arena with
  | some b => decide ((b : Int) ≤ a)
  | none => false

/-- The checks of a store: those of every access, and BOUND below the arena base (R67). -/
def storeTrap (s : State) (sp : Space) (a : Int) (n al : Nat) : Option (Nat × Nat) :=
  match accessTrap s sp a n al with
  | some t => some t
  | none => if sp = .win ∧ inArena (curCore s) a = false then some (0x05, addrValI sp a) else none

/-- Store bytes: withheld in stage mode (R99), performed at once in curator mode (R329). -/
def storeBytes (s : State) (sp : Space) (a : Nat) (bs : List Byte) : State :=
  let s := noteBefore s sp a bs.length
  if (curCore s).curator then spWrite s s.cur sp a bs else withhold s (.store sp a bs)

/-- A store with its checks. -/
def doStore (s : State) (sp : Space) (a : Int) (al : Nat) (bs : List Byte) : State :=
  match storeTrap s sp a bs.length al with
  | some (c, v) => raise s c v
  | none => storeBytes s sp a.toNat bs

def spOf (b : Bool) : Space := if b then .win else .spad

/-- x[xa] + sext(off) × scale. -/
def lsAddr {w : Nat} (s : State) (a : BitVec 5) (o : BitVec w) (scale : Nat) : Int :=
  (((rx s a).toNat : Int) + o.toInt * scale) % ((2 ^ 64 : Nat) : Int)

/-! ### Vector and scalar loads and stores (R242 to R245) -/

/-- VLD (R242). -/
def execVld (d : BitVec 5) (k : BitVec 4) (p : BitVec 3) (s : State) : Out :=
  .next (slotOp s (.vld d k p) fun s =>
    let st := getStream s k.toNat
    if !st.loaded || stDir st || (mxOf (stFmt st)).isSome then raise s 0x01 ((encode (.vld d k p)).getD 0)
    else withStRead s k.toNat st 256 64 fun s bs st =>
      sendLong (putStream s k.toNat st) [(vReg d.toNat, leNat bs)] 0 .plain)

/-- VST (R243): a write to a non-resident page is discarded (R72). -/
def execVst (v : BitVec 5) (k : BitVec 4) (e : Bool) (p : BitVec 3) (s : State) : Out :=
  .next (slotOp s (.vst v k e p) fun s =>
    let st := getStream s k.toNat
    if !st.loaded || !stDir st then raise s 0x01 ((encode (.vst v k e p)).getD 0)
    else withStAddr s k.toNat st 0 256 64 fun s a miss st =>
      let s := putStream s k.toNat st
      if miss then s else doStore s (spaceOf (stSpace st)) a 64 (natLe 256 (rv s v)))

/-- VLDA (R244). -/
def execVlda (d : BitVec 5) (a : BitVec 5) (e : Bool) (sp : Bool) (o : BitVec 10) (p : BitVec 3) (s : State) : Out :=
  .next (slotOp s (.vlda d a e sp o p) fun s =>
    withLoad s (spOf sp) (lsAddr s a o 64) 256 64 fun s bs => sendLong s [(vReg d.toNat, leNat bs)] 0 .plain)

/-- VSTA (R244). -/
def execVsta (v : BitVec 5) (a : BitVec 5) (e : Bool) (f : Bool) (sp : Bool) (o : BitVec 10) (p : BitVec 3)
    (s : State) : Out :=
  .next (slotOp s (.vsta v a e f sp o p) fun s => doStore s (spOf sp) (lsAddr s a o 64) 64 (natLe 256 (rv s v)))

/-- LDS (R245). -/
def execLds (d : BitVec 5) (a : BitVec 5) (e : Bool) (sp : Bool) (z : BitVec 2) (g : Bool) (o : BitVec 7) (p : BitVec 3)
    (s : State) : Out :=
  .next (slotOp s (.lds d a e sp z g o p) fun s =>
    let n := 2 ^ z.toNat
    withLoad s (spOf sp) (lsAddr s a o n) n n fun s bs =>
      let v := if g then intMod 64 (sextNat (8 * n) (leNat bs)) else leNat bs
      sendLong s [(xReg d.toNat, v)] 0 .plain)

/-- STS (R245). -/
def execSts (v : BitVec 5) (a : BitVec 5) (e : Bool) (f : Bool) (sp : Bool) (z : BitVec 2) (o : BitVec 7) (p : BitVec 3)
    (s : State) : Out :=
  .next (slotOp s (.sts v a e f sp z o p) fun s =>
    let n := 2 ^ z.toNat
    doStore s (spOf sp) (lsAddr s a o n) n (natLe n (rx s v).toNat))

/-- WAITB (R147): the word is read as a load is. An address both misaligned and out of range reports ALIGN, the lower code
(R85, log entry 32). -/
def execWaitb (d : BitVec 5) (a : BitVec 5) (e : Bool) (b : BitVec 5) (f : Bool) (n : Bool) (p : BitVec 3)
    (s : State) : Out :=
  .next (slotOp s (.waitb d a e b f n p) fun s =>
    withLoad s .spad ((rx s a).toNat : Nat) 8 8 fun s bs =>
      let w := leNat bs
      if bitsOf w 48 16 = (rx s b).toNat % 2 ^ 16 ∧ bitOf w 33 = false then freeze s .waitb
      else toX s 1 d (BitVec.ofNat 64 w))

/-! ### Accumulator segments (R246, R247) -/

/-- A row as it stood before the bundle. -/
def oldRow (s : State) (r : Nat) : AccRow :=
  match s.scr.accOld.find? fun e => e.1 == r with
  | some e => e.2
  | none => accRow (curCore s) r

/-- An earlier bundle's MAC keeps the row busy (R239); one of this bundle does not. -/
def rowBusy (s : State) (r : Nat) : Bool :=
  (actCtx s).macBusy.contains r && !(s.scr.accOld.any fun e => e.1 == r)

/-- ACST (R246). -/
def execAcst (r : BitVec 8) (g : BitVec 4) (a : BitVec 5) (e : Bool) (p : BitVec 3) (s : State) : Out :=
  .next (slotOp s (.acst r g a e p) fun s =>
    match storeTrap s .spad ((rx s a).toNat : Nat) 256 64 with
    | some (c, v) => raise s c v
    | none =>
      if rowBusy s r.toNat || acldOn (actCtx s) r.toNat then freeze s .array
      else withAccRead s r.toNat (64 * g.toNat) 64 fun s =>
        storeBytes s .spad (rx s a).toNat (natLe 256 (packElems 32 (segElems (oldRow s r.toNat) g.toNat))))

/-- ACLD (R247): it clears the fix enable (R234) and counts towards the undo area at issue (R101). -/
def execAcld (r : BitVec 8) (g : BitVec 4) (a : BitVec 5) (e : Bool) (p : BitVec 3) (s : State) : Out :=
  .next (slotOp s (.acld r g a e p) fun s =>
    withLoad s .spad ((rx s a).toNat : Nat) 256 64 fun s bs =>
      if undoOver (actCtx s) [r.toNat] then forceCkpt s
      else
        let s := modAct s fun q => { q with fixEn := false }
        let s := modActCtx s fun x =>
          { x with undoRows := if x.undoRows.contains r.toNat then x.undoRows else x.undoRows ++ [r.toNat] }
        addProducer s (.acld r.toNat g.toNat (BitVec.ofNat 2048 (leNat bs))))

/-! ### Stream registers (R248 to R251) -/

/-- A descriptor that STCFG refuses (R70). -/
def descIllegal (c : Core) (w : Nat) : Bool :=
  let space := bitsOf w 27 2
  let fmt := bitsOf w 29 4
  let ien := bitOf w 283
  bitsOf w 37 3 != 0 || bitsOf w 336 16 != 0 || bitsOf w 403 109 != 0
    || space == 3 || fmt == 15
    || (bitOf w 33 && space != 0 && !(space == 1 && inArena c (bitsOf w 0 27 : Nat)))
    || (ien && (mxOf fmt).isSome)
    || (ien && (decide (bitsOf w 285 5 < 6) || decide (26 < bitsOf w 285 5)))
    || (ien && decide (6 ≤ bitsOf w 280 3))

/-- The indices and miss flag that an STCFG sets: zeros; after a restore, the first STCFG of a stream takes the saved ones
(R248, R415). -/
def firstIndices (s : State) (n : Nat) : List Nat × Bool :=
  let zero := ([0, 0, 0, 0, 0, 0], false)
  if (curCore s).curator ∨ ((actRegs s).st.getD n .reset).loaded then zero
  else match (actCtx s).restored.find? fun r => r.1 == n with
    | some r => r.2
    | none => zero

/-- STCFG (R248). -/
def execStcfg (k : BitVec 4) (a : BitVec 5) (e : Bool) (o : BitVec 10) (p : BitVec 3) (s : State) : Out :=
  .next (slotOp s (.stcfg k a e o p) fun s =>
    withLoad s .spad (lsAddr s a o 64) 64 64 fun s bs =>
      let w := leNat bs
      if descIllegal (curCore s) w then raise s 0x01 ((encode (.stcfg k a e o p)).getD 0)
      else
        let (idx, miss) := firstIndices s k.toNat
        putStream s k.toNat ⟨true, BitVec.ofNat 512 w, idx, miss, none⟩)

/-- STGET (R249). -/
def execStget (d : BitVec 5) (k : BitVec 4) (l : BitVec 3) (p : BitVec 3) (s : State) : Out :=
  .next (slotOp s (.stget d k l p) fun s =>
    let st := (actRegs s).st.getD k.toNat .reset
    toX s 1 d (BitVec.ofNat 64 (if !st.loaded then 0 else if l = 6 then b01 st.miss else nth 0 st.idx l.toNat)))

/-- STSET (R250). -/
def execStset (v : BitVec 5) (k : BitVec 4) (e : Bool) (l : BitVec 3) (p : BitVec 3) (s : State) : Out :=
  .next (slotOp s (.stset v k e l p) fun s =>
    let st := getStream s k.toNat
    if !st.loaded then raise s 0x01 ((encode (.stset v k e l p)).getD 0)
    else if l = 6 then putStream s k.toNat { st with miss := false }
    else if stCount st l.toNat ≤ (rx s v).toNat then raise s 0x05 (Config.indexKval (rx s v)).toNat
    else putStream s k.toNat { st with idx := setNth st.idx l.toNat (rx s v).toNat })

/-- STADV (R251). -/
def execStadv (k : BitVec 4) (l : BitVec 3) (p : BitVec 3) (s : State) : Out :=
  .next (slotOp s (.stadv k l p) fun s =>
    let st := getStream s k.toNat
    if !st.loaded then raise s 0x01 ((encode (.stadv k l p)).getD 0)
    else putStream s k.toNat (advStream st l.toNat))

/-! ### Ring pops and exact cells (R252, R253) -/

/-- RPOP (R252). -/
def execRpop (o : BitVec 3) (p : BitVec 3) (s : State) : Out :=
  .next (slotOp s (.rpop o p) fun s =>
    withHead s o.toNat fun _ _ => modScr s fun q => { q with pops := q.pops ++ [o.toNat] })

/-- The value and flags of a cell read (R58). -/
def cellRead (w : Nat) (xbp : Int) : FRes :=
  let v := roundTo f64 .rne (dyOfInt (sextNat 128 w) xbp)
  let top := bitsOf w 119 9
  (v.1, if top = 0 ∨ top = 511 then v.2 else v.2 ||| fXRANGE)

/-- XRD (R253). -/
def execXrd (d : BitVec 5) (a : BitVec 5) (e : Bool) (o : BitVec 10) (p : BitVec 3) (s : State) : Out :=
  .next (slotOp s (.xrd d a e o p) fun s =>
    withLoad s .spad (lsAddr s a o 16) 16 16 fun s bs =>
      let r := cellRead (leNat bs) (actRegs s).xbp.toInt
      withLateFlags s r.2 fun s => sendLong s [(xReg d.toNat, r.1)] r.2 .float)

end Sys2Proof.Machine
end

