-- ==== Sys2Proof/Machine/Engine.lean ====
section
/-!
DEFINITION. The engine slot (09 R254 to R275): launches of job cards, token sends, tickets, barriers, markers and job
status. In stage mode every launch, send, barrier operation and MARK is withheld until the checkpoint commits (04
R99); in curator mode each takes effect at issue (15 R329).
-/
namespace Sys2Proof.Machine

/-! ### Launches (R254) -/

/-- Launches of a context that have not become jobs: withheld, and released behind effects that have not performed. -/
def launchesHeld (x : Context) : Nat :=
  (x.withheld.filter isLaunch).length + (x.relq.filter fun e => isLaunch e.eff).length

/-- The jobs of stage contexts outstanding on a core, a remote BARA until it is acknowledged among them (R254, R270). -/
def stageJobs (s : State) (k : Nat) : Nat :=
  let c := getCore s k
  (c.jobs.filter fun j => j.owner != .cur).length + launchesHeld c.ctxA + launchesHeld c.ctxB
    + (remoteBaras s k false).length

/-- The curator's jobs outstanding on a core (R329). -/
def curatorJobs (c : Core) : List Job := c.jobs.filter fun j => j.owner == .cur

/-- Footprint-table entries of a job: its valid regions and its card (R80). -/
def jobEntries (j : Job) : Nat := j.regions.length

/-- The engine queue has a free slot for the issuing mode (R254, R329). -/
def queueRoom (s : State) : Bool :=
  if (curCore s).curator then decide ((curatorJobs (curCore s)).length + (remoteBaras s s.cur true).length < 2)
  else decide (stageJobs s s.cur < 8)

/-- No job and no remote barrier arrival of the curator is outstanding on the issuing core. -/
def curatorIdle (s : State) : Bool := (curatorJobs (curCore s)).isEmpty && (remoteBaras s s.cur true).isEmpty

/-- A curator launch: the card is read and the job made at issue (R329), once the core's four curator footprint
entries have room. A launch that alone needs five entries, four regions and the card, is let through when none is in use:
DESIGN CHOICE, the completion that R329 has it await would never come (log entry 142). -/
def curatorLaunch (s : State) (major card : Nat) : State :=
  let j := makeJob s s.cur .cur major card (actRead s .spad card 128)
  let used := ((curatorJobs (curCore s)).map jobEntries).foldl (· + ·) 0
  if used ≠ 0 ∧ 4 < used + jobEntries j then freeze s .footprint else addJob s s.cur j

/-- A launch from a card (R254): the queue slot, then ALIGN and BOUND of the card address. -/
def launchCard (s : State) (major : Nat) (a : BitVec 5) (o : BitVec 9) : State :=
  let C := lsAddr s a o 128
  if queueRoom s = false then freeze s .engineQueue
  else if C % 128 ≠ 0 then raise s 0x04 (addrValI .spad C)
  else if 2 ^ 23 ≤ C then raise s 0x05 (addrValI .spad C)
  else if (curCore s).curator then curatorLaunch s major C.toNat
  else withhold s (.launch major C.toNat none)

/-- CPY (R261). -/
def execCpy (a : BitVec 5) (e : Bool) (o : BitVec 9) (p : BitVec 3) (s : State) : Out :=
  .next (slotOp s (.cpy a e o p) fun s => launchCard s 0x01 a o)

/-- SCA (R262). -/
def execSca (a : BitVec 5) (e : Bool) (o : BitVec 9) (p : BitVec 3) (s : State) : Out :=
  .next (slotOp s (.sca a e o p) fun s => launchCard s 0x02 a o)

/-- FLD (R266). -/
def execFld (a : BitVec 5) (e : Bool) (o : BitVec 9) (p : BitVec 3) (s : State) : Out :=
  .next (slotOp s (.fld a e o p) fun s => launchCard s 0x05 a o)

/-- FST (R266). -/
def execFst (a : BitVec 5) (e : Bool) (o : BitVec 9) (p : BitVec 3) (s : State) : Out :=
  .next (slotOp s (.fst a e o p) fun s => launchCard s 0x06 a o)

/-- FATM (R267). -/
def execFatm (a : BitVec 5) (e : Bool) (o : BitVec 9) (p : BitVec 3) (s : State) : Out :=
  .next (slotOp s (.fatm a e o p) fun s => launchCard s 0x07 a o)

/-- FREP (R268). -/
def execFrep (a : BitVec 5) (e : Bool) (o : BitVec 9) (p : BitVec 3) (s : State) : Out :=
  .next (slotOp s (.frep a e o p) fun s => launchCard s 0x08 a o)

/-- PFXLK (R272). -/
def execPfxlk (a : BitVec 5) (e : Bool) (o : BitVec 9) (p : BitVec 3) (s : State) : Out :=
  .next (slotOp s (.pfxlk a e o p) fun s => launchCard s 0x0B a o)

/-- PFXIN (R272). -/
def execPfxin (a : BitVec 5) (e : Bool) (o : BitVec 9) (p : BitVec 3) (s : State) : Out :=
  .next (slotOp s (.pfxin a e o p) fun s => launchCard s 0x0C a o)

/-- PFXREF (R272). -/
def execPfxref (a : BitVec 5) (e : Bool) (o : BitVec 9) (p : BitVec 3) (s : State) : Out :=
  .next (slotOp s (.pfxref a e o p) fun s => launchCard s 0x0D a o)

/-- PFXAPP (R272). -/
def execPfxapp (a : BitVec 5) (e : Bool) (o : BitVec 9) (p : BitVec 3) (s : State) : Out :=
  .next (slotOp s (.pfxapp a e o p) fun s => launchCard s 0x0E a o)

/-- PFXEV (R272). -/
def execPfxev (a : BitVec 5) (e : Bool) (o : BitVec 9) (p : BitVec 3) (s : State) : Out :=
  .next (slotOp s (.pfxev a e o p) fun s => launchCard s 0x0F a o)

/-- KVMRG (R273). -/
def execKvmrg (a : BitVec 5) (e : Bool) (o : BitVec 9) (p : BitVec 3) (s : State) : Out :=
  .next (slotOp s (.kvmrg a e o p) fun s => launchCard s 0x10 a o)

/-! ### Tokens and tickets (R264, R265) -/

/-- The entries of the ring behind an output port. -/
def outEntries (c : OutCfg) : Nat := 2 ^ c.n

/-- The ticket of a send on a REORDER port (R264): the oldest granted unsent one, else the template's. -/
def withTicket (s : State) (port : Nat) (tmpl : Nat) (body : State → Nat → Bool → State) : State :=
  match (getOut (actCtx s) port).granted with
  | t :: _ => body s t true
  | [] => withLoad s .spad (tmpl + 4 : Nat) 2 2 fun s bs => body s (leNat bs) false

/-- A send on a REORDER port (R16): a consumed ticket traps RINGERR; an inadmissible one freezes the bundle. -/
def sendReorder (s : State) (port ty A len : Nat) (c : OutCfg) : State :=
  withTicket s port A fun s t granted =>
    let o := getOut (actCtx s) port
    let d := ticketDist t o.head
    if 2 ^ 15 ≤ d then raise s 0x10 (ringVal port true 3)
    else if outEntries c ≤ d then freeze s (.ticket port)
    else
      let s' := withhold s (.send port ty A len (some t) none)
      if s'.scr.implicit then s'
      else modActCtx s' fun x => modOut x port fun o =>
        { o with granted := if granted then o.granted.drop 1 else o.granted,
                 used := if granted then o.used ++ [t] else o.used, last := t }

/-- A send on a FIFO port (R15): one credit is reserved. -/
def sendFifo (s : State) (port ty A len : Nat) : State :=
  let o := getOut (actCtx s) port
  if o.credits = 0 then freeze s (.credit port)
  else
    let s' := withhold s (.send port ty A len none none)
    if s'.scr.implicit then s'
    else modActCtx s' fun x => modOut x port fun o =>
      { o with credits := o.credits - 1, reserved := o.reserved + 1 }

/-- The template and the payload of a TSEND are sound where its context's own stores have not replaced them (R394); they are
read when the checkpoint commits, and the error of a word that fails in between is not seen (log entry 140). -/
def withSound (s : State) (a n : Nat) (body : State → State) : State :=
  match actBad s .spad a n with
  | some w => memError s (persistent s w) (memerrVal 0 (w % 2 ^ 23))
  | none => body s

/-- TSEND (R264). -/
def execTsend (t : BitVec 5) (a : BitVec 5) (e : Bool) (b : BitVec 5) (f : Bool) (o : BitVec 3) (p : BitVec 3)
    (s : State) : Out :=
  .next (slotOp s (.tsend t a e b f o p) fun s =>
    let A := (rx s a).toNat
    let len := (rx s b).toNat
    match outCfg (actCtx s) o.toNat with
    | none =>
      if A % 16 ≠ 0 then raise s 0x04 (addrVal .spad A)
      else if 2 ^ 23 < A + 16 + len then raise s 0x05 (addrVal .spad A)
      else raise s 0x10 (ringVal o.toNat true 1)
    | some c =>
      if A % 16 ≠ 0 then raise s 0x04 (addrVal .spad A)
      else if 2 ^ 23 < A + 16 + len then raise s 0x05 (addrVal .spad A)
      else if len % 16 ≠ 0 ∨ len < 64 ∨ c.maxlen < len then raise s 0x10 (ringVal o.toNat true 2)
      else withSound s A (16 + len) fun s =>
        if c.reorder then sendReorder s o.toNat t.toNat A len c else sendFifo s o.toNat t.toNat A len)

/-- TKTG (R265): the destination is claimed; the grant arrives later (R17). One issued behind a MARK of the epoch notes
that it waits until that MARK's commit has forwarded the marker (R274). -/
def execTktg (d : BitVec 5) (o : BitVec 3) (p : BitVec 3) (s : State) : Out :=
  .next (slotOp s (.tktg d o p) fun s =>
    match outCfg (actCtx s) o.toNat with
    | none => raise s 0x10 (ringVal o.toNat true 1)
    | some c =>
      if c.reorder then
        addProducer (claim s [xReg d.toNat]) (.tktg d.toNat o.toNat ((actCtx s).withheld.contains .mark))
      else raise s 0x10 (ringVal o.toNat true 8))

/-! ### Barriers (R269, R270) -/

/-- ALIGN and BOUND of a barrier's scratchpad address (R269). -/
def barrierTrap (A : Nat) : Option (Nat × Nat) :=
  if A % 8 ≠ 0 then some (0x04, addrVal .spad A) else if 2 ^ 23 ≤ A then some (0x05, addrVal .spad A) else none

/-- BARI as it performs (R269). -/
def performBari (s : State) (k A count : Nat) : State :=
  spWrite s k .spad A (natLe 8 (bariWord (leNat (spRead s k .spad A 8)) count))

/-- BARI (R269). -/
def execBari (a : BitVec 5) (e : Bool) (b : BitVec 5) (f : Bool) (p : BitVec 3) (s : State) : Out :=
  .next (slotOp s (.bari a e b f p) fun s =>
    let A := (rx s a).toNat
    let n := rx s b
    if 2 ^ 32 ≤ n.toNat then raise s 0x01 ((encode (.bari a e b f p)).getD 0)
    else match barrierTrap A with
      | some (c, v) => raise s c v
      | none =>
        if queueRoom s = false then freeze s .engineQueue
        else if (curCore s).curator then performBari s s.cur A n.toNat
        else withhold s (.bari A (n.setWidth 32)))

/-- A remote barrier arrival: a write request of 8 bytes whose first bit is the error bit, told from other writes by bit 39
of its offset, which no address of a scratchpad has (log entry 9). An offset beyond the scratchpads stays beyond them. -/
def baraFlit (s : State) (part addr : Nat) (err : Bool) : Flit :=
  let off := bitsOf addr 0 40
  mkReq s 3 part 0 (addr - off + (if off < 2 ^ 27 then 2 ^ 39 + off else 2 ^ 40 - 1)) (natLe 8 (b01 err))

/-- BARA as it performs (R270): at once on a local word; a write request in class 0 to a remote one. -/
def performBara (s : State) (k : Nat) (w : Who) (addr : Word) (err : Bool) : State :=
  if bitOf addr.toNat 63 then
    let c := getCore s k
    let (region, _, _) := launchCtx c w
    let f := baraFlit s (partOf c) (bitsOf addr.toNat 0 56) err
    if routable s f then sendFlit s 0 ⟨0, f, .bara k addr (w == .cur), partOf c, region, 0, k⟩
    else { s with router := { s.router with dropped := s.router.dropped + 1 } }
  else arrive s k addr.toNat err false

/-- A remote barrier address breaks R270. -/
def remoteBarBad (A : Nat) : Bool :=
  bitsOf A 40 4 != 1 || bitsOf A 44 12 == hostChip || bitsOf A 56 7 != 0

/-- ALIGN (R66: a barrier word is aligned to 8) and BOUND (R270) of a barrier's address, remote with bit 63 set. -/
def arrivalTrap (A : Nat) : Option (Nat × Nat) :=
  if bitOf A 63 = false then barrierTrap A
  else if A % 8 ≠ 0 then some (0x04, A)
  else if remoteBarBad A then some (0x05, A) else none

/-- BARA (R270). A curator BARA releases the curator's earlier jobs and remote arrivals, so it waits for them (R329,
R292). -/
def execBara (a : BitVec 5) (e : Bool) (r : Bool) (p : BitVec 3) (s : State) : Out :=
  .next (slotOp s (.bara a e r p) fun s =>
    match arrivalTrap (rx s a).toNat with
    | some (c, v) => raise s c v
    | none =>
      if (curCore s).curator then
        (if curatorIdle s then performBara s s.cur .cur (rx s a) r else freeze s .jobs)
      else if queueRoom s = false then freeze s .engineQueue
      else withhold s (.bara (rx s a) r))

/-! ### Markers and job status (R274, R275) -/

/-- A FIFO output port of the context holds no credit. -/
def noCredit (x : Context) : Option Nat :=
  (x.cfg.outs.find? fun e => !e.2.reorder && (getOut x e.1).credits == 0).map (·.1)

/-- A REORDER output port holds a granted ticket that no TSEND has taken. -/
def heldTicket (x : Context) : Option Nat :=
  (x.cfg.outs.find? fun e => e.2.reorder && !(getOut x e.1).granted.isEmpty).map (·.1)

/-- Reserve a credit on every FIFO output port. -/
def reserveAll (x : Context) : Context :=
  x.cfg.outs.foldl (fun x e => if e.2.reorder then x
    else modOut x e.1 fun o => { o with credits := o.credits - 1, reserved := o.reserved + 1 }) x

/-- MARK (R274). -/
def execMark (p : BitVec 3) (s : State) : Out :=
  .next (slotOp s (.mark p) fun s =>
    let x := actCtx s
    let ms := membersOf s s.cur (runCtx (curCore s))
    match ctlPorts x ++ ms.flatMap fun e => ctlPorts (ctxAt s e.1 e.2) with
    | i :: _ => raise s 0x10 (ringVal i.1 false 7)
    | [] =>
      match noCredit x with
      | some o => freeze s (.credit o)
      | none =>
        match heldTicket x with
        | some o => freeze s (.ticket o)
        | none =>
          let s' := withhold s .mark
          if s'.scr.implicit then s' else modActCtx s' reserveAll)

/-- A released launch of the card at `C` that a FENCE holds: its status is not yet cleared. -/
def launchesCard (C : Nat) : Effect → Bool
  | .launch _ card _ => card == C
  | _ => false

/-- The status field of a card, with its errors (R394). -/
def withStatus (s : State) (C : Nat) (body : State → Nat → State) : State :=
  let a := spaceKey s.cur .spad (C + 4)
  match badWord s a 2 with
  | some w => memError s (persistent s w) (memerrVal 0 (w % 2 ^ 23))
  | none => body (countFixed s a 2) (leNat (actRead s .spad (C + 4) 2))

/-- JSTAT (R275), latency 6. It does not wait for the job whose card it reads, but for the context's own released writes
(R279) and for the launch of the card, which clears its status. -/
def execJstat (d : BitVec 3) (a : BitVec 5) (e : Bool) (p : BitVec 3) (s : State) : Out :=
  .next (slotOp s (.jstat d a e p) fun s =>
    let C := (rx s a).toNat
    if C % 128 ≠ 0 then raise s 0x04 (addrVal .spad C)
    else if 2 ^ 23 ≤ C then raise s 0x05 (addrVal .spad C)
    else if !(curCore s).curator && (actCtx s).relq.any (fun e => ownWrite e.eff || launchesCard C e.eff) then
      freeze s .jobOverlap
    else
      withStatus s C fun s st => toQ s 6 d (bitOf st 0 || bitOf st 6))

end Sys2Proof.Machine
end

