-- ==== Sys2Proof/Machine/Port.lean ====
section
/-!
DEFINITION. The port hardware: tokens landing in rings (03 R73 to R75, 19 R421, R431, R432), credits and head notices
(01 R15, R16), and control tokens with their actions (01 R18, R20, R24; 18 R403 to R407).
-/
namespace Sys2Proof.Machine

/-! ### Contexts by place -/

/-- No member of the stage has an input port that control tokens concern (R24, R311). -/
def portless (s : State) (ms : List (Nat × Bool)) : Bool := ms.all fun e => (ctlPorts (ctxAt s e.1 e.2)).isEmpty

/-- A stage whose every output port is absent or an egress port (R24, R404). -/
def isSink (s : State) (ms : List (Nat × Bool)) : Bool :=
  ms.all fun e => (ctxAt s e.1 e.2).cfg.outs.all fun o => o.2.egress

/-- The context's own port address. -/
def portAt (s : State) (k : Nat) (b : Bool) (p : Nat) : PortAddr := ⟨s.chip, k, b, p⟩

/-! ### Arrival (R73, R12, R16, R18) -/

/-- A token's bytes enter entry `slot` of a ring, and then its length word (R73). -/
def writeEntry (s : State) (k : Nat) (c : RingCfg) (slot : Nat) (t : Token) : State :=
  let s := spWrite s k .spad (entryAddr c slot) (headerBytes t ++ t.payload)
  spWrite s k .spad (lenArray c + 2 * slot) (natLe 2 (t.payload.length / 16))

/-- The producer that a token's header names: its chip, its core and its source port. -/
def tokenProducer (schip core : Nat) (t : Token) : PortAddr := ⟨schip, core, t.source / 128 == 1, t.source % 8⟩

/-- Of several producers, the first with the fewest control tokens in its record. -/
def leastHeld (ctl : List CtlRec) : List PortAddr → Option PortAddr
  | [] => none
  | q :: l =>
    let held : PortAddr → Nat := fun a => (ctl.filter fun r => r.producer == a).length
    match leastHeld ctl l with
    | none => some q
    | some a => if held q ≤ held a then some q else some a

/-- The producer of a REORDER ring that sent a token: the bound one that its chip, its source port and, on this package,
its core name. Of producers of another package that differ in their core alone, which no header tells, control tokens
are taken to come in turn (log entry 10). -/
def boundProducer (c : RingCfg) (i : PortIn) (schip : Nat) (core : Option Nat) (t : Token) : PortAddr :=
  let l := c.producers.filter fun q => q.chip == schip && b01 q.ctx * 128 + q.port == t.source
    && (core.isNone || core == some q.core)
  (leastHeld i.ctl l).getD (tokenProducer schip 0 t)

/-- A region error of class RINGERR at a receiving port (R12, R16). -/
def ringError (s : State) (k : Nat) (b : Bool) : State :=
  raiseRegion s (partOf (getCore s k)) (ctxAt s k b).region 0x10 k

/-- A program-visible token lands in a ring. -/
def landToken (s : State) (k : Nat) (b : Bool) (p : Nat) (c : RingCfg) (schip : Nat) (core : Option Nat) (t : Token) :
    State :=
  let i := getIn (ctxAt s k b) p
  let q := portBits (if c.cow then tokenProducer schip 0 t else boundProducer c i schip core t)
  let mk : Nat → RingTok := fun slot => ⟨slot, t.ticket, t.seq, t.type, t.tag, t.payload.length, q⟩
  if c.reorder then
    let slot := t.ticket % 2 ^ c.n
    if 2 ^ 15 ≤ ticketDist t.ticket i.head ∨ i.toks.any (fun u => u.slot == slot) then ringError s k b
    else
      let top := (t.ticket + 1) % 65536
      let hi := match tabGet none i.highest q with
        | some h => if beyondHead top i.head < beyondHead h i.head then h else top
        | none => top
      modCtxAt (writeEntry s k c slot t) k b fun x => modIn x p fun i =>
        { i with toks := i.toks ++ [mk slot], highest := tabSet none i.highest q (some hi) }
  else
    let slot := i.tail % 2 ^ c.n
    modCtxAt (writeEntry s k c slot t) k b fun x => modIn x p fun i =>
      { i with toks := i.toks ++ [mk slot], tail := i.tail + 1 }

/-- A control token reaches a port: behind the tokens of a FIFO ring, where it takes no entry (log entry 10); into the
control record of its producer at a REORDER ring (R18). -/
def landControl (s : State) (k : Nat) (b : Bool) (p : Nat) (c : RingCfg) (schip : Nat) (core : Option Nat) (t : Token) :
    State :=
  modCtxAt s k b fun x => modIn x p fun i =>
    if c.reorder then
      let q := boundProducer c i schip core t
      let m := (tabGet none i.highest (portBits q)).getD i.head
      { i with ctl := i.ctl ++ [⟨q, t.type, t.tag, t.seq, m⟩] }
    else { i with toks := i.toks ++ [⟨0, 0, t.seq, t.type, t.tag, 0, portBits (boundProducer c i schip core t)⟩] }

/-- A token is discarded and counted. -/
def dropToken (s : State) : State := { s with router := { s.router with dropped := s.router.dropped + 1 } }

/-- `n` credits reach the producer of a FIFO ring whose consumer is `cons`. -/
def giveCredit (s : State) (part : Nat) (cons prod : PortAddr) (cow : Bool) (n : Nat) : State :=
  if cow then
    if s.engines.any fun e => e.part == part then
      { s with engines := s.engines.map fun e => if e.part = part then { e with ports := e.ports.map fun c =>
          if c.port = cons then { c with credits := c.credits + n } else c } else e }
    else match findPart s part with
      | some p => match p.params.tree with
        | some (chip, _) => sendCtl s chip (.credit cons n)
        | none => s
      | none => s
  else if prod.chip = hostChip then
    { s with regions := s.regions.map fun r => { r with ingress := r.ingress.map fun i =>
        if i.port = cons then { i with credits := i.credits + n } else i } }
  else if prod.chip = s.chip then
    modCtxAt s prod.core prod.ctx fun x => modOut x prod.port fun o => { o with credits := o.credits + n }
  else sendCtl s prod.chip (.credit prod n)

/-- A cow token for a drained or empty context is discarded and counted (R311). DESIGN CHOICE, R311 does not say: its credit
goes back to the engine, as R75's balance has it (log entry 148). -/
def dropCow (s : State) (k : Nat) (b : Bool) (p : Nat) : State :=
  giveCredit (dropToken s) (partOf (getCore s k)) (portAt s k b p) ⟨hostChip, 0, false, 0⟩ true 1

/-- A whole token arrives at an input port (R12). -/
def arriveToken (s : State) (k : Nat) (b : Bool) (p : Nat) (schip : Nat) (core : Option Nat) (t : Token) : State :=
  match ringCfg (ctxAt s k b) p with
  | none => if t.type = 5 then dropCow s k b p else dropToken s
  | some c =>
    if t.type = 0 ∨ 7 ≤ t.type then ringError s k b
    else if c.cow ∧ ((ctxAt s k b).status = .drained ∨ (ctxAt s k b).status = .empty) then dropCow s k b p
    else if isControl t.type then landControl s k b p c schip core t
    else landToken s k b p c schip core t

/-! ### Streams at the target (R432) -/

def findRx (s : State) (schip lane : Nat) : RxStream :=
  (s.router.rx.find? fun r => r.schip == schip && r.lane == lane).getD ⟨schip, lane, 0, [], []⟩

def putRx (s : State) (r : RxStream) : State :=
  { s with router := { s.router with rx :=
      (s.router.rx.filter fun u => !(u.schip == r.schip && u.lane == r.lane)) ++ [r] } }

/-- The stream of a flit at its target: lane 16 for token flits, its ordering class for requests (R431); those for the
host tier have streams of their own. -/
def flitLane (f : Flit) : Nat :=
  if f.type = 1 ∨ f.type = 2 then tokenLane
  else bitsOf f.route.toNat 0 4 + (if f.dchip = hostChip then 32 else 0)

/-- What the target does with a flit of a stream. -/
inductive RxAct where
  | perform
  | hold
  | again (type code : Nat) (payload : List Byte)
  | drop
  deriving DecidableEq, Repr

def rxAct (r : RxStream) (seq : Nat) : RxAct :=
  let d := (seq + 2 ^ 32 - r.expected % 2 ^ 32) % 2 ^ 32
  if d = 0 then .perform
  else if d < 1024 then .hold
  else match r.filter.find? fun e => e.1 == seq with
    | some e => .again e.2.1 e.2.2.1 e.2.2.2
    | none => .drop

/-- A flit has performed: the filter of the last 1024 keeps it with its reply. -/
def rxDone (s : State) (f : Flit) (type code : Nat) (payload : List Byte) : State :=
  let r := findRx s f.schip (flitLane f)
  let fl := r.filter ++ [(f.seq, type, code, payload)]
  putRx s { r with expected := (r.expected + 1) % 2 ^ 32, filter := fl.drop (fl.length - 1024) }

/-- A held flit that is now in order goes back among the arrivals. -/
def rxNext (s : State) (schip lane : Nat) : State :=
  let r := findRx s schip lane
  match r.held.find? fun f => f.seq == r.expected with
  | none => s
  | some f =>
    let s := putRx s { r with held := r.held.filter fun g => g.seq != f.seq }
    { s with router := { s.router with arrived := ⟨146, f, f.cls⟩ :: s.router.arrived } }

/-- The acknowledgement of a write or token flit. -/
def ackFlit (s : State) (f : Flit) : State := sendReply s f 8 0 []

/-! ### Tokens as flits (R421, R360) -/

/-- The type in a token's header, in the first flit of the token. -/
def headerType (f : Flit) : Nat := leNat ((f.payload.drop 6).take 1)

/-- The port's context has not been applied yet: its slot is reserved for a launch, and the flit is held at the router
(R360). -/
def notApplied (s : State) (f : Flit) : Bool :=
  let p := tokenPort f
  partOf (getCore s p.core) == f.partition && (ctxAt s p.core p.ctx).status == .reserved

/-- The router may deliver the flit now: a token flit once its port's context has been applied (R360). -/
def mayDeliver (s : State) (f : Flit) : Bool := !((f.type == 1 || f.type == 2) && notApplied s f)

/-- Take a flit of the given types from the arrivals: the oldest that the slot of its output gives (R423, R425). -/
def takeFlit (s : State) (types : List Nat) : Option (Flit × State) :=
  match s.router.arrived.find? fun w => types.contains w.flit.type
      && localPick s (flitOut w.flit) (mayDeliver s) == some w with
  | none => none
  | some w =>
    let s := { s with router := { s.router with arrived := s.router.arrived.erase w } }
    some (w.flit, freeEntry (if w.inp = 146 then s else passSlot s (flitOut w.flit)) w)

/-- A flit for storage of this package whose partition holds no core here is discarded (R435). -/
def partHere (s : State) (f : Flit) : Bool :=
  f.partition == 0 || f.dchip == hostChip || s.cores.any fun c => partOf c == f.partition

/-- The flits of a whole token. -/
def tokenUnits (f : Flit) : Nat := bitsOf f.route.toNat 20 9

/-- Token flits of one token at a target, joined: the token once its last flit is here. -/
def joinToken (fs : List Flit) : Option Token :=
  match fs with
  | [] => none
  | f :: _ =>
    let bs := fs.flatMap fun g => g.payload
    let n := tokenUnits f * 16
    if bs.length < n then none else some (tokenOf (leNat (bs.take 16)) ((bs.take n).drop 16))

/-- The core of this package that sent a token flit. -/
def sentBy (s : State) (f : Flit) : Option Nat :=
  if f.schip = s.chip then ((findTx s s.chip tokenLane).opens.find? fun o => o.seq == f.seq).map (·.core) else none

/-- A token flit performs: it joins the fragments of its token. A whole token lands, and then each of its flits is
acknowledged (R431). -/
def performToken (s : State) (f : Flit) : State :=
  let p := tokenPort f
  let old := (s.router.frags.find? fun g => g.schip == f.schip && g.port == p).map (·.flits)
  let fs := if f.type = 1 then [f] else old.getD [] ++ [f]
  let rest := s.router.frags.filter fun g => !(g.schip == f.schip && g.port == p)
  match joinToken fs with
  | none => { s with router := { s.router with frags := rest ++ [⟨f.schip, p, fs⟩] } }
  | some t =>
    let s := { s with router := { s.router with frags := rest } }
    let cow := ((ringCfg (ctxAt s p.core p.ctx) p.port).map (·.cow)).getD false
    let s := if cow then s
      else modRegion s f.partition (ctxAt s p.core p.ctx).region fun r => { r with recv := r.recv + 1 }
    fs.foldl ackFlit (arriveToken s p.core p.ctx p.port f.schip (sentBy s f) t)

/-- The token that a flit belongs to has not wholly arrived: none of its flits has been acknowledged. -/
def inFragment (s : State) (f : Flit) : Bool :=
  s.router.frags.any fun g => g.schip == f.schip && g.flits.any fun h => h.seq == f.seq

/-- The port that a token flit names is configured (R25), or its token is a cow token for an empty context, which R311
discards: one flit. -/
def portConfigured (s : State) (f : Flit) : Bool :=
  let p := tokenPort f
  let x := ctxAt s p.core p.ctx
  (x.status == .empty && f.type == 1 && headerType f == 5) || (ringCfg x p.port).isSome

/-- The token flit comes from a package that the region of its port has lost: the segment that it belongs to is to be
replayed (R477, R480). -/
def fromLost (s : State) (f : Flit) : Bool :=
  let p := tokenPort f
  match findRegion s f.partition (ctxAt s p.core p.ctx).region with
  | some r => r.lost.contains f.schip
  | none => false

/-- A token flit in order at its target: the partition check (R435), the port's (R25), then its effect. One from a lost
package is discarded. -/
def serveToken (s : State) (f : Flit) : State :=
  let k := (tokenPort f).core
  if partOf (getCore s k) ≠ f.partition then ackFlit (postFault (rxDone s f 8 0 []) k (mismatchRecord k f)) f
  else if fromLost s f then ackFlit (rxDone s f 8 0 []) f
  else if portConfigured s f = false then sendReply (rxDone s f 9 5 []) f 9 5 []
  else performToken (rxDone s f 8 0 []) f

/-- A token flit at its target: order and duplicates (R432). -/
def tokenFlit (s : State) (type : Nat) : State :=
  match takeFlit s [type] with
  | none => s
  | some (f, s) =>
    if partHere s f = false then discardFlit s f
    else match rxAct (findRx s f.schip tokenLane) f.seq with
    | .hold =>
      let r := findRx s f.schip tokenLane
      putRx s { r with held := if r.held.any fun g => g.seq == f.seq then r.held else r.held ++ [f] }
    | .again 9 c _ => sendReply s f 9 c []
    | .again _ _ _ => if inFragment s f then s else ackFlit s f
    | .drop => discardFlit s f
    | .perform => rxNext (serveToken s f) f.schip tokenLane

/-- TOKEN_FIRST_FLIT (R421). -/
def execTokenFirstFlit (s : State) : Out := .next (tokenFlit s 1)

/-- TOKEN_CONTINUATION_FLIT (R421). -/
def execTokenContinuationFlit (s : State) : Out := .next (tokenFlit s 2)

/-! ### Credits and head notices (R15, R16, R361) -/

/-- A REORDER consumer's head reaches a producer. -/
def giveHead (s : State) (prod : PortAddr) (h : Nat) : State :=
  if prod.chip = s.chip then modCtxAt s prod.core prod.ctx fun x => modOut x prod.port fun o => { o with head := h }
  else sendCtl s prod.chip (.head prod h)

/-- A released TSEND whose payload has not been read (R264): the entries popped since then stay the context's own. -/
def sendUnread (x : Context) : Bool :=
  x.relq.any fun r => match r.eff with
    | .send _ _ _ _ _ none => true
    | _ => false

/-- The first input port that owes its producer something. -/
def owingPort (s : State) (f : PortIn → Bool) : Option (Nat × Bool × Nat × RingCfg) :=
  (allCtx.flatMap fun e => (ctxAt s e.1 e.2).cfg.ins.map fun i => (e.1, e.2, i.1, i.2)).find? fun q =>
    f (getIn (ctxAt s q.1 q.2.1) q.2.2.1) && !sendUnread (ctxAt s q.1 q.2.1)

/-- Credits arrive from another package for a producer here, or for a cow port of a prefix engine here. -/
def creditFrom (s : State) (p : PortAddr) (n : Nat) : State :=
  if s.engines.any (fun e => e.ports.any fun c => c.port == p) then
    { s with engines := s.engines.map fun e => { e with ports := e.ports.map fun c =>
        if c.port = p then { c with credits := c.credits + n } else c } }
  else modCtxAt s p.core p.ctx fun x => modOut x p.port fun o => { o with credits := o.credits + n }

/-- CREDIT_RETURN (R15): of the next port of this package that owes one, or from another package. -/
def execCreditReturn (m : Option (PortAddr × Nat)) (s : State) : Out :=
  .next (
    match m with
    | some (p, n) => creditFrom s p n
    | none =>
      match owingPort s fun i => i.owed != 0 with
      | none => s
      | some (k, b, p, c) =>
        let n := (getIn (ctxAt s k b) p).owed
        let s := modCtxAt s k b fun x => modIn x p fun i => { i with owed := 0 }
        match c.producers, c.reorder with
        | q :: _, false => giveCredit s (partOf (getCore s k)) (portAt s k b p) q c.cow n
        | _, _ => giveCredit s (partOf (getCore s k)) (portAt s k b p) ⟨hostChip, 0, false, 0⟩ c.cow n)

/-- HEAD_ADVANCE_NOTICE (R16). -/
def execHeadAdvanceNotice (m : Option (PortAddr × Nat)) (s : State) : Out :=
  .next (
    match m with
    | some (p, h) => modCtxAt s p.core p.ctx fun x => modOut x p.port fun o => { o with head := h % 65536 }
    | none =>
      match owingPort s fun i => i.notice with
      | none => s
      | some (k, b, p, c) =>
        let h := (getIn (ctxAt s k b) p).head
        let s := modCtxAt s k b fun x => modIn x p fun i => { i with notice := false }
        (c.producers.filter fun q => q.chip != hostChip).foldl (fun s q => giveHead s q h) s)

/-! ### Sending from an output port -/

/-- The first marker behind a held token of egress port `p` names its wave (R407). -/
def egressMark (p : PortAddr) (w : Nat) (e : EgressTok) : EgressTok :=
  if e.port = p ∧ e.wave = none then { e with wave := some w } else e

/-- A token leaves output port `p`: to the egress store of the package, or on its way to the consumer's ring. A control
token at an egress port is absorbed (R476). -/
def sendOut (s : State) (k : Nat) (b : Bool) (p : Nat) (c : OutCfg) (t : Token) : State :=
  let x := ctxAt s k b
  let part := partOf (getCore s k)
  if c.egress then
    if isControl t.type then
      if t.type = 2 then
        (modRegion s part x.region fun r =>
          { r with egress := r.egress.map (egressMark (portAt s k b p) (t.tag.toNat % 2 ^ 32)) })
      else s
    else modRegion s part x.region fun r => { r with egress := r.egress ++ [⟨portAt s k b p, t, none⟩] }
  else
    let s := modRegion s part x.region fun r => { r with sent := r.sent + 1 }
    sendToken s part x.region k c.peer t

/-- The source port byte of a header (R13). -/
def sourceByte (b : Bool) (p : Nat) : Nat := b01 b * 128 + p

/-- A control token: a token of the least length, whose payload the spec does not give (R12, log entry 10). -/
def bareToken (seq type source : Nat) (tag : Word) : Token :=
  ⟨seq, 0, type, source, tag, natLe 64 (Config.controlPayload type).toNat⟩

/-- A control token of an output port: it carries the count without advancing it (R13). -/
def ctlToken (x : Context) (b : Bool) (p type : Nat) (tag : Word) : Token :=
  bareToken (getOut x p).seq type (sourceByte b p) tag

/-- Every output port of the context can forward a control token now (R18, R404): a credit on each FIFO port and on each
egress port, whose endpoint returns it at once (R476), no
granted unsent ticket on a REORDER port. `held`: the credits were reserved by a MARK. -/
def canForward (x : Context) (held : Bool) : Bool :=
  x.cfg.outs.all fun e =>
    if e.2.reorder then (getOut x e.1).granted.isEmpty && (getOut x e.1).used.isEmpty
    else held || (getOut x e.1).credits != 0

/-- Forward a control token on every output port. -/
def forwardCtl (s : State) (k : Nat) (b : Bool) (type : Nat) (tag : Word) (held : Bool) : State :=
  (ctxAt s k b).cfg.outs.foldl (fun s e =>
    let t := ctlToken (ctxAt s k b) b e.1 type tag
    let s := if e.2.reorder ∨ e.2.egress ∨ held then s
      else modCtxAt s k b fun x => modOut x e.1 fun o => { o with credits := o.credits - 1 }
    let s := if e.2.egress ∧ held ∧ e.2.reorder = false then
        (modCtxAt s k b fun x => modOut x e.1 fun o => { o with credits := o.credits + 1 }) else s
    sendOut s k b e.1 e.2 t) s

/-! ### Control tokens at the head (R18, R20) -/

/-- The control token that stands at the head of an input port: its type and tag. -/
def ctlHead (c : RingCfg) (p : PortIn) : Option (Nat × Word) :=
  if c.reorder then
    let fs := ctlFirsts p.ctl
    match fs with
    | [] => none
    | r :: _ =>
      if c.producers.all (fun q => fs.any fun e => e.producer == q)
          && fs.all (fun e => beyondHead e.bound (liveHead p) == 0) then some (r.type, r.tag) else none
  else match p.toks.drop p.popped with
    | t :: _ => if isControl t.type then some (t.type, t.tag) else none
    | [] => none

/-- Pop the control token at the head of an input port. -/
def popCtl (c : RingCfg) (p : PortIn) : PortIn :=
  if c.reorder then
    { p with ctl := (ctlFirsts p.ctl).foldl (fun l e => l.erase e) p.ctl }
  else { p with toks := p.toks.eraseIdx p.popped, owed := p.owed + 1 }

def popCtls (x : Context) : Context :=
  (ctlPorts x).foldl (fun x e => modIn x e.1 (popCtl e.2)) x

/-- The tag of the control token of type `type` when one stands at the head of every input port of the stage. -/
def atHeads (s : State) (ms : List (Nat × Bool)) (type : Nat) : Option Word :=
  let hs := ms.flatMap fun e =>
    let x := ctxAt s e.1 e.2
    (ctlPorts x).map fun q => ctlHead q.2 (getIn x q.1)
  match hs with
  | some (ty, tag) :: _ => if ty = type ∧ hs.all (fun h => h.map (·.1) == some type) then some tag else none
  | _ => none

/-- No member runs and no firing of the stage is open. -/
def quietStage (s : State) (ms : List (Nat × Bool)) : Bool :=
  ms.all fun e =>
    let x := ctxAt s e.1 e.2
    x.status != .running && x.status != .preempted && !x.firing && !x.memberDone && x.stopped.isNone

/-- A token that the core has sent for a region has not been acknowledged: its ring bytes are not written (R431). -/
def tokenOpen (s : State) (k region : Nat) : Bool :=
  s.router.tx.any fun t => (t.opens ++ t.queue).any fun o => o.who == .token && o.core == k && o.region == region

/-- A job of core `k`, launched by whomever, or a launch that a FENCE holds, writes a state-map window of the context
(R289, R280). -/
def windowBusy (s : State) (k : Nat) (x : Context) : Bool :=
  let rs := ((getCore s k).jobs.flatMap (·.regions)) ++ (heldRegions s k).map (·.2)
  x.cfg.stateMap.any fun w => rs.any fun r => r.write && fpOverlap r w.space w.base w.len

/-- What a snapshot of context `b` waits for beside the effects before it (R288, R289): every job that writes a state-map
window, the remote barrier arrivals, and the region's tokens. -/
def outsideBusy (s : State) (k : Nat) (b : Bool) : Bool :=
  let x := ctxAt s k b
  windowBusy s k x || baraOpen s k false (fun _ => true) || tokenOpen s k x.region

/-- Every job of the context has completed and every effect of its committed epochs has performed at region scope
(R288, R289); with them, every job that writes a state-map window of it (R289). -/
def settled (s : State) (k : Nat) (b : Bool) : Bool :=
  let c := getCore s k
  let x := getCtx c b
  x.relq.isEmpty && !(c.jobs.any fun j => ownJob b j) && !outsideBusy s k b

/-- A member arms or becomes staged (R359, R363), with cfgdone on every output port (R24). -/
def armCtx (s : State) (k : Nat) (b : Bool) : State :=
  let s := forwardCtl s k b 4 0 false
  modCtxAt s k b fun x => { x with status := if x.cfg.staged then .staged else .armed }

/-- A stage arms: every member does, and a sink reports (R24). -/
def armStage (s : State) (ms : List (Nat × Bool)) : State :=
  let t := ms.foldl (fun s e => armCtx s e.1 e.2) s
  match ms with
  | (k, b) :: _ =>
    if isSink s ms then sendAll t (.sinkReady (partOf (getCore s k)) (ctxAt s k b).region (ctxAt s k b).cfg.stage) else t
  | [] => t

/-- The tree home knows every cow port of the context (R306, R327): a stage arms only then. -/
def cowsBound (x : Context) : Bool := x.cfg.ins.all fun e => !e.2.cow || (getIn x e.1).bound

/-- CFGDONE_ACTION (R24): cfgdone at every input port arms the stage. -/
def execCfgdoneAction (k : Nat) (b : Bool) (s : State) : Out :=
  .next (
    let ms := membersOf s k b
    if !(ms.all fun e => (ctxAt s e.1 e.2).status == .configured && canForward (ctxAt s e.1 e.2) false
        && cowsBound (ctxAt s e.1 e.2)) then s
    else match atHeads s ms 4 with
      | none => s
      | some _ =>
        let s := armStage (ms.foldl (fun s e => modCtxAt s e.1 e.2 popCtls) s) ms
        progress s (partOf (getCore s k)) (ctxAt s k b).region)

/-- The drain that a stage acts on: one at the head of every input port, or, in a stage with no input ports, the one that
the region's sources inject (R20). -/
def drainAt (s : State) (k : Nat) (b : Bool) (ms : List (Nat × Bool)) : Option Word :=
  if portless s ms then
    match findRegion s (partOf (getCore s k)) (ctxAt s k b).region with
    | some r => if r.drains && ms.all (fun e => (ctxAt s e.1 e.2).status != .drained) then some 0 else none
    | none => none
  else atHeads s ms 3

/-- DRAIN_ACTION (R20): the drains are forwarded and popped, and the context is disarmed. -/
def execDrainAction (k : Nat) (b : Bool) (s : State) : Out :=
  .next (
    let ms := membersOf s k b
    if !(quietStage s ms && ms.all (fun e => settled s e.1 e.2 && canForward (ctxAt s e.1 e.2) false)) then s
    else match drainAt s k b ms with
      | none => s
      | some tag =>
        let s := ms.foldl (fun s e =>
          let s := forwardCtl s e.1 e.2 3 tag false
          modCtxAt s e.1 e.2 fun x => { popCtls x with status := .drained }) s
        progress s (partOf (getCore s k)) (ctxAt s k b).region)

/-! ### Marker actions (R404 to R406) -/

/-- The counts and weights of the rate-checked ports of a context (R405). -/
def ratePorts (x : Context) : List (Nat × Nat) :=
  x.cfg.weights.filterMap fun e =>
    if e.1.1 = false ∧ (x.cfg.ins.any fun i => i.1 == e.1.2 && i.2.cow) then none
    else some (if e.1.1 then (getOut x e.1.2).rate else (getIn x e.1.2).rate, e.2)

/-- RATE_CHECK (R405). -/
def rateOk (l : List (Nat × Nat)) : Bool := l.all fun p => l.all fun q => p.1 * q.2 == q.1 * p.2

/-- The size of a snapshot half (R483). -/
def snapSize (g : StageCfg) : Nat :=
  0x10000 + (if g.evq.isSome then 4096 else 0) + (g.stateMap.map fun w => roundUp w.len 64).foldl (· + ·) 0

/-- The bytes of the state-map windows, in declared order. -/
def winBytes (s : State) (k : Nat) (g : StageCfg) : List (List Byte) :=
  g.stateMap.map fun w => spRead s k w.space w.base w.len

/-- What a snapshot keeps of a context (R406). -/
def snapOf (s : State) (k : Nat) (b : Bool) (wave : Nat) : Snap :=
  let x := ctxAt s k b
  { wave := wave, regs := x.live, ctol := x.ctol, ins := x.ins, outs := x.outs, evHead := x.evHead, evTail := x.evTail,
    evq := match x.cfg.evq with
      | some a => spRead s k .spad a 4096
      | none => [],
    wins := winBytes s k x.cfg }

/-- The 64-byte header of a snapshot half (R406). -/
def snapHeader (wave stage : Nat) : List Byte := natLe 64 (wave % 2 ^ 32 + stage % 2 ^ 16 * 2 ^ 32 + 2 ^ 48)

end Sys2Proof.Machine

namespace Sys2Proof.Config

/-- The body of a snapshot half: its layout is private to the HL4 (R406, log entry 11). -/
opaque snapBody : Sys2Proof.Machine.Snap → List Byte

/-- The snapshot that a body in that layout holds, as a mirror area brings it (R458, log entry 11). -/
opaque snapRead : List Byte → Option Sys2Proof.Machine.Snap

end Sys2Proof.Config

namespace Sys2Proof.Machine

/-- SNAPSHOT: wave `w`'s half of the context's area is written, its header last. -/
def writeSnap (s : State) (k : Nat) (b : Bool) (wave : Nat) : State :=
  let x := ctxAt s k b
  let n := snapOf s k b wave
  let h := wave % 2 == 1
  let s := modCtxAt s k b fun x => { x with snaps := (x.snaps.filter fun e => e.1 != h) ++ [(h, n)] }
  match x.cfg.snap with
  | none => s
  | some a =>
    let base := a.base + (wave % 2) * snapSize x.cfg
    let s := spWrite s k a.space (base + 64) (fitBytes (snapSize x.cfg - 64) (Config.snapBody n))
    spWrite s k a.space base (snapHeader wave x.cfg.stage)

/-- The fabric address of a byte of a core's own storage (R81, R82): window bytes of the arena in region 2. -/
def ownFabric (chip k : Nat) (sp : Space) (a : Nat) : Nat :=
  match sp with
  | .spad => chip * 2 ^ 44 + 2 ^ 40 + k * 2 ^ 23 + a
  | .win => chip * 2 ^ 44 + 2 * 2 ^ 40 + k * 2 ^ 27 + a

/-- Write requests of 8 to 224 bytes for a run of bytes (R420). -/
def writeRun (s : State) (part region k cls addr : Nat) (who : Waiter) : Nat → List Byte → State
  | 0, _ => s
  | n + 1, bs =>
    if bs.isEmpty then s
    else
      let m := flitLen addr bs.length
      writeRun (sendReq s 3 part region k cls addr (bs.take m) who) part region k cls (addr + m) who n (bs.drop m)

/-- SNAPSHOT_MIRROR_COPY (R458): the half goes to the mirror area of the fallback package, its header with the valid bit
last. To a package declared lost nothing goes (R477, log entry 147). -/
def mirrorSnap (s : State) (k : Nat) (b : Bool) (wave : Nat) : State :=
  let x := ctxAt s k b
  match x.cfg.fallback, x.cfg.snap with
  | some (chip, m), some a =>
    let z := snapSize x.cfg
    let h := wave % 2 * z
    let bs := spRead s k a.space (a.base + h) z
    let put : Nat → List Byte → State → State := fun o bs s =>
      writeRun s (partOf (getCore s k)) x.region k 0 (ownFabric chip k m.space (m.base + h + o)) (.mirror k b) (z / 8 + 1) bs
    if s.tree.lost.contains chip then s else put 0 (bs.take 64) (put 64 (bs.drop 64) s)
  | _, _ => s

/-- A mirror copy of the context is still without its acknowledgements; one to a package declared lost holds nothing
(R477, log entry 147). -/
def mirroring (s : State) (k : Nat) (b : Bool) : Bool :=
  s.router.tx.any fun t => !s.tree.lost.contains t.dchip && (t.opens ++ t.queue).any fun o => o.who == .mirror k b

/-- The popped counts of the cow ports go to the tree home (R311). -/
def reportCows (s : State) (k : Nat) (b : Bool) (wave : Nat) : State :=
  let x := ctxAt s k b
  match findPart s (partOf (getCore s k)) with
  | none => s
  | some p =>
    match p.params.tree with
    | none => s
    | some (chip, _) =>
      (x.cfg.ins.filter fun e => e.2.cow).foldl (fun s e =>
        let n := (getIn x e.1).seqs
        let pa := portAt s k b e.1
        if chip = s.chip then
          { s with engines := s.engines.map fun g => if g.part = p.params.num then { g with ports := g.ports.map fun c =>
              if c.port = pa then { c with pops := c.pops ++ [(wave, n)] } else c } else g }
        else sendCtl s chip (.cowPops pa wave n)) s

/-- Steps 3 to 5 of R404 on one member, its marker popped; `held`: a MARK reserved the credits. -/
def markMember (s : State) (k : Nat) (b : Bool) (wave : Nat) (held : Bool) : State :=
  let s := forwardCtl s k b 2 (BitVec.ofNat 64 wave) held
  let s := reportCows s k b wave
  modCtxAt s k b fun x =>
    { x with marker := wave, ctlBusy := none,
             ins := x.ins.map fun i => { i with rate := 0 }, outs := x.outs.map fun o => { o with rate := 0 } }

/-- A sink reports the wave to the recovery home (R404). -/
def reportSink (s : State) (k : Nat) (b : Bool) (wave : Nat) : State :=
  let x := ctxAt s k b
  let part := partOf (getCore s k)
  if isSink s (membersOf s k b) then
    match findRegion s part x.region with
    | some r => sendCtl s r.cfg.homeChip (.sinkWave part x.region x.cfg.stage wave)
    | none => s
  else s

/-- Step 1 of R404: the rate check over every port of the stage; a stage that fails it raises RATE and does no more. -/
def checkStage (s : State) (k : Nat) (b : Bool) (ms : List (Nat × Bool)) : State :=
  let ok := rateOk (ms.flatMap fun e => ratePorts (ctxAt s e.1 e.2))
  let s := ms.foldl (fun s e => modCtxAt s e.1 e.2 fun x => { x with ctlBusy := some (if ok then 1 else 0x21), wait := 0 }) s
  if ok then s else raiseRegion s (partOf (getCore s k)) (ctxAt s k b).region 0x21 k

/-- Step 3 of R404 on every member: the snapshot with its mirror copy (R458). -/
def snapStage (s : State) (ms : List (Nat × Bool)) (wave : Nat) : State :=
  ms.foldl (fun s e =>
    mirrorSnap (writeSnap (modCtxAt s e.1 e.2 fun x => { x with ctlBusy := some 2 }) e.1 e.2 wave) e.1 e.2 wave) s

/-- Step 4 of R404 on every member, and a sink's report. -/
def markStage (s : State) (k : Nat) (b : Bool) (ms : List (Nat × Bool)) (wave : Nat) (held : Bool) : State :=
  let s := ms.foldl (fun s e => markMember s e.1 e.2 wave held) s
  progress (reportSink s k b wave) (partOf (getCore s k)) (ctxAt s k b).region

/-- MARKER_ACTION (R404): the rate check; the wait of R289 and the snapshot; then the markers are forwarded and popped. The
stage is no candidate from the first step to the last. -/
def execMarkerAction (k : Nat) (b : Bool) (s : State) : Out :=
  .next (
    let ms := membersOf s k b
    match atHeads s ms 2 with
    | none => s
    | some tag =>
      let wave := tag.toNat % 2 ^ 32
      match (ctxAt s k b).ctlBusy with
      | none => if quietStage s ms then checkStage s k b ms else s
      | some 1 => if ms.all fun e => settled s e.1 e.2 then snapStage s ms wave else s
      | some 2 =>
        if ms.all (fun e => canForward (ctxAt s e.1 e.2) false && !mirroring s e.1 e.2) then
          markStage (ms.foldl (fun s e => modCtxAt s e.1 e.2 popCtls) s) k b ms wave false
        else s
      | some _ => s)

/-- The wave that the recovery home has asked the sources for and the context has not served. -/
def askedWave (s : State) (k : Nat) (b : Bool) : Option Nat :=
  let x := ctxAt s k b
  match findRegion s (partOf (getCore s k)) x.region with
  | none => none
  | some r => if x.marker < r.asked then some r.asked else none

/-- A MARK performs (R274, R403): with a wave requested, first the snapshot with its mirror copy, and once that is
acknowledged the markers behind every token sent; with none, its reserved credits return. The Bool says that it has
finished. -/
def performMark (s : State) (k : Nat) (b : Bool) : Bool × State :=
  match askedWave s k b with
  | some w =>
    if (ctxAt s k b).ctlBusy = none then (false, snapStage s [(k, b)] w)
    else if mirroring s k b then (false, s)
    else (true, markStage s k b [(k, b)] w true)
  | none =>
    (true, modCtxAt s k b fun x => x.cfg.outs.foldl (fun x e =>
      if e.2.reorder then x else modOut x e.1 fun o => { o with credits := o.credits + 1 }) x)

/-- A source stage that the hardware marks (R403): no input ports but cow ports (R311), no mark mode, armed, not running and
its firing closed on every member, and a wave requested. -/
def hardwareMarks (s : State) (k : Nat) (b : Bool) (ms : List (Nat × Bool)) : Bool :=
  portless s ms && quietStage s ms && (askedWave s k b).isSome
    && ms.all fun e =>
      let x := ctxAt s e.1 e.2
      !x.cfg.markMode && (x.status == .armed || x.status == .staged)

/-- SOURCE_HARDWARE_MARK (R403): it acts as a MARK committed there: the wait of R289, the snapshot, the markers. -/
def execSourceHardwareMark (k : Nat) (b : Bool) (s : State) : Out :=
  .next (
    let ms := membersOf s k b
    match askedWave s k b with
    | none => s
    | some w =>
      if hardwareMarks s k b ms = false then s
      else match (ctxAt s k b).ctlBusy with
        | none => ms.foldl (fun s e => modCtxAt s e.1 e.2 fun x => { x with ctlBusy := some 1, wait := 0 }) s
        | some 1 => if ms.all fun e => settled s e.1 e.2 then snapStage s ms w else s
        | some 2 =>
          if ms.all (fun e => canForward (ctxAt s e.1 e.2) false && !mirroring s e.1 e.2) then markStage s k b ms w false
          else s
        | some _ => s)

end Sys2Proof.Machine
end

