-- ==== Sys2Proof/Machine/Epoch.lean ====
section
/-!
DEFINITION. What happens to a context outside its bundles: results that arrive (04 R87, R90, R92), the commit of a
checkpoint (04 R104) and the end of a firing, the effects that a commit releases as they perform (09 R241, 10 R279,
R285), and the comparison of a rerun pair (18 R396, R397).
-/
namespace Sys2Proof.Machine

/-! ### Results that arrive -/

/-- BRANCH_FETCH_COMPLETE (R92): the fetch buffer of bt register `n` holds its target. -/
def execBranchFetchComplete (k : Nat) (w : Who) (n : Nat) (s : State) : Out :=
  .next (modRegsAt s k w fun r =>
    { r with bt := r.bt.setIfInBounds n { (r.bt.getD n .reset) with fetched := true } })

/-- FIXED_RESULT_DELIVERY (R90): every result whose count has expired reaches its register. -/
def execFixedResultDelivery (k : Nat) (w : Who) (s : State) : Out :=
  .next (modCore s k fun c => deliverDue c w)

/-- The producers of a register set. -/
def getProd (c : Core) (w : Who) : List Producer :=
  match w with
  | .a => c.ctxA.producers
  | .b => c.ctxB.producers
  | .cur => c.curProd

def setProd (c : Core) (w : Who) (l : List Producer) : Core :=
  match w with
  | .a => { c with ctxA := { c.ctxA with producers := l } }
  | .b => { c with ctxB := { c.ctxB with producers := l } }
  | .cur => { c with curProd := l }

/-- A long-latency result reaches its register, which becomes full (R87). -/
def fillReg (w : Who) (c : Core) (e : RegName × Nat) : Core :=
  noteWrite (setRegs c w (setFull (writeReg (getRegs c w) e.1 e.2) e.1 true)) w (sigReg e.1 e.2)

/-- A VCH of the list: its results arrive in issue order (R207). -/
def isChain : Producer → Bool
  | .value _ _ c => c == .chain
  | _ => false

/-- A producer's result is written. -/
def finishProducer (s : State) (k : Nat) (w : Who) (p : Producer) : State :=
  match p with
  | .value ws fl _ =>
    modCore s k fun c =>
      let c := ws.foldl (fillReg w) c
      let v := (getRegs c w).fst ||| fl
      noteWrite (setRegs c w { (getRegs c w) with fst := v }) w (if fl = 0 then [] else sregRec 0x30 v.toNat)
  | .acld row seg bits => acldLand s k (w == .b) row seg bits
  | _ => s

/-- A producer that answers by itself: not an EVPOP, a TKTG or an RNG. -/
def selfDone : Producer → Bool
  | .value _ _ _ => true
  | .acld _ _ _ => true
  | _ => false

/-- LONG_LATENCY_WRITEBACK (R87): producer `n` of a register set completes. ACLDs of one row land in issue order, and
so do the results of the chain. -/
def execLongLatencyWriteback (k : Nat) (w : Who) (n : Nat) (s : State) : Out :=
  .next (
    let l := getProd (getCore s k) w
    match l[n]? with
    | none => s
    | some p =>
      let before := l.take n
      let blocked := (isChain p && before.any isChain) ||
        (match p with
          | .acld r _ _ => before.any fun q => match q with
            | .acld r' _ _ => r == r'
            | _ => false
          | _ => false)
      if !selfDone p || blocked then s
      else finishProducer (modCore s k fun c => setProd c w (l.eraseIdx n)) k w p)

/-- Complete every producer of a context that answers by itself, oldest first (R107). -/
def finishProducers (s : State) (k : Nat) (b : Bool) : State :=
  let l := getProd (getCore s k) (whoCtx b)
  let s := modCore s k fun c => setProd c (whoCtx b) (l.filter fun p => !selfDone p)
  (l.filter selfDone).foldl (fun s p => finishProducer s k (whoCtx b) p) s

/-- Every beat of the core's weight load has landed: the rest at once. -/
def finishMwld (s : State) (k : Nat) : Nat → State
  | 0 => s
  | n + 1 =>
    match execMwldBeatLand k s with
    | .next s' => finishMwld s' k n
    | _ => s

/-! ### Commit (R104) -/

/-- The released effects of a context hold back what comes behind them: a FENCE among them still waits (R285). -/
def fenceWaits (q : List Released) : Bool :=
  q.any fun r => match r.eff with
    | .fence _ _ _ => true
    | _ => false

/-- Put an effect into the context's release order, under the core's next number. -/
def pushEffect (s : State) (k : Nat) (b : Bool) (e : Effect) : State :=
  modCore s k fun c =>
    modCtx { c with nextSeq := c.nextSeq + 1 } b fun x => { x with relq := x.relq ++ [⟨c.nextSeq, e⟩] }

/-- The bytes of the scratchpad as the effects released before now leave them. -/
def releasedRead (s : State) (k : Nat) (b : Bool) (a n : Nat) : List Byte :=
  let raw := spRead s k .spad a n
  (List.range n).map fun i => overlayByte .spad (a + i) (raw.getD i 0) ((ctxAt s k b).relq.map (·.eff))

/-- The template and payload of a TSEND at its commit (R264); none behind a FENCE that waits (R285), or while an earlier
job in flight may still write there (R241). -/
def sendBytes (s : State) (k : Nat) (b : Bool) (a n : Nat) : Option (List Byte) :=
  if fenceWaits (ctxAt s k b).relq || busyBefore s k (getCore s k).nextSeq .spad a n false then none
  else some (releasedRead s k b a n)

/-- Release one effect into the core's release order. A launch becomes a job at once, its card read as the earlier effects
leave it, xbp captured and the status cleared in that order (R254), unless a FENCE holds it back (R285). A FENCE with an
empty mask waits for nothing (R285). A tier-miss record enters the event queue at the commit (R320). -/
def releaseOne (k : Nat) (b : Bool) (s : State) (e : Effect) : State :=
  match e with
  | .amax _ _ _ => s
  | .amset _ _ => s
  | .launch major card _ =>
    let x := ctxAt s k b
    if fenceWaits x.relq then pushEffect s k b (.launch major card (some x.live.xbp))
    else
      let bs := releasedRead s k b card 128
      let s := pushEffect s k b (.store .spad (card + 4) [0, 0])
      let s := pushEffect s k b (.store .spad (card + 48) (natLe 10 (x.live.xbp.toNat * 2 ^ 64)))
      let j := makeJob s k (whoCtx b) major card bs
      modCore s k fun c => { c with jobs := c.jobs ++ [j], nextSeq := c.nextSeq + 1 }
  | .send port type a len ticket _ =>
    let bs := sendBytes s k b a (16 + len)
    let s := if bs.isSome then countFixed s (spaceKey k .spad a) (16 + len) else s
    pushEffect s k b (.send port type a len ticket bs)
  | .fence kind scope mask => if mask = 0 then s else pushEffect s k b (.fence kind scope mask)
  | .tierMiss st page entry => postRecord s k b (eventRecord 2 st 0 page entry)
  | e => pushEffect s k b e

/-- The entries a context popped from one input port become the producer's again (R15, R16); those of an ingress ring of
either kind return their credits to the endpoint (R361). A producer whose highest ticket the head passes has none beyond it any
more (R18). -/
def commitIn (c : Option RingCfg) (p : PortIn) : PortIn :=
  let n := p.popped
  if n = 0 then p
  else match c with
    | none => { p with popped := 0 }
    | some c =>
      let gone := if c.reorder then reorderRun p.toks p.head n else p.toks.take n
      let kept := if c.reorder then p.toks.filter (fun t => !gone.contains t) else p.toks.drop n
      let rate := (gone.filter fun t => t.type == 1 || t.type == 6).length
      let ahead := p.highest.filter fun e => match e.2 with
        | some h => decide (n < beyondHead h p.head)
        | none => false
      { p with toks := kept, popped := 0, head := if c.reorder then (p.head + n) % 65536 else p.head + n,
               highest := if c.reorder then ahead else p.highest,
               seqs := (p.seqs + n) % 2 ^ 80, rate := p.rate + rate,
               owed := if c.reorder && !c.producers.any (fun q => q.chip == hostChip) then p.owed else p.owed + n,
               notice := p.notice || c.reorder }

/-- The reservations of the epoch are final (R15, R17). -/
def commitOut (o : PortOut) : PortOut := { o with reserved := 0, used := [], gotEpoch := [], replay := [] }

/-- The firing of a context ends (R19, R22): it is armed again, or a gang member waits for the others. -/
def endFiring (s : State) (k : Nat) (b : Bool) : State :=
  let ms := membersOf s k b
  let s := releaseRange s k b
  let s := modCore s k fun c => { (modCtx c b fun x =>
    { x with firing := false, memberDone := decide (1 < ms.length), wait := 0, starving := false,
             status := if x.status == .running then .armed else x.status }) with
    running := if c.running = some b then none else c.running }
  if ms.all fun e => (ctxAt s e.1 e.2).memberDone then
    ms.foldl (fun s e => modCtxAt s e.1 e.2 fun x => { x with memberDone := false }) s
  else s

/-- The commit of context `b` of core `k` (R104). -/
def commitCtx (s : State) (k : Nat) (b : Bool) : State :=
  let x := ctxAt s k b
  let bd := x.boundary
  let live := x.withheld.foldl applyAm x.live
  let effs := x.withheld
  let s := modCtxAt s k b fun x =>
    { x with live := live, copy := live, kcpc := nextIndex x live.next, withheld := [], undo := [], undoRows := [],
             ins := Vector.ofFn fun i : Fin 8 => commitIn (ringCfg x i.val) (getIn x i.val),
             outs := x.outs.map commitOut, evHead := x.evHead + x.evPopped, evPopped := 0, rngGot := [], rngReplay := [],
             boundary := none, retry := false, why := none, e := 0,
             cnt := (x.cnt.setIfInBounds 2 (x.cnt.getD 2 0 + 1)).setIfInBounds 3
               (x.cnt.getD 3 0 + (if bd = some .implicit then 1 else 0)) }
  let s := modCore s k fun c =>
    { c with mwld := c.mwld.map fun l => if l.ctx = b then { l with old := true } else l }
  let s := effs.foldl (releaseOne k b) s
  let s := progress s (partOf (getCore s k)) x.region
  if bd = some .done then endFiring s k b else s

/-- The context stands at a boundary that may commit now (R100, R229). -/
def mayCommit (s : State) (k : Nat) (b : Bool) : Bool :=
  let c := getCore s k
  let x := getCtx c b
  x.boundary.isSome && x.producers.isEmpty && x.mchk.isNone && !c.curator && !c.halted && !c.faulted
    && c.running == some b && x.stopped.isNone

/-! ### Released effects (R241, R264, R269, R270, R285) -/

/-- An earlier job of the context in a class of the mask is outstanding: its last writes, the status and what completes it,
go to the core's own storage in its class, so they lie within every scope (R278, R287). -/
def classBefore (c : Core) (b : Bool) (seq : Nat) (mask : Nat) : Bool :=
  c.jobs.any fun j => decide (j.seq < seq) && ownJob b j && bitOf mask j.cls

/-- A TSEND performs (R264): the template and the payload have been read at its commit, or are read as they stand. -/
def performSend (s : State) (k : Nat) (b : Bool) (port type addr len : Nat) (ticket : Option Nat)
    (bytes : Option (List Byte)) : State :=
  match outCfg (ctxAt s k b) port with
  | none => s
  | some c =>
    let bs := bytes.getD (spRead s k .spad addr (16 + len))
    let s := if bytes.isSome then s else countFixed s (spaceKey k .spad addr) (16 + len)
    let t : Token := ⟨(getOut (ctxAt s k b) port).seq, ticket.getD 0, type, sourceByte b port,
      BitVec.ofNat 64 (leNat ((bs.take 16).drop 8)), bs.drop 16⟩
    let s := modCtxAt s k b fun x => modOut x port fun o =>
      { o with seq := (o.seq + 1) % 2 ^ 32, rate := o.rate + 1 }
    sendOut s k b port c t

/-- A launch that a FENCE has held becomes a job in the place of its release (R254, R285). -/
def performLaunch (s : State) (k : Nat) (b : Bool) (seq major card : Nat) (xbp : BitVec 12) : State :=
  let j := makeJob s k (whoCtx b) major card (spRead s k .spad card 128)
  let s := writeStatus s k card 0
  let s := spWrite s k .spad (card + 48) (natLe 10 (xbp.toNat * 2 ^ 64))
  modCore s k fun c => { c with jobs := c.jobs ++ [{ j with id := seq, seq := seq, xbp := xbp }] }

/-- An earlier job of the core in class 0 whose fabric accesses may go to the chip of a remote barrier has not ended: what is
of one class to one chip performs there in access order (R279, R291). -/
def chipBefore (c : Core) (seq : Nat) (a : Word) : Bool :=
  bitOf a.toNat 63 && c.jobs.any fun j => decide (j.seq < seq) && j.cls == 0 && j.err == 0
    && j.state != .finished && j.state != .posting && mayReach j (bitsOf a.toNat 44 12)

/-- May the oldest released effect perform now? -/
def mayPerform (s : State) (k : Nat) (b : Bool) (r : Released) : Bool :=
  let c := getCore s k
  match r.eff with
  | .store sp a bs => !busyBefore s k r.seq sp a bs.length true
  | .send port _ a len _ bytes =>
    let mask := ((outCfg (getCtx c b) port).map (·.classes.toNat)).getD 0
    !classBefore c b r.seq mask && !(bitOf mask 0 && baraOpen s k false fun _ => true)
      && (bytes.isSome || !busyBefore s k r.seq .spad a (16 + len) false)
  | .launch _ card _ => !busyBefore s k r.seq .spad card 128 true
  | .bari a _ => !busyBefore s k r.seq .spad a 8 true
  | .bara a _ => !classBefore c b r.seq 0xFFFF && !(baraOpen s k false fun _ => true) && !chipBefore c r.seq a
  | .fence kind scope mask =>
    !classBefore c b r.seq mask.toNat && (kind == 1 || !(bitOf mask.toNat 0 && baraOpen s k false (inScope s k scope)))
  | .mark => !classBefore c b r.seq 0xFFFF && !outsideBusy s k b
  | .barError a => !busyBefore s k r.seq .spad a 8 true
  | _ => true

/-- Perform an effect; the Bool says that it has finished. -/
def performEffect (s : State) (k : Nat) (b : Bool) (r : Released) : Bool × State :=
  match r.eff with
  | .store sp a bs => (true, spWrite s k sp a bs)
  | .send port type a len t bytes => (true, performSend s k b port type a len t bytes)
  | .launch major card xbp => (true, performLaunch s k b r.seq major card (xbp.getD 0))
  | .bari a n => (true, performBari s k a n.toNat)
  | .bara a err => (true, performBara s k (whoCtx b) a err)
  | .mark => performMark s k b
  | .barError a =>
    (true, spWrite s k .spad a (natLe 8 (setBits (leNat (spRead s k .spad a 8)) 32 1 1)))
  | _ => (true, s)

/-- WITHHELD_STORE_PERFORM (R241): the oldest released effect of the context performs, once what it waits for is
over. -/
def execWithheldStorePerform (k : Nat) (b : Bool) (s : State) : Out :=
  .next (
    match (ctxAt s k b).relq with
    | [] => s
    | r :: _ =>
      if mayPerform s k b r = false then s
      else
        let (done, s) := performEffect s k b r
        if done then modCtxAt s k b fun x => { x with relq := x.relq.drop 1 } else s)

/-! ### Rerun pairs (R396, R397) -/

/-- The record of a withheld effect in a signature (R397, log entry 12). -/
def sigEffect (s : State) (k : Nat) (b : Bool) (e : Effect) : List Byte :=
  match e with
  | .store sp a bs => 3 :: (natLe 8 (addrVal sp a) ++ natLe 2 bs.length ++ bs)
  | .send port type a len t _ =>
    let tm := viewRead s k b .spad a (16 + len)
    4 :: BitVec.ofNat 8 port :: (headerBytes ⟨(getOut (ctxAt s k b) port).seq, t.getD 0, type, sourceByte b port,
      BitVec.ofNat 64 (leNat ((tm.drop 8).take 8)), []⟩ ++ tm.drop 16)
  | .launch major card _ => 5 :: BitVec.ofNat 8 major :: (natLe 8 card ++ viewRead s k b .spad card 128)
  | .bari a n => 5 :: 0x0A :: natLe 8 (a + n.toNat * 2 ^ 32)
  | .bara a err => 5 :: 0x09 :: natLe 8 (if err then Nat.xor a.toNat (2 ^ 62) else a.toNat)
  | .fence kind scope mask => 5 :: 0x0C :: natLe 8 (kind + scope * 4 + mask.toNat * 16)
  | .mark => 5 :: 0x11 :: natLe 8 0
  | .tierMiss st page entry => 5 :: 0 :: natLe 8 (st + page * 16 + entry * 2 ^ 32)
  | .barError a => 5 :: 0x06 :: natLe 8 a
  | .amax n ms nan => 5 :: 0 :: natLe 8 (n + b01 nan * 4 + (ms.foldl Nat.max 0) * 2 ^ 32)
  | .amset n v => 5 :: 0 :: natLe 8 (n + 8 + v.toNat * 2 ^ 32)

/-- The signature of a rerun at its boundary (R397). -/
def signature (s : State) (k : Nat) (b : Bool) : BitVec 32 :=
  let c := getCore s k
  let x := getCtx c b
  let rows := (List.range 256).filter fun r => (x.undo.map (·.1)).contains r
  crc32c (x.sig ++ (rows.flatMap fun r => 2 :: BitVec.ofNat 8 r :: natLe 4096 (accRow c r).toNat)
    ++ x.withheld.flatMap (sigEffect s k b))

/-- The first rerun of a pair begins (R396). -/
def startRerun (s : State) (k : Nat) (b : Bool) : State :=
  setCore s k (modCtx (rollBack (getCore s k) b) b fun x => { x with rerun := .first, sig := [], bundles := 0 })

/-- RERUN_PAIR_COMPARE (R396): rerun 1 ends and rerun 2 begins; rerun 2 ends and the pair commits or traps. -/
def execRerunPairCompare (k : Nat) (b : Bool) (s : State) : Out :=
  .next (
    let x := ctxAt s k b
    if mayCommit s k b = false then s
    else match x.rerun with
      | .first =>
        let sg := signature s k b
        setCore s k (modCtx (rollBack (getCore s k) b) b fun y =>
          { y with rerun := .second sg x.bundles none, sig := [], bundles := 0 })
      | .second sg n tr =>
        let sg2 := signature s k b
        let s' := modCtxAt s k b endRerun
        if tr = none ∧ sg = sg2 ∧ n = x.bundles then commitCtx s' k b
        else enterTrap s' k b true
          ⟨0x0B, 0, false, some (BitVec.ofNat 16 (nextIndex x x.live.next)), BitVec.ofNat 64 (sg.toNat + sg2.toNat * 2 ^ 32)⟩
      | _ => s)

end Sys2Proof.Machine
end

