-- ==== Sys2Proof/Machine/Store.lean ====
section
/-!
DEFINITION. The image store of the package (16 R354, R484), the program stores of its cores (04 R83), and the registers
that a partition keeps on the package (15 R337).
-/
namespace Sys2Proof.Config

/-- The image part that a byte string holds: the encoding beyond the framing is private to the placer and the firmware
(R484, log entry 14). -/
opaque readPart : List Sys2Proof.Byte → Option Sys2Proof.ImagePart

end Sys2Proof.Config

namespace Sys2Proof.Machine

/-! ### Image parts (R484) -/

/-- The key of byte `off` of the boot region (R82). -/
def bootKey (off : Nat) : Nat := 5 * 2 ^ 40 + off

def partFormat (s : State) (base : Nat) : Nat := leNat (memRead s (bootKey base) 4)
def partHead (s : State) (base : Nat) : Nat := leNat (memRead s (bootKey base + 4) 4)
def partImage (s : State) (base : Nat) : Nat := leNat (memRead s (bootKey base + 8) 4)
def partChip (s : State) (base : Nat) : Nat := leNat (memRead s (bootKey base + 12) 2)
def partLen (s : State) (base : Nat) : Nat := leNat (memRead s (bootKey base + 16) 8)

/-- The header section of a part (R484). -/
def headBytes (s : State) (base : Nat) : List Byte := memRead s (bootKey base) (partHead s base)

/-- The part at a base, read by firmware that supports its format. -/
def partAt (s : State) (base : Nat) : Option ImagePart :=
  if partFormat s base = 1 then Config.readPart (memRead s (bootKey base) (partLen s base)) else none

/-- The base of the part of an image for this package. -/
def findBase (s : State) (image : Nat) (fallback : Bool) : Option Nat :=
  s.bases.find? fun a => partImage s a == image && partChip s a == s.chip &&
    (match partAt s a with
      | some p => p.fallback == fallback
      | none => !fallback)

/-- The part of an image for this package. -/
def findImage (s : State) (image : Nat) (fallback : Bool) : Option ImagePart :=
  (findBase s image fallback).bind fun a => partAt s a

/-! ### Program store (R83) -/

/-- What every bundle that no image claims holds (R83). -/
def noBundle : BitVec 256 := BitVec.ofNat 256 ((List.range 8).foldl (fun a i => a + 0xFC000000 * 2 ^ (32 * i)) 0)

def bundleAt (c : Core) (i : Nat) : BitVec 256 := tabGet noBundle c.prog i

/-- Slot word `n` of bundle `i`. -/
def slotWord (c : Core) (i n : Nat) : Nat := bitsOf (bundleAt c i).toNat (32 * n) 32

/-- Write a program share, the rest of the share as no image claims it. -/
def loadShare (c : Core) (first size : Nat) (prog : List (BitVec 256)) : Core :=
  { c with prog := tabSetMany noBundle (tabErase first (first + size) c.prog) first (prog.take size) }

/-- A share that is no longer in use (R83). -/
def freeShare (c : Core) (first size : Nat) : Core := { c with prog := tabErase first (first + size) c.prog }

/-- The arena base that the images of a core's other context and of its saved contexts set (R67, R115). -/
def coreArena (c : Core) (b : Bool) : Option Nat :=
  [(getCtx c b).cfg.arena, c.shadow0.bind (·.saved.cfg.arena), c.shadow1.bind (·.saved.cfg.arena)].findSome? id

/-- A slot becomes empty, and its share free. -/
def emptySlot (c : Core) (b : Bool) : Core :=
  let x := getCtx c b
  let c := freeShare c x.cfg.first x.cfg.size
  let c := setCtx c b .reset
  { c with running := if c.running = some b then none else c.running,
           lastBegun := if c.lastBegun = some b then none else c.lastBegun,
           arena := coreArena c !b }

/-- The ranges `[a, a + n)` and `[b, b + m)` of bundles overlap. -/
def shareClash (a n b m : Nat) : Bool := overlaps a n b m

/-- A context that holds its slot and its share. -/
def occupied (x : Context) : Bool := x.status != .empty

/-- Range cells whose stage has no context left, resident or saved, are free again (R369). -/
def dropCells (s : State) : State :=
  { s with cells := s.cells.filter fun r => (List.range 16).any fun k =>
      let c := getCore s k
      [some c.ctxA, some c.ctxB, c.shadow0.map (·.saved), c.shadow1.map (·.saved)].any fun o => match o with
        | some x => occupied x && cellOf (partOf c) x r
        | none => false }

/-! ### Registers kept per partition on a package (R337) -/

def modPart (s : State) (n : Nat) (f : Partition → Partition) : State :=
  match findPart s n with
  | some _ => { s with parts := s.parts.map fun p => if p.params.num = n then f p else p }
  | none => { s with parts := s.parts ++ [f (partReset n)] }

end Sys2Proof.Machine
end

