-- ==== Sys2Proof/Machine/Sched.lean ====
section
/-!
DEFINITION. The arbiter and the package scheduler (16 R363 to R370): triggers (01 R19), candidates and their waits,
preemption, the budget, handover, gang firings and range cells (01 R22, R23), the answers to RNG, TKTG and EVPOP, and
the queue entry of the curator (15 R333).
-/
namespace Sys2Proof.Machine

/-! ### Triggers and candidates (R19, R364) -/

/-- Free entries of an output port: credits, or admissible tickets beyond the last granted or explicit one (R19). -/
def freeEntries (c : OutCfg) (o : PortOut) : Nat :=
  if c.reorder then
    let d := ticketDist (o.last + 1) o.head
    if 2 ^ 15 ≤ d then outEntries c else outEntries c - Nat.min d (outEntries c)
  else o.credits

/-- The trigger and need masks of one context hold. -/
def ctxTrigger (x : Context) : Bool :=
  (x.cfg.trig.all fun e => match ringCfg x e.1 with
    | some c => decide (e.2 ≤ (visibleToks c (getIn x e.1)).length)
    | none => false)
  && (x.cfg.need.all fun e => match outCfg x e.1 with
    | some c => decide (e.2 ≤ freeEntries c (getOut x e.1))
    | none => false)

/-- The trigger of a stage, over every port of its members (R22). -/
def triggerHolds (s : State) (k : Nat) (b : Bool) : Bool :=
  (membersOf s k b).all fun e => ctxTrigger (ctxAt s e.1 e.2)

def isGang (x : Context) : Bool := decide (1 < x.cfg.gang.length)

/-- A context that the arbiter may choose (R364): preempted, or armed with its trigger holding; a gang member once its
firing is open (R369). A stage in a control action is none (R404), nor is a stopped one. -/
def isCandidate (s : State) (k : Nat) (b : Bool) : Bool :=
  let c := getCore s k
  let x := getCtx c b
  if x.stopped.isSome || x.ctlBusy.isSome then false
  else match x.status with
    | .preempted => true
    | .running => decide (c.running ≠ some b)
    | .armed => !x.memberDone && (if isGang x then x.firing else triggerHolds s k b)
    | _ => false

/-- The candidates of a core but the running context. -/
def waiters (s : State) (k : Nat) : List Bool :=
  [false, true].filter fun b => decide ((getCore s k).running ≠ some b) && isCandidate s k b

def period (c : Core) : Nat := c.budget.toNat

/-- The wait of a context that makes it starve (R365), by the period as it now stands. -/
def starves (c : Core) (x : Context) : Bool := period c != 0 && decide (period c / 2 ≤ x.wait)

/-- The staged context of a core that may be handed to: its trigger holds, or its firing is open (R367). -/
def stagedReady (s : State) (k : Nat) : Option Bool :=
  [false, true].find? fun b =>
    let x := ctxAt s k b
    x.status == .staged && x.stopped.isNone && x.ctlBusy.isNone && (x.firing || triggerHolds s k b)

/-- One clock on core `k` (R364 to R366): the running context's W, E and cyc and the waits of the others, not in
curator mode; time of a frozen clock is counted besides. The wait of what is no candidate starts again from 0. -/
def tick (s : State) (k : Nat) (frozen : Bool) : State :=
  let s := { s with clock := s.clock + 1 }
  let c := getCore s k
  if c.curator then s
  else match c.running with
    | none => s
    | some b =>
      let up := fun (s : State) (d : Bool) =>
        if decide (c.running ≠ some d) && (isCandidate s k d || stagedReady s k == some d) then
          (modCtxAt s k d fun x => { x with wait := x.wait + 1 })
        else if (ctxAt s k d).wait = 0 then s
        else modCtxAt s k d fun x => { x with wait := 0, starving := false }
      let s := up (up s false) true
      let s := modCore s k fun c => { c with w := c.w + 1 }
      modCtxAt s k b fun x => { x with
        cyc := x.cyc + 1, e := x.e + 1,
        cnt := if frozen then x.cnt.setIfInBounds 1 (x.cnt.getD 1 0 + 1) else x.cnt }

/-! ### What falls due at a bundle boundary (R333, R365, R366, R367) -/

/-- A context that may not be taken: in a rerun pair, or with a Caliper comparison outstanding (R368). -/
def untakable (x : Context) : Bool :=
  x.mchk.isSome || (match x.rerun with
    | .first => true
    | .second _ _ _ => true
    | _ => false)

/-- The core issues stage bundles for a context that may be taken. -/
def takable (s : State) (k : Nat) : Option Bool :=
  let c := getCore s k
  if c.curator || c.faulted || c.withdrawn then none
  else match c.running with
    | some b => if untakable (getCtx c b) then none else some b
    | none => none

def budgetDue (s : State) (k : Nat) : Bool :=
  let c := getCore s k
  match takable s k with
  | some b => period c != 0 && !c.halted && (getCtx c b).stopped.isNone && decide (16 * period c ≤ (getCtx c b).e)
  | none => false

def preemptDue (s : State) (k : Nat) : Bool :=
  let c := getCore s k
  match takable s k with
  | some b =>
    period c != 0 && !c.halted && (getCtx c b).stopped.isNone
      && ((decide (period c ≤ c.w) && !(waiters s k).isEmpty)
        || (decide (period c / 2 ≤ c.w) && (waiters s k).any fun d => starves c (getCtx c d)))
  | none => false

/-- A queue entry is due (R333): with no context running, or with one that may be taken. -/
def queueDue (s : State) (k : Nat) : Bool :=
  let c := getCore s k
  !c.curator && !c.faulted && !c.withdrawn && bitOf c.fqctl.toNat 40 && !fqEmpty c
    && (c.running.isNone || (takable s k).isSome)

/-- The arbiter of the core may decide: no context runs. -/
def idleCore (c : Core) : Bool := !c.curator && !c.halted && !c.faulted && !c.withdrawn && c.running.isNone

/-- A handover is due (R367). With P = 0 no context is preempted, so only an idle core hands over (log entry 13). -/
def handoverDue (s : State) (k : Nat) : Option Bool :=
  let c := getCore s k
  match stagedReady s k with
  | none => none
  | some d =>
    if idleCore c then
      if (waiters s k).isEmpty || (period c != 0 && decide (period c / 2 ≤ (getCtx c d).wait)) then some d else none
    else match takable s k with
      | some b =>
        if period c != 0 && decide (period c ≤ c.w) && !c.halted && (getCtx c b).stopped.isNone then some d else none
      | none => none

/-- What must happen at this boundary before the core's next bundle: a trap goes before a queue entry (R334). -/
def dueAt (s : State) (k : Nat) : Option Instr :=
  if budgetDue s k then some (.budgetExpiry k)
  else if queueDue s k then some (.queueEntry k)
  else if preemptDue s k then some (.preempt k)
  else match handoverDue s k with
    | some _ => some (.handover k)
    | none => none

/-! ### Commit (R104) -/

/-- A checkpoint may commit now; an implicit one after a preemption that falls at its boundary (R368). -/
def commitDue (s : State) (k : Nat) (b : Bool) : Bool :=
  mayCommit s k b && decide ((ctxAt s k b).rerun = .none)
    && !((ctxAt s k b).boundary == some .implicit && preemptDue s k)

/-- CHECKPOINT_COMMIT (R104). -/
def execCheckpointCommit (k : Nat) (b : Bool) (s : State) : Out :=
  .next (if commitDue s k b then commitCtx s k b else s)

/-! ### The arbiter -/

/-- The starving candidate that has waited longest, A first among equals (R364). -/
def longest (s : State) (k : Nat) : List Bool → Option Bool
  | [] => none
  | b :: l => match longest s k l with
    | none => some b
    | some d => if (ctxAt s k d).wait ≤ (ctxAt s k b).wait then some b else some d

/-- The arbiter's choice (R364). -/
def choose (s : State) (k : Nat) : Option Bool :=
  let c := getCore s k
  let l := waiters s k
  match longest s k (l.filter fun b => starves c (getCtx c b)) with
  | some b => some b
  | none =>
    let top := l.foldl (fun m b => Nat.max m (getCtx c b).cfg.prio) 0
    let best := l.filter fun b => (getCtx c b).cfg.prio == top
    match best.find? fun b => decide (c.lastBegun ≠ some b) with
    | some b => some b
    | none => best.head?

/-- The range source of a stage, with its grain: what one of its members' entries names (R22). -/
def stageRange (s : State) (ms : List (Nat × Bool)) : RangeSrc × Nat :=
  (ms.findSome? fun e =>
    let g := (ctxAt s e.1 e.2).cfg
    if g.range = .none then none else some (g.range, g.grain)).getD (.none, 0)

/-- The upper bound that the range source gives as a firing opens (R369): the constant, or tag[31:0] of the head token
of the named port, on whichever member's core its ring lies. -/
def rangeBound (s : State) (ms : List (Nat × Bool)) (src : RangeSrc) : Option Nat :=
  match src with
  | .none => none
  | .const hi => some (hi % 2 ^ 32)
  | .port n =>
    some ((ms.findSome? fun e =>
      let x := ctxAt s e.1 e.2
      match ringCfg x n with
      | some c => ((visibleToks c (getIn x n)).head?).map fun t => t.tag.toNat % 2 ^ 32
      | none => none).getD 0)

/-- The range cell that a stage took at launch is set as its firing opens (R22, R369). -/
def openCell (s : State) (k : Nat) (b : Bool) : State :=
  let x := ctxAt s k b
  let (src, grain) := stageRange s (membersOf s k b)
  match rangeBound s (membersOf s k b) src with
  | none => s
  | some hi =>
    { s with cells := s.cells.map fun c =>
        if cellOf (partOf (getCore s k)) x c then { c with grain := grain, hi := hi, taken := false, held := [] }
        else c }

/-- The arbiter's choice begins or resumes its firing (R19, R364): an armed context runs from its entry. -/
def begin (s : State) (k : Nat) (b : Bool) : State :=
  let x := ctxAt s k b
  let fresh : Bool := x.status == .armed && !(x.firing && !isGang x)
  let s := if fresh && !isGang x then openCell s k b else s
  let s := modCore s k fun c => { c with running := some b, lastBegun := some b, w := 0 }
  let s := modCtxAt s k b fun x =>
    { x with status := .running, firing := true, wait := 0, starving := false,
             fires := if fresh then x.fires + 1 else x.fires }
  progress s (partOf (getCore s k)) x.region

/-- ARBITER_DECIDE (R364): a staged context that is due goes first (R367). -/
def execArbiterDecide (k : Nat) (s : State) : Out :=
  .next (
    if idleCore (getCore s k) && !queueDue s k && (handoverDue s k).isNone then
      match choose s k with
      | none => s
      | some b => begin s k b
    else s)

/-- CANDIDATE_STARVING (R365). -/
def execCandidateStarving (k : Nat) (b : Bool) (s : State) : Out :=
  .next (
    let c := getCore s k
    if isCandidate s k b && period c != 0 && decide (period c / 2 ≤ (getCtx c b).wait) then
      (modCtxAt s k b fun x => { x with starving := true })
    else s)

/-- PREEMPT (R365): the running context is taken at its boundary. -/
def execPreempt (k : Nat) (s : State) : Out :=
  .next (
    match takable s k with
    | some b =>
      if preemptDue s k then
        modCore (modCtxAt s k b fun x => { x with status := .preempted, wait := 0, starving := false }) k fun c =>
          { c with running := none }
      else s
    | none => s)

/-- BUDGET_EXPIRY (R366): the trap names the bundle that would have issued next. -/
def execBudgetExpiry (k : Nat) (s : State) : Out :=
  .next (
    match takable s k with
    | some b =>
      if budgetDue s k then
        takeTrap s k b ⟨0x0C, 0, true, none, BitVec.ofNat 64 (ctxAt s k b).e⟩
      else s
    | none => s)

/-- The context that hands over becomes staged, or, still configured, is placed staged; its array state lies in slot
`n` from now on (R355, R367). -/
def handOff (n : Nat) (x : Context) : Context :=
  let y := { x with cfg := { x.cfg with staged := true, shadow := n }, wait := 0, starving := false }
  match x.status with
  | .armed => { y with status := .staged }
  | .running => { y with status := .staged }
  | .preempted => { y with status := .staged }
  | .configured => y
  | _ => x

/-- A context whose shadow slot fails is lost (R416): the core is refused, and the loss counts as RETIRE (R399). -/
def loseCtx (s : State) (k : Nat) (b : Bool) (n : Nat) : State :=
  let x := ctxAt s k b
  let s := modCore s k fun c => setKflag { (emptySlot c b) with stagedAcc := [] } 16 true
  dropCells (postEvent (raiseRegion s (partOf (getCore s k)) x.region 0x22 k) 0x05 k x.region (n + k * 16))

/-- HANDOVER (R367): the running or waiting context becomes staged, its array state goes to the shadow slot as the
other's is loaded, the planes are reloaded from their records, and the staged context runs. An error that the slot holds
is met as R416 lays down. -/
def execHandover (k : Nat) (s : State) : Out :=
  .next (
    match handoverDue s k with
    | none => s
    | some d =>
      let r := !d
      let n := (ctxAt s k d).cfg.shadow
      if shadowBad s k n then loseCtx s k d n
      else
        let s := finishMwld (finishProducers s k r) k 64
        let s := dropShadowFlips (countShadow s k n) k n
        let s := modCore s k fun c => { c with acc := c.stagedAcc, stagedAcc := c.acc, running := none }
        let s := modCtxAt s k r (handOff n)
        let s := modCtxAt s k d fun x => { x with status := .armed, cfg := { x.cfg with staged := false } }
        begin (reloadPlanes s k d) k d)

/-- GANG_FIRING_OPEN (R369): the trigger of the ganged stage of context `n` (twice its core, plus 1 for B) holds over
all its ports, so every member becomes a candidate and the range cell is set. -/
def execGangFiringOpen (n : Nat) (s : State) : Out :=
  .next (
    let k := n / 2
    let b := n % 2 == 1
    let ms := membersOf s k b
    if isGang (ctxAt s k b) && triggerHolds s k b && (ms.all fun e =>
        let x := ctxAt s e.1 e.2
        x.status == .armed && !x.firing && !x.memberDone && x.stopped.isNone && x.ctlBusy.isNone) then
      let s := openCell s k b
      ms.foldl (fun s e => modCtxAt s e.1 e.2 fun x => { x with firing := true, wait := 0, starving := false }) s
    else s)

/-! ### Range cells (R23, R157 to R159) -/

/-- The first iteration of a holder's next unstarted grain, from its lc (R158), limited to its bound. -/
def nextGrain (s : State) (g : Nat) (h : Held) : Nat :=
  Nat.min (g * (((ctxAt s h.core h.ctx).live.lc.getD h.lvl 0).toNat / g + 1)) h.hi

/-- The holder with the largest remainder, the lowest core index among equals (R23). -/
def largest (s : State) (g : Nat) : List Held → Option Held
  | [] => none
  | h :: l => match largest s g l with
    | none => some h
    | some q =>
      let dh := h.hi - nextGrain s g h
      let dq := q.hi - nextGrain s g q
      if dq < dh ∨ (dq = dh ∧ h.core * 2 + b01 h.ctx ≤ q.core * 2 + b01 q.ctx) then some h else some q

/-- Where a remainder is split (R23). -/
def splitAt (next hi g : Nat) : Nat := next + g * (((hi - next + 1) / 2 + g - 1) / g)

/-- The holder's range ends at `mid` from now on: its lt, live and in the checkpoint copy (R158), and the answers that a
roll-back gives again (R99). -/
def cutHolder (s : State) (h : Held) (mid : Nat) : State :=
  let cutR := fun r : Regs => { r with lt := r.lt.setIfInBounds h.lvl (BitVec.ofNat 32 mid) }
  let cutL := fun l : List (Nat × Nat) => l.map fun e => if e = (h.lo, h.hi) then (h.lo, mid) else e
  modCtxAt s h.core h.ctx fun x =>
    { x with live := cutR x.live, copy := cutR x.copy,
             rngGot := cutL x.rngGot, rngReplay := cutL x.rngReplay }

/-- The cell's answer to a request (R23): the range, and the state with the cell's ranges as they then stand. In a gang of
1 only the first request of a firing is given a range (R159). -/
def askCell (s : State) (k : Nat) (b : Bool) (lvl : Nat) : (Nat × Nat) × State :=
  let x := ctxAt s k b
  let mine := cellOf (partOf (getCore s k)) x
  match s.cells.find? mine with
  | none => ((0, 0), s)
  | some c =>
    let put := fun (s : State) (f : RangeCell → RangeCell) =>
      { s with cells := s.cells.map fun c => if mine c then f c else c }
    if c.taken = false then
      ((0, c.hi), put s fun c => { c with taken := true, held := [⟨k, b, lvl, 0, c.hi⟩] })
    else if !isGang x then ((0, 0), s)
    else match largest s c.grain c.held with
      | none => ((0, 0), s)
      | some h =>
        let next := nextGrain s c.grain h
        if 2 * c.grain ≤ h.hi - next then
          let mid := splitAt next h.hi c.grain
          let s := put s fun c =>
            { c with held := (c.held.map fun q => if q = h then { q with hi := mid } else q) ++ [⟨k, b, lvl, mid, h.hi⟩] }
          ((mid, h.hi), cutHolder s h mid)
        else ((0, 0), s)

/-- A long-latency answer reaches x register `d` of a stage context. -/
def answerX (s : State) (k : Nat) (b : Bool) (d v : Nat) : State :=
  modCore s k fun c => fillReg (whoCtx b) c (xReg d, v)

/-- The requests that a context has posed stand: it is neither stopped nor preempted nor staged, which withdraws them until
it goes on (R107). -/
def posed (x : Context) : Bool := x.stopped.isNone && x.status != .preempted && x.status != .staged

/-- The region of a context is being stopped, so its range cells are frozen (R369). -/
def cellFrozen (s : State) (k : Nat) (x : Context) : Bool :=
  match findRegion s (partOf (getCore s k)) x.region with
  | some r => r.phase == .stopping || r.phase == .stopped
  | none => false

/-- RNG_ANSWER (R23, R157): the oldest request of the context is answered; a range granted before a roll-back is given
again first. -/
def execRngAnswer (k : Nat) (b : Bool) (s : State) : Out :=
  .next (
    let x := ctxAt s k b
    match x.producers.findIdx? fun p => match p with
      | .rng _ _ => true
      | _ => false with
    | none => s
    | some i =>
      match x.producers[i]? with
      | some (.rng d lvl) =>
        if !posed x || cellFrozen s k x then s
        else
        let (r, s) := match x.rngReplay with
          | r :: _ => (r, modCtxAt s k b fun x => { x with rngReplay := x.rngReplay.drop 1 })
          | [] => askCell s k b lvl
        let s := modCtxAt s k b fun x => noteSregs x
          { x with producers := x.producers.eraseIdx i, rngGot := x.rngGot ++ [r],
                   live := { x.live with lc := x.live.lc.setIfInBounds lvl (BitVec.ofNat 32 r.1),
                                         lt := x.live.lt.setIfInBounds lvl (BitVec.ofNat 32 r.2) } }
        answerX s k b d (r.2 * 2 ^ 32 + r.1)
      | _ => s)

/-! ### Tickets (R17, R265) -/

/-- The control record of a REORDER port holds a token of the producer (R18). -/
def ctlWaits (i : PortIn) (q : PortAddr) : Bool := i.ctl.any fun r => r.producer == q

/-- The next ticket of a REORDER ring of this package, when the consumer may grant it to a producer. -/
def nextTicket (s : State) (p q : PortAddr) : Option Nat :=
  let x := ctxAt s p.core p.ctx
  match ringCfg x p.port with
  | none => none
  | some c =>
    let i := getIn x p.port
    if 2 ^ c.n ≤ ticketDist i.grant i.head ∨ ctlWaits i q then none else some i.grant

def countTicket (s : State) (p : PortAddr) : State :=
  modCtxAt s p.core p.ctx fun x => modIn x p.port fun i => { i with grant := (i.grant + 1) % 65536 }

/-- A grant reaches the TKTG at place `i` among the producers. -/
def grantTicket (s : State) (k : Nat) (b : Bool) (i d port t : Nat) (replay : Bool) : State :=
  let s := modCtxAt s k b fun x =>
    { (modOut x port fun o => { o with granted := o.granted ++ [t], gotEpoch := o.gotEpoch ++ [t], last := t,
                                       replay := if replay then o.replay.drop 1 else o.replay }) with
      producers := x.producers.eraseIdx i }
  answerX s k b d t

/-- The oldest TKTG of a context on a port: its place, its destination, and whether a MARK stands before it. -/
def tktgOn (x : Context) (port : Nat) : Option (Nat × Nat × Bool) :=
  x.producers.zipIdx.findSome? fun e => match e.1 with
    | .tktg d q after => if q = port then some (e.2, d, after) else none
    | _ => none

/-- The answer to a context's oldest TKTG on a port, if it comes now: the tickets of before a roll-back first (R17), then
the ring's next one, or the number `g` that a consumer on another package has granted. One behind a MARK waits (R274). -/
def answerPort (s : State) (k : Nat) (b : Bool) (g : Option Nat) (port : Nat) : Option State :=
  let x := ctxAt s k b
  match tktgOn x port, outCfg x port with
  | some (i, d, after), some c =>
    match (getOut x port).replay with
    | t :: _ => some (grantTicket s k b i d port t true)
    | [] =>
      if after then none
      else if c.peer.chip = s.chip then
        (nextTicket s c.peer (portAt s k b port)).map fun t => grantTicket (countTicket s c.peer) k b i d port t false
      else g.map fun t => grantTicket s k b i d port (t % 65536) false
  | _, _ => none

/-- A TKTG on a port whose ring lies on another package sends its request there, unless an answer is already due. -/
def askTicket (s : State) (k : Nat) (b : Bool) (port : Nat) : Option State :=
  let x := ctxAt s k b
  match outCfg x port with
  | none => none
  | some c =>
    let o := getOut x port
    let n := (x.producers.filter fun p => match p with
      | .tktg _ q after => q == port && !after
      | _ => false).length
    if c.peer.chip = s.chip ∨ n ≤ o.asks + o.replay.length then none
    else some (sendCtl (modCtxAt s k b fun x => modOut x port fun o => { o with asks := o.asks + 1 }) c.peer.chip
      (.ticketAsk c.peer (portAt s k b port)))

/-- What comes next for the TKTGs of a context: an answer on its lowest port that has one, else a request. -/
def answerTktg (s : State) (k : Nat) (b : Bool) (g : Option Nat) : Option State :=
  if posed (ctxAt s k b) then
    match (List.range 8).findSome? (answerPort s k b g) with
    | some s' => some s'
    | none => (List.range 8).findSome? (askTicket s k b)
  else none

/-- A ticket that another package has granted may be delivered: a TKTG awaits it. -/
def ticketDue (s : State) (p : PortAddr) : Bool :=
  let x := ctxAt s p.core p.ctx
  posed x && (getOut x p.port).replay.isEmpty && (match tktgOn x p.port with
    | some (_, _, after) => !after
    | none => false)

/-- A ticket that another package has granted is delivered. -/
def deliverTicket (s : State) (p : PortAddr) (t : Nat) : State :=
  (answerPort (modCtxAt s p.core p.ctx fun x => modOut x p.port fun o => { o with asks := o.asks - 1 })
    p.core p.ctx (some t) p.port).getD s

/-- The next ticket of ring `p` goes to producer `q` of another package, which asks for it (R17). -/
def grantAsk (s : State) (p q : PortAddr) : State :=
  match nextTicket s p q with
  | none => s
  | some t => sendCtl (countTicket s p) q.chip (.ticket q t)

/-- TKTG_GRANT (R17): for a context of this package, or for a producer of another package that asks for a ticket of
the ring at port `g` of the context. -/
def execTktgGrant (k : Nat) (b : Bool) (g : Option Nat) (r : Option PortAddr) (s : State) : Out :=
  .next (
    match r with
    | none => (answerTktg s k b g).getD s
    | some q => grantAsk s (portAt s k b (g.getD 0)) q)

/-! ### Event records (R149) -/

/-- The soft errors of the aligned word at `w` are gone once it has been read again with success (R394). -/
def rereadKey (s : State) (w : Nat) : State := { s with flips := s.flips.filter fun f => f.1 / 64 * 8 != w || f.2 }

/-- An EVPOP of context `b` reads a record of which word `w` fails (R394): while the context runs, a persistent error, or one met
in a rerun, traps MEMERR, and a transient one starts a rerun pair (R396, R398); the record waits until then. -/
def evpopError (s : State) (k : Nat) (b : Bool) (w : Nat) : State :=
  let c := getCore s k
  if c.curator || c.faulted || c.halted || c.running != some b then s
  else if persistent s w || (match (getCtx c b).rerun with
      | .first => true
      | .second _ _ _ => true
      | _ => false) then
    takeTrap s k b ⟨0x0A, 0, false, none, memerrVal 0 (w % 2 ^ 23)⟩
  else startRerun (rereadKey s w) k b

/-- EVPOP_RECORD_FILL (R149): the oldest EVPOP receives the oldest unpopped record. -/
def execEvpopRecordFill (k : Nat) (b : Bool) (s : State) : Out :=
  .next (
    let x := ctxAt s k b
    match x.producers.findIdx? fun p => match p with
      | .evpop _ _ => true
      | _ => false with
    | none => s
    | some i =>
      match x.producers[i]?, x.cfg.evq with
      | some (.evpop d e), some base =>
        if x.evTail ≤ x.evHead + x.evPopped || !posed x then s
        else
          let a := base + 16 * ((x.evHead + x.evPopped) % 256)
          match badWord s (spaceKey k .spad a) 16 with
          | some w => evpopError s k b w
          | none =>
            let r := spRead s k .spad a 16
            let s := modCtxAt (countFixed s (spaceKey k .spad a) 16) k b fun x =>
              { x with producers := x.producers.eraseIdx i, evPopped := x.evPopped + 1 }
            answerX (answerX s k b d (leNat (r.take 8))) k b e (leNat (r.drop 8))
      | _, _ => s)

/-! ### The queue entry (R333) -/

/-- QUEUE_ENTRY (R333): an asynchronous entry at a bundle boundary. -/
def execQueueEntry (k : Nat) (s : State) : Out :=
  .next (
    let c := getCore s k
    if queueDue s k && !budgetDue s k then
      match c.running with
      | some b => enterAsync s k b false 0x20 (issueIndex c) 0
      | none => enterAsync s k false true 0x20 c.kfpc.toNat 0
    else s)

end Sys2Proof.Machine
end

