-- ==== Sys2Proof/Machine/Curator.lean ====
section
/-!
DEFINITION. The system instructions of curator mode (15 R335 to R353). Those that share an encoding share an operation
that reads which of them the operand asks for (R342).
-/
namespace Sys2Proof.Config

/-- The reading of a core's slack at an offset, in 0.5 ps units, by the number of the reading (R466; log entry 2). -/
opaque marginReading : Nat → Nat → Nat → Nat

end Sys2Proof.Config

namespace Sys2Proof.Machine

/-! ### Operands and refusals (R342) -/

/-- Part of the work is refused or skipped. -/
def refuse (s : State) : State := modCore s s.cur fun c => setKflag c 16 true

def curPart (s : State) : Nat := partOf (curCore s)

/-- A core that belongs to another partition; firmware acts on all of them (R341, R342). -/
def foreignCore (s : State) (k : Nat) : Bool := curPart s != 0 && partOf (getCore s k) != curPart s

/-- ILLEGAL for an operand field that must be zero. -/
def operandIllegal (s : State) (i : Instr) : State := raise s 0x01 ((encode i).getD 0)

/-- A freeze that keeps what the instruction has done so far: it goes on from there when it is tried again. -/
def freezeKeep (s : State) (f : Freeze) : State := modScr s fun q => { q with frozen := some f, keep := true }

/-- The core indices of a mask. -/
def maskCores (v : Nat) : List Nat := (List.range 16).filter fun k => bitOf v k

/-! ### Control registers (R337, R338, R343) -/

/-- SHADOWCTL (R338) from the shadow slots. -/
def shadowctlOf (c : Core) : Nat :=
  let f := fun (o : Option Shadow) => match o with
    | some h => (1, b01 h.ctx, h.part % 256)
    | none => (0, 0, 0)
  let a := f c.shadow0
  let b := f c.shadow1
  a.1 + 2 * b.1 + 4 * a.2.1 + 8 * b.2.1 + a.2.2 * 2 ^ 8 + b.2.2 * 2 ^ 16

/-- The control register `n` of core `k`. -/
def readCreg (s : State) (k n : Nat) : Nat :=
  let c := getCore s k
  let p := getPart s (partOf c)
  if n = 0 then c.kstat.toNat
  else if n = 1 then c.kcause.toNat
  else if n = 2 then c.kfpc.toNat
  else if n = 3 then c.kcpc.toNat
  else if n = 4 then c.kval.toNat
  else if n = 5 then c.kvec.toNat
  else if 8 ≤ n ∧ n ≤ 0xB then (c.kscr.getD (n - 8) 0).toNat
  else if n = 0x10 then p.ptbase.toNat
  else if n = 0x11 then c.partid.toNat
  else if n = 0x12 then p.sltctl.toNat
  else if n = 0x13 then p.linkctl.toNat
  else if n = 0x14 then p.hangint.toNat
  else if n = 0x15 then c.budget.toNat
  else if n = 0x16 then p.ctolmin.toNat
  else if n = 0x17 then c.shadowctl.toNat
  else if n = 0x18 then c.margin.toNat
  else if n = 0x19 then c.fqctl.toNat
  else 0

/-- The fields of FQCTL that software writes: base, head and qen. -/
def writeFqctl (old v : Nat) : Nat :=
  setBits (setBits (setBits old 11 12 (bitsOf v 11 12)) 24 6 (bitsOf v 24 6)) 40 1 (bitsOf v 40 1)

/-- Resume at bundle `n` of the share: no pending transfer, no active level (R336). -/
def resumeAt (r : Regs) (n : Nat) : Regs := { r with next := .at n, loops := [] }

/-- MTC to KCPC (R336, R338). An entry with no context, or whose context is gone, has none to resume: only the register
changes (log entry 75). -/
def writeKcpc (s : State) (k v : Nat) : State :=
  let c := { (getCore s k) with kcpc := BitVec.ofNat 13 v }
  if kIdle c || kGone c then setCore s k c
  else
    let c := if kAsync c then setKflag (rollBack c (kCtx c)) 1 false else c
    let n := v % 2 ^ 13
    setCore s k (modCtx c (kCtx c) fun x => { x with copy := resumeAt x.copy n, live := resumeAt x.live n, kcpc := n })

/-- The path monitor of core `k` takes a reading at the offset that MARGIN plans (R338, R466). -/
def readMonitor (s : State) (k : Nat) : State :=
  let m := (getCore s k).margin.toNat
  let r := Config.marginReading k (bitsOf m 16 8) s.counter
  modCore { s with counter := s.counter + 1 } k fun c => { c with margin := BitVec.ofNat 32 (setBits m 0 16 r) }

/-- A write of control register `n` of core `k`: read-only fields keep their values, and so do firmware's fields outside
partition 0 (R338, R5). -/
def writeCreg (s : State) (k n v : Nat) : State :=
  let c := getCore s k
  let part := partOf c
  let fw := part == 0
  if n = 0 then
    let w := setBits c.kstat.toNat 8 5 (bitsOf v 8 5)
    setCore s k { c with kstat := BitVec.ofNat 17 (if bitOf v 16 then setBits w 16 1 0 else w) }
  else if n = 3 then writeKcpc s k v
  else if n = 5 then (if fw then setCore s k { c with kvec := BitVec.ofNat 29 v &&& 0x1FFF1FFF } else s)
  else if 8 ≤ n ∧ n ≤ 0xB then setCore s k { c with kscr := c.kscr.setIfInBounds (n - 8) (BitVec.ofNat 64 v) }
  else if n = 0x10 then modPart s part fun p => { p with ptbase := BitVec.ofNat 56 v &&& 0xFFFFFFFFFF0000 }
  else if n = 0x11 then (if fw then setCore s k { c with partid := BitVec.ofNat 28 v } else s)
  else if n = 0x12 then (if fw then modPart s part fun p => { p with sltctl := BitVec.ofNat 17 v } else s)
  else if n = 0x13 then modPart s part fun p => { p with linkctl := BitVec.ofNat 53 v }
  else if n = 0x14 then modPart s part fun p => { p with hangint := BitVec.ofNat 48 v }
  else if n = 0x15 then setCore s k { c with budget := BitVec.ofNat 32 v }
  else if n = 0x16 then modPart s part fun p => { p with ctolmin := BitVec.ofNat 16 v }
  else if n = 0x18 then
    (if fw then readMonitor (setCore s k { c with margin := BitVec.ofNat 32 (setBits c.margin.toNat 16 8 (bitsOf v 16 8)) }) k else s)
  else if n = 0x19 then
    let s := setCore s k { c with fqctl := BitVec.ofNat 41 (writeFqctl c.fqctl.toNat v) }
    fqDrain s k c.fqPost.length
  else s

/-- Place of a control register among the writes that the end of the bundle makes. -/
def cregPlace (n : Nat) : Nat := 0x1000 + n

/-- MFC (R343), latency 1. -/
def execMfc (d : BitVec 5) (c : BitVec 11) (n : Bool) (p : BitVec 3) (s : State) : Out :=
  .next (slotOp s (.mfc d c n p) fun s => toX s 1 d (BitVec.ofNat 64 (readCreg s s.cur c.toNat)))

/-- A job of the core is outstanding: launched, or behind a released FENCE (R254, R285). -/
def jobsOutstanding (c : Core) : Bool :=
  let held := fun x : Context => x.relq.any fun r => match r.eff with
    | .launch _ _ _ => true
    | _ => false
  !c.jobs.isEmpty || held c.ctxA || held c.ctxB

/-- A control register write, for the bundles that follow (R343). -/
def mtcOp (s : State) (a : BitVec 5) (c : Nat) : State :=
  if (c == 5 || c == 0x10 || c == 0x11 || c == 0x12) && jobsOutstanding (curCore s) then freeze s .jobs
  else modScr s fun q => { q with sregs := q.sregs ++ [(cregPlace c, (rx s a).toNat)] }

/-- MTC (R343). -/
def execMtc (a : BitVec 5) (e : Bool) (c : BitVec 11) (n : Bool) (p : BitVec 3) (s : State) : Out :=
  .next (slotOp s (.mtc a e c n p) fun s => mtcOp s a c.toNat)

/-- MTC to KCPC (R336). -/
def execMtcKcpc (a : BitVec 5) (e : Bool) (n : Bool) (p : BitVec 3) (s : State) : Out :=
  .next (slotOp s (.mtcKcpc a e n p) fun s => mtcOp s a 3)

/-! ### TRET and STOP (R335, R411) -/

/-- The STOP entry of a core whose contexts a stop wave has taken (R411), once the core is in stage mode; of several waves,
one entry after another. -/
def enterStop (s : State) (k : Nat) : State :=
  let c := getCore s k
  match c.stopEntry with
  | [] => s
  | (region, src, b) :: rest =>
    if c.curator then s
    else
      let x := getCtx c b
      enterAsync (setCore s k { c with stopEntry := rest }) k b false 0x0D (nextIndex x x.live.next) (region + src * 2 ^ 16)

/-- TRET (R335): the mode changes at the end of the bundle. -/
def execTret (n : Bool) (p : BitVec 3) (s : State) : Out :=
  .next (slotOp s (.tret n p) fun s => setAct s .ret)

/-- The return itself. A context that a stop took while its trap was served stays stopped (R334, R411). -/
def doReturn (s : State) (k : Nat) : State :=
  let s := modCore s k leaveCurator
  let s := modCore s k fun c =>
    match c.running with
    | some b =>
      let x := getCtx c b
      if x.stopped.isSome ∨ x.status ≠ .running then { c with running := none } else c
    | none => c
  enterStop s k

/-! ### HALT (R344, R398) -/

/-- A context in a rerun pair is taken at its checkpoint, and the pair starts again later (R398). -/
def abandonRerun (s : State) (k : Nat) (b : Bool) : State :=
  match (ctxAt s k b).rerun with
  | .first => setCore s k (modCtx (rollBack (getCore s k) b) b fun x => { x with rerun := .pending, sig := [], bundles := 0 })
  | .second _ _ _ =>
    setCore s k (modCtx (rollBack (getCore s k) b) b fun x => { x with rerun := .pending, sig := [], bundles := 0 })
  | _ => s

/-- Halt core `k`: its running context is taken at its boundary. -/
def haltCore (s : State) (k : Nat) : State :=
  let c := getCore s k
  let s := if c.curator then s else match c.running with
    | some b => abandonRerun s k b
    | none => s
  modCore s k fun c => { c with halted := true }

/-- The core is halted, its Caliper comparison over (R236); one in curator mode counts at once (R334). -/
def isHalted (c : Core) : Bool :=
  c.halted && (c.curator || match c.running with
    | some b => (getCtx c b).mchk.isNone
    | none => true)

/-- HALT, either form. -/
def haltOp (s : State) (i : Instr) (a : BitVec 5) : State :=
  let v := (rx s a).toNat
  if v / 2 ^ 17 ≠ 0 then operandIllegal s i
  else
    let ks := maskCores v
    let own := ks.filter fun k => !foreignCore s k
    let s := if ks.any fun k => foreignCore s k then refuse s else s
    if bitOf v 16 then own.foldl (fun s k => modCore s k fun c => { c with halted := false }) s
    else
      let s := own.foldl haltCore s
      if own.all fun k => isHalted (getCore s k) then s else freezeKeep s .halt

/-- HALT (R344). -/
def execHalt (a : BitVec 5) (e : Bool) (n : Bool) (p : BitVec 3) (s : State) : Out :=
  .next (slotOp s (.halt a e n p) fun s => haltOp s (.halt a e n p) a)

/-- HALT with resume = 1 (R344). -/
def execHaltResume (a : BitVec 5) (e : Bool) (n : Bool) (p : BitVec 3) (s : State) : Out :=
  .next (slotOp s (.haltResume a e n p) fun s => haltOp s (.haltResume a e n p) a)

/-! ### Regions (R345) -/

/-- A context that lies in shadow storage goes on with its region once it is restored (R411). -/
def thawSaved (part num : Nat) (h : Shadow) : Shadow :=
  if h.part = part ∧ h.saved.region = num then { h with saved := { h.saved with stopped := none } } else h

/-- A stopped region goes on from where it was taken, and its ingress reopens (R411). -/
def thawHere (s : State) (part num : Nat) : State :=
  let s := { s with cores := s.cores.map fun c =>
    { c with shadow0 := c.shadow0.map (thawSaved part num), shadow1 := c.shadow1.map (thawSaved part num) } }
  let s := allCtx.foldl (fun s e =>
    if inRegionCtx s part num e.1 e.2 then (modCtxAt s e.1 e.2 fun x => { x with stopped := none, wait := 0, starving := false })
    else s) s
  let drained : Bool := (allCtx.filter fun e => inRegionCtx s part num e.1 e.2).all fun e =>
    (ctxAt s e.1 e.2).status == .drained
  modRegion s part num fun r =>
    { r with phase := if drained && r.wasDrained then .drained else .running, closed := drained && r.wasDrained,
             wasDrained := false, said := false }

/-- The regions that a request names: those of that number in the issuing partition; for firmware, which acts on the
regions of all, in every partition (R341, log entry 70). -/
def namedRegions (s : State) (num : Nat) : List Region :=
  s.regions.filter fun r => r.num == num && (curPart s == 0 || r.part == curPart s)

/-- A request goes to every region that it names; one that names none is refused (R342, R345). -/
def onNamed (s : State) (num : Nat) (f : Region → State → State) : State :=
  match namedRegions s num with
  | [] => refuse s
  | l => l.foldl (fun s r => f r s) s

/-- PSTOP with thaw = 0 on a region (R345). -/
def pstopRegion (r : Region) (s : State) : State :=
  if r.phase = .stopped ∨ r.phase = .stopping then refuse s
  else
    let s := if r.phase = .draining then sendAll s (.drainEnd r.part r.num false) else s
    sendCtl (modRegion s r.part r.num fun r =>
      { r with phase := .stopping, wasDrained := r.phase == .drained, issuer := some s.cur }) r.cfg.homeChip
      (.stopAsk r.part r.num 0)

/-- The partition's tree home has been lost: its regions stay stopped until they are abandoned (R461). -/
def treeLost (s : State) (part : Nat) : Bool :=
  match (getPart s part).params.tree with
  | some (c, _) => s.tree.lost.contains c
  | none => false

/-- PSTOP with thaw may release the region: it is stopped, and neither for a region error, whose recovery or host releases it
(R401), nor with its tree home lost (R461). -/
def mayThaw (s : State) (r : Region) : Bool :=
  r.phase == .stopped && r.source != 2 && r.errors.isEmpty && !r.recover && !treeLost s r.part

/-- PSTOP with thaw = 1 on a region (R345): its home releases it. -/
def thawRegion (r : Region) (s : State) : State :=
  if mayThaw s r then sendCtl s r.cfg.homeChip (.thawAsk r.part r.num) else refuse s

/-- PDRAIN on a region (R345). -/
def drainRegion (r : Region) (s : State) : State :=
  if r.phase = .running ∨ r.phase = .drained then
    sendCtl (modRegion s r.part r.num fun r => { r with phase := .draining, closed := true, said := true, drainer := some s.cur })
      r.cfg.homeChip (.drain r.part r.num)
  else refuse s

/-- PSTOP, either form. -/
def pstopOp (s : State) (i : Instr) (a : BitVec 5) : State :=
  let v := (rx s a).toNat
  if v / 2 ^ 17 ≠ 0 then operandIllegal s i
  else onNamed s (v % 2 ^ 16) (if bitOf v 16 then thawRegion else pstopRegion)

/-- PSTOP (R345). -/
def execPstop (a : BitVec 5) (e : Bool) (n : Bool) (p : BitVec 3) (s : State) : Out :=
  .next (slotOp s (.pstop a e n p) fun s => pstopOp s (.pstop a e n p) a)

/-- PSTOP with thaw = 1 (R345). -/
def execPstopThaw (a : BitVec 5) (e : Bool) (n : Bool) (p : BitVec 3) (s : State) : Out :=
  .next (slotOp s (.pstopThaw a e n p) fun s => pstopOp s (.pstopThaw a e n p) a)

/-- PDRAIN (R345). -/
def execPdrain (a : BitVec 5) (e : Bool) (n : Bool) (p : BitVec 3) (s : State) : Out :=
  .next (slotOp s (.pdrain a e n p) fun s =>
    let v := (rx s a).toNat
    if v / 2 ^ 16 ≠ 0 then operandIllegal s (.pdrain a e n p) else onNamed s v drainRegion)

/-! ### Shadow storage (R346, R347, R416) -/

def getShadow (c : Core) (n : Nat) : Option Shadow := if n = 0 then c.shadow0 else c.shadow1

/-- Fill or clear a shadow slot; SHADOWCTL follows. -/
def setShadow (c : Core) (n : Nat) (h : Option Shadow) : Core :=
  let c := if n = 0 then { c with shadow0 := h } else { c with shadow1 := h }
  { c with shadowctl := BitVec.ofNat 24 (shadowctlOf c) }

/-- An array context that is staged, or placed staged and not armed yet: its array state lies in its slot (R355). -/
def stagedArray (x : Context) : Bool :=
  x.cfg.arrayUse && (x.status == .staged || (x.status == .configured && x.cfg.staged))

/-- The slot that holds the array state of the core's staged array context (R355); a handover passes it on (R367). -/
def arraySlot (c : Core) : Option Nat :=
  if stagedArray c.ctxA then some c.ctxA.cfg.shadow
  else if stagedArray c.ctxB then some c.ctxB.cfg.shadow
  else none

/-- Why a save of context `b` of core `k` to slot `n` is refused (R346, R355, R370). -/
def saveRefused (s : State) (k n : Nat) (b : Bool) : Bool :=
  let c := getCore s k
  let x := getCtx c b
  foreignCore s k || x.status == .empty || x.status == .reserved || (isGang x && (x.firing || x.memberDone))
    || (match getShadow c n with
      | some h => curPart s != 0 && h.part != curPart s
      | none => false)
    || arraySlot c == some n

/-- The entered context was saved or retired (R334). -/
def markGone (s : State) (k : Nat) (b : Bool) : State :=
  if k = s.cur then modCore s k fun c => if kCtx c = b then setKflag c 4 true else c else s

/-- The jobs of a context whose saved state is lost complete without records. -/
def orphanJobs (c : Core) (n : Bool) : Core :=
  { c with jobs := c.jobs.map fun j => if j.saved = some n then { j with silent := true } else j }

/-- Save context `b` of core `k` into slot `n` (R346), which is overwritten; its jobs run on and know where it lies. -/
def saveCtx (s : State) (n : Nat) (b : Bool) (k : Nat) : State :=
  let s := dropShadowFlips (finishMwld (finishProducers s k b) k 64) k n
  let part := curPart s
  let s := modCore s k fun c =>
    let c := orphanJobs c (n == 1)
    let x := getCtx c b
    let acc := if x.cfg.arrayUse then (if stagedArray x then c.stagedAcc else c.acc) else []
    let c := if stagedArray x then { c with stagedAcc := [] } else c
    let c := emptySlot (setShadow c n (some ⟨b, part, x, acc⟩)) b
    { c with jobs := c.jobs.map fun j => if ownJob b j then { j with saved := some (n == 1) } else j }
  markGone s k b

/-- The released effects of a context have performed, but for those behind a suspended job, which stay with it. -/
def effectsOver (c : Core) (b : Bool) : Bool :=
  (getCtx c b).relq.isEmpty || c.jobs.any fun j => j.state == .suspended

/-- CSAVE (R346). -/
def execCsave (a : BitVec 5) (e : Bool) (b : BitVec 5) (f : Bool) (n : Bool) (p : BitVec 3) (s : State) : Out :=
  .next (slotOp s (.csave a e b f n p) fun s =>
    let v := (rx s a).toNat
    let w := (rx s b).toNat
    if v / 2 ^ 17 ≠ 0 ∨ 1 < w then operandIllegal s (.csave a e b f n p)
    else
      let ctx := bitOf v 16
      let ks := maskCores v
      let own := ks.filter fun k => !saveRefused s k w ctx
      let s := if own.length = ks.length then s else refuse s
      let s := own.foldl haltCore s
      if own.all fun k => isHalted (getCore s k) && effectsOver (getCore s k) ctx then own.foldl (saveCtx · w ctx ·) s
      else freezeKeep s .halt)

/-- Why a load of slot `n` of core `k` into context `b` is refused (R347). -/
def loadRefused (s : State) (k n : Nat) (b : Bool) : Bool :=
  let c := getCore s k
  foreignCore s k ||
    match getShadow c n with
    | none => true
    | some h =>
      let g := h.saved.cfg
      let o := getCtx c !b
      (curPart s != 0 && h.part != curPart s) || (getCtx c b).status != .empty
        || (o.status != .empty && shareClash g.first g.size o.cfg.first o.cfg.size)
        || shareClash g.first g.size (kvecBase c) (kvecSize c)
        || (findImage s h.saved.image false).isNone && (findImage s h.saved.image true).isNone

/-- The program of a stage in the image part that its context was applied from. -/
def partProgram (s : State) (x : Context) : List (BitVec 256) :=
  let f := fun fb => (findImage s x.image fb).bind fun p => p.contexts.find? fun g => g.stage == x.cfg.stage && g.core == x.cfg.core
  match f false, f true with
  | some g, _ => g.program
  | none, some g => g.program
  | none, none => x.cfg.program

/-- The fetch buffers of a restored context are not valid (R92). -/
def refetch (r : Regs) : Regs := { r with bt := r.bt.map fun t => { t with fetched := false } }

/-- A persistent error in slot `n` of core `k` loses the context that lies there (R416): a refusal, a Plinth event, and the
loss counts as RETIRE (R399). -/
def loseShadow (s : State) (n k : Nat) (h : Shadow) : State :=
  let part := partOf (getCore s k)
  let s := modCore (refuse s) k fun c => setShadow (orphanJobs c (n == 1)) n none
  dropCells (postEvent (raiseRegion s part h.saved.region 0x22 k) 0x05 k h.saved.region (n + k * 16))

/-- Restore slot `n` of core `k` into context `b` (R347): its share is written again and its planes reloaded. -/
def loadCtx (s : State) (n : Nat) (b : Bool) (k : Nat) : State :=
  match getShadow (getCore s k) n with
  | none => s
  | some h =>
    if shadowBad s k n then loseShadow s n k h
    else
    let s := countShadow s k n
    let x := { h.saved with live := refetch h.saved.live, copy := refetch h.saved.copy, wait := 0 }
    let prog := partProgram s x
    let s := modCore s k fun c =>
      let c := loadShare c x.cfg.first x.cfg.size prog
      let c := { c with arena := c.arena.or x.cfg.arena, jobs := c.jobs.map fun j =>
        if j.saved = some (n == 1) ∧ j.silent = false then { j with saved := none, owner := whoCtx b } else j }
      let c := if x.cfg.arrayUse then (if stagedArray x then { c with stagedAcc := h.acc } else { c with acc := h.acc })
        else c
      setShadow (setCtx c b x) n none
    if x.cfg.arrayUse ∧ stagedArray x = false then reloadPlanes s k b else s

/-- CLOAD (R347). -/
def execCload (a : BitVec 5) (e : Bool) (b : BitVec 5) (f : Bool) (n : Bool) (p : BitVec 3) (s : State) : Out :=
  .next (slotOp s (.cload a e b f n p) fun s =>
    let v := (rx s a).toNat
    let w := (rx s b).toNat
    if v / 2 ^ 17 ≠ 0 ∨ 1 < w then operandIllegal s (.cload a e b f n p)
    else
      let ctx := bitOf v 16
      let ks := maskCores v
      let own := ks.filter fun k => !loadRefused s k w ctx
      let s := if own.length = ks.length then s else refuse s
      own.foldl (loadCtx · w ctx ·) s)

/-! ### Translations (R348) -/

/-- The entry of a TLB is one of those that a TLBI of this kind removes. -/
def tlbHit (kind asid vpn : Nat) (e : TlbEntry) : Bool :=
  kind == 2 || (e.asid.toNat == asid && (kind == 0 || (decide (e.vpn ≤ vpn) && decide (vpn < e.vpn + e.pages))))

/-- The entry of the walker cache is one of them: for kind 1 a leaf that maps the page, large or not. -/
def walkHit (kind asid vpn : Nat) (e : WalkEntry) : Bool :=
  kind == 2 || (e.asid.toNat == asid && (kind == 0 || (e.lvl == 4 && e.hi == vpn)
    || (e.lvl == 3 && bitOf e.entry.toNat 5 && e.hi == vpn / 2 ^ 13)))

/-- A job whose accesses by a removed translation are still to perform. -/
def jobHolds (kind asid : Nat) (j : Job) : Bool :=
  cardVirtual j.bytes && (kind == 2 || j.asid.toNat == asid) && j.state == .running && !j.pend.isEmpty

/-- A host access whose piece, or the walk for it, is on its way by a removed translation (R389). -/
def accHolds (s : State) (kind asid : Nat) (a : HostAcc) : Bool :=
  a.wait && (kind == 2 || (getPart s a.part).params.asid.toNat == asid)

/-- TLBI, each kind: the removals, and the wait for accesses in flight; at each attempt the removals are made again, so that
nothing that a walk under way has read stays (R389). -/
def tlbiOp (s : State) (i : Instr) (a b : BitVec 5) : State :=
  let kind := (rx s a).toNat
  let vpn := (rx s b).toNat
  if 3 ≤ kind ∨ (kind ≠ 1 ∧ vpn ≠ 0) then operandIllegal s i
  else if kind = 2 ∧ curPart s ≠ 0 then refuse s
  else
    let asid := bitsOf (curCore s).partid.toNat 8 16
    let s := (List.range 16).foldl (fun s k =>
      modCore s k fun c => { c with tlb := c.tlb.filter fun e => !tlbHit kind asid vpn e }) s
    let s := { s with wcache := s.wcache.filter fun e => !walkHit kind asid vpn e }
    if (s.cores.any fun c => c.jobs.any (jobHolds kind asid)) || s.accs.any (accHolds s kind asid) then
      freezeKeep s .translations
    else s

/-- TLBI of the current ASID (R348, kind 0). -/
def execTlbiAsid (a : BitVec 5) (e : Bool) (b : BitVec 5) (f : Bool) (n : Bool) (p : BitVec 3) (s : State) : Out :=
  .next (slotOp s (.tlbiAsid a e b f n p) fun s => tlbiOp s (.tlbiAsid a e b f n p) a b)

/-- TLBI of one page (R348, kind 1). -/
def execTlbiPage (a : BitVec 5) (e : Bool) (b : BitVec 5) (f : Bool) (n : Bool) (p : BitVec 3) (s : State) : Out :=
  .next (slotOp s (.tlbiPage a e b f n p) fun s => tlbiOp s (.tlbiPage a e b f n p) a b)

/-- TLBI of every ASID (R348, kind 2). -/
def execTlbiAll (a : BitVec 5) (e : Bool) (b : BitVec 5) (f : Bool) (n : Bool) (p : BitVec 3) (s : State) : Out :=
  .next (slotOp s (.tlbiAll a e b f n p) fun s => tlbiOp s (.tlbiAll a e b f n p) a b)

/-! ### Slot tables (R349, R422) -/

/-- The key of an entry of a slot table. -/
def slotKey (out slot : Nat) : Nat := out * 256 + slot

/-- What a free entry names (R422). -/
def freeSlot : Nat := 0xFF

/-- The share of the issuing partition: first slot and count; firmware's is the whole table. -/
def slotShare (s : State) : Nat × Nat :=
  if curPart s = 0 then (0, 256)
  else
    let v := (getPart s (curPart s)).sltctl.toNat
    (bitsOf v 0 8, bitsOf v 8 9)

/-- A write of one pending entry. -/
def writePending (s : State) (slot out inp : Nat) : State :=
  { s with router := { s.router with pending := tabSet freeSlot s.router.pending (slotKey out slot) inp } }

/-- SLTW, either form. -/
def sltwOp (s : State) (i : Instr) (a b : BitVec 5) : State :=
  let v := (rx s a).toNat
  let inp := (rx s b).toNat
  let slot := bitsOf v 0 8
  let out := bitsOf v 8 8
  let (first, count) := slotShare s
  if bitOf v 16 then
    if v ≠ 2 ^ 16 ∨ inp ≠ 0 then operandIllegal s i
    else match (curCore s).switchWait with
      | some true => modCore s s.cur fun c => { c with switchWait := none }
      | some false => freezeKeep s .slotSwitch
      | none =>
        let s := { s with router := { s.router with commit := s.router.commit ++ [(first, count)] } }
        freezeKeep (modCore s s.cur fun c => { c with switchWait := some false }) .slotSwitch
  else if v / 2 ^ 17 ≠ 0 ∨ 145 < out ∨ 255 < inp ∨ (145 < inp ∧ inp ≠ freeSlot) then operandIllegal s i
  else if slot < first ∨ first + count ≤ slot then refuse s
  else writePending s slot out inp

/-- SLTW (R349). -/
def execSltw (a : BitVec 5) (e : Bool) (b : BitVec 5) (f : Bool) (n : Bool) (p : BitVec 3) (s : State) : Out :=
  .next (slotOp s (.sltw a e b f n p) fun s => sltwOp s (.sltw a e b f n p) a b)

/-- SLTW with commit = 1 (R349). -/
def execSltwCommit (a : BitVec 5) (e : Bool) (b : BitVec 5) (f : Bool) (n : Bool) (p : BitVec 3) (s : State) : Out :=
  .next (slotOp s (.sltwCommit a e b f n p) fun s => sltwOp s (.sltwCommit a e b f n p) a b)

/-- SLOT_TABLE_SWITCH (R349): at the start of a table cycle the pending entries of the committed shares become live, and
every SLTW that waits for the switch may issue. -/
def execSlotTableSwitch (s : State) : Out :=
  .next (
    let r := s.router
    let inShare := fun (key : Nat) => r.commit.any fun c => decide (c.1 ≤ key % 256) && decide (key % 256 < c.1 + c.2)
    let kept := r.slots.filter fun e => !inShare e.1
    let new := r.pending.filter fun e => inShare e.1
    let table := new.foldl (fun t e => tabSet freeSlot t e.1 e.2) kept
    let s := { s with router := { r with slots := table, commit := [] } }
    { s with cores := s.cores.map fun c => if c.switchWait = some false then { c with switchWait := some true } else c })

/-! ### Link keys (R350, R351, R437) -/

/-- The key row of a partition on this package (R437). -/
def rowOf (c : Core) : Nat := if partOf c = 0 then 16 else bitsOf c.partid.toNat 24 4

def getKey (t : Tab KeySlot) (row n : Nat) : KeySlot := tabGet .reset t (row * 2 + n)

def setKey (t : Tab KeySlot) (row n : Nat) (k : KeySlot) : Tab KeySlot := tabSet .reset t (row * 2 + n) k

/-- The active slot of a row. -/
def activeSlot (t : Tab KeySlot) (row : Nat) : Option Nat :=
  [0, 1].find? fun n => (getKey t row n).state == .active

/-- The idle slot of a row: the one that is not active. -/
def idleSlot (t : Tab KeySlot) (row : Nat) : Nat :=
  match activeSlot t row with
  | some n => 1 - n
  | none => 0

/-- LKEY (R350). -/
def execLkey (a : BitVec 5) (e : Bool) (b : BitVec 5) (f : Bool) (n : Bool) (p : BitVec 3) (s : State) : Out :=
  .next (slotOp s (.lkey a e b f n p) fun s =>
    let v := (rx s a).toNat
    let A := (rx s b).toNat
    let row := rowOf (curCore s)
    let l := getLink s (v % 128)
    if v / 2 ^ 8 ≠ 0 then operandIllegal s (.lkey a e b f n p)
    else if A % 32 ≠ 0 then raise s 0x04 (addrVal .spad A)
    else if 2 ^ 23 ≤ A then raise s 0x05 (addrVal .spad A)
    else if l.up = false then refuse s
    else withLoad s .spad (A : Nat) 32 32 fun s bs =>
      let key : KeySlot := ⟨.loaded, BitVec.ofNat 256 (leNat bs), 0, 0⟩
      if bitOf v 7 then
        let i := idleSlot l.rx row
        if (getKey l.rx row i).state = .held then freeze s .key
        else setLink s (v % 128) { l with rx := setKey l.rx row i key }
      else setLink s (v % 128) { l with tx := setKey l.tx row (idleSlot l.tx row) key })

/-- A switch-over marker for link `v` waits among the router's flits under an input number of its own. -/
def markInput (v : Nat) : Nat := 256 + v

/-- The switch-over marker of a partition (R439, R473). -/
def markFlit (s : State) (v part : Nat) : Flit :=
  { dchip := (getLink s v).farChip, schip := s.chip, partition := part, cls := 3, kslot := 0, type := 0x10, length := 0,
    seq := 0, route := 0, payload := [] }

/-- LKSW (R351): the marker is queued; the row's idle transmit slot must have been loaded since the last switch. -/
def execLksw (a : BitVec 5) (e : Bool) (n : Bool) (p : BitVec 3) (s : State) : Out :=
  .next (slotOp s (.lksw a e n p) fun s =>
    let v := (rx s a).toNat
    let row := rowOf (curCore s)
    let l := getLink s v
    if v / 2 ^ 7 ≠ 0 then operandIllegal s (.lksw a e n p)
    else if l.up = false || (activeSlot l.tx row).isNone || (getKey l.tx row (idleSlot l.tx row)).state != .loaded
        || s.router.waiting.any (fun w => w.inp == markInput v && w.flit.partition == curPart s) then refuse s
    else { s with router := { s.router with waiting := s.router.waiting ++ [⟨markInput v, markFlit s v (curPart s), 3⟩] } })

/-! ### Retirement (R352) and job control (R353) -/

/-- A killed job has come to an element boundary: it completes as cancelled (R353). -/
def endKilled (j : Job) : Job :=
  { j with killed := true, cancel := true, err := 7, state := .finished, pend := [], got := [], walk := none }

/-- JKIL on a job: it stops at its next element boundary, so one that has requests under way goes on until their answers
have come; its writes so far remain, and it completes as cancelled. One that is launched and has not started stops at once:
DESIGN CHOICE, R353 speaks of suspended, running and completed jobs (log entry 143). -/
def killJob (j : Job) : Job :=
  match j.state with
  | .suspended => endKilled j
  | .running => if j.pend.isEmpty then endKilled j else { j with killed := true }
  | .queued => endKilled j
  | .finished => j
  | .posting => j

/-- The windows of a context in the scratchpad (R352): rings with their length arrays, the event queue, the state map,
the snapshot area and the data sections of its entry. -/
def ctxWindows (g : StageCfg) : List (Nat × Nat) :=
  (g.ins.map fun e => (e.2.base, roundUp (2 ^ e.2.n * e.2.es) 64 + 2 * 2 ^ e.2.n))
    ++ (match g.evq with
      | some a => [(a, 4096)]
      | none => [])
    ++ (((g.stateMap ++ g.dataMap).filter fun w => w.space == .spad).map fun w => (w.base, w.len))
    ++ (match g.snap with
      | some w => if w.space = .spad then [(w.base, w.len)] else []
      | none => [])

/-- The fabric addresses that a job's card writes, as far as the card gives them: runs of untranslated operands. -/
def fabricRuns (s : State) (k : Nat) (j : Job) : List (Int × Nat) :=
  let at64 := (cField j.bytes 64 16 : Int)
  match j.major with
  | 0x01 =>
    let c := cpyCard j.bytes
    if c.dk = 2 then [stridedRun c.dst c.len c.rows c.ds] else []
  | 0x06 => if cField j.bytes 86 1 = 2 then [(at64, cField j.bytes 84 2)] else []
  | 0x07 => if cField j.bytes 82 1 = 2 then [(at64, 16)] else []
  | 0x08 => (List.range (cField j.bytes 76 2)).map fun i =>
      ((leNat (spRead s k .spad (cField j.bytes 72 4 + 8 * i) 8) : Int), cField j.bytes 68 4)
  | _ => []

/-- A job writes into one of the scratchpad windows `ws` of core `k`: by its write regions as a job of that core, or by
a fabric address, from any core of the package (R352). -/
def writesWindow (s : State) (k : Nat) (ws : List (Nat × Nat)) (k' : Nat) (j : Job) : Bool :=
  let base : Nat := s.chip * 2 ^ 44 + 2 ^ 40 + k * 2 ^ 23
  ws.any fun w =>
    (k' == k && j.regions.any fun r => r.write && fpOverlap r .spad w.1 w.2)
      || (fabricRuns s k' j).any fun r =>
        decide (r.1 < ((base + w.1 + w.2 : Nat) : Int)) && decide (((base + w.1 : Nat) : Int) < r.1 + r.2)

/-- The jobs that the context launched and that are suspended are cancelled. A RETC that waits does this at each attempt, so
that a job which a fault suspends meanwhile is cancelled too: DESIGN CHOICE, R352 names the jobs suspended as it starts (log
entry 144). -/
def killSuspended (c : Core) (b : Bool) : Core :=
  { c with jobs := c.jobs.map fun j => if ownJob b j ∧ j.state = .suspended then killJob j else j }

/-- Everything that retirement of context `b` of core `k` waits for is over: jobs, and effects that will launch them. -/
def retireReady (s : State) (k : Nat) (b : Bool) : Bool :=
  let c := getCore s k
  let x := getCtx c b
  !(c.jobs.any (ownJob b)) && x.relq.isEmpty
    && (List.range 16).all fun k' => !((getCore s k').jobs.any (writesWindow s k (ctxWindows x.cfg) k'))

/-- The context is emptied and its share freed; a region that has not given it up hears of it (R399). -/
def retireCtx (s : State) (k : Nat) (b : Bool) : State :=
  let x := ctxAt s k b
  let part := partOf (getCore s k)
  let lost : Bool := x.status != .empty && x.status != .reserved && x.status != .drained
  let s := releaseRange s k b
  let s := modCore s k fun c =>
    { (emptySlot c b) with stagedAcc := if stagedArray x then [] else c.stagedAcc }
  let s := if lost then raiseRegion s part x.region 0x22 k else s
  markGone (dropCells s) k b

/-- Withdraw a core until the next boot (R352): a Plinth event reports it. -/
def withdraw (s : State) (k : Nat) : State :=
  postEvent (modCore s k fun c => { c with withdrawn := true }) 0x02 k 0 k

/-- RETC, either form. -/
def retcOp (s : State) (i : Instr) (a : BitVec 5) : State :=
  let v := (rx s a).toNat
  if v / 4 ≠ 0 ∨ v = 3 then operandIllegal s i
  else
    let bs := if v = 2 then [false, true] else [v == 1]
    let s := bs.foldl (fun s b => modCore s s.cur fun c => killSuspended c b) s
    if bs.all fun b => retireReady s s.cur b then
      let s := bs.foldl (fun s b => retireCtx s s.cur b) s
      if v = 2 then withdraw s s.cur else s
    else freezeKeep s .jobs

/-- RETC of a context (R352). -/
def execRetc (a : BitVec 5) (e : Bool) (n : Bool) (p : BitVec 3) (s : State) : Out :=
  .next (slotOp s (.retc a e n p) fun s => retcOp s (.retc a e n p) a)

/-- RETC of the core (R352). -/
def execRetcCore (a : BitVec 5) (e : Bool) (n : Bool) (p : BitVec 3) (s : State) : Out :=
  .next (slotOp s (.retcCore a e n p) fun s => retcOp s (.retcCore a e n p) a)

/-- ALIGN and BOUND of a card's address. -/
def cardTrap (A : Nat) : Option (Nat × Nat) :=
  if A % 128 ≠ 0 then some (0x04, addrVal .spad A) else if 2 ^ 23 ≤ A then some (0x05, addrVal .spad A) else none

/-- Apply `f` to the jobs of the issuing core whose card is at `A`. -/
def onCard (s : State) (A : Nat) (f : Job → Job) : State :=
  modCore s s.cur fun c => { c with jobs := c.jobs.map fun j => if j.card = A then f j else j }

/-- A walk from the root of the partition's tables. -/
def startWalk (s : State) (part : Nat) (va : BitVec 80) (acc opnd : Nat) (fresh : Bool) : Walk :=
  ⟨va, acc, opnd, fresh, 0, (getPart s part).ptbase.toNat / 2 ^ 16 * 2 ^ 16, none, false⟩

/-- JRSM (R353): a suspended job goes on from its progress, its translation walked afresh
from the root that PTBASE then names (R377). -/
def execJrsm (a : BitVec 5) (e : Bool) (n : Bool) (p : BitVec 3) (s : State) : Out :=
  .next (slotOp s (.jrsm a e n p) fun s =>
    let A := (rx s a).toNat
    match cardTrap A with
    | some (c, v) => raise s c v
    | none =>
      if (curCore s).jobs.any fun j => j.card == A && j.state == .suspended then
        let st := leNat (actRead s .spad (A + 4) 2)
        let s := writeStatus (noteBefore s .spad (A + 4) 2) s.cur A (setBits st 1 1 0)
        onCard s A fun j =>
          if j.state = .suspended then
            { j with state := .running, walk := j.walk.map fun w => startWalk s j.part w.va w.acc w.opnd true }
          else j
      else s)

/-- JKIL (R353). -/
def execJkil (a : BitVec 5) (e : Bool) (n : Bool) (p : BitVec 3) (s : State) : Out :=
  .next (slotOp s (.jkil a e n p) fun s =>
    let A := (rx s a).toNat
    match cardTrap A with
    | some (c, v) => raise s c v
    | none => onCard s A killJob)

end Sys2Proof.Machine
end

