-- ==== Sys2Proof/Machine/Fabric.lean ====
section
/-!
DEFINITION. Fabric accesses (03 R81, R82): the checks of an address, reads, writes and atomics at their target, and the
request flits that other packages send (19 R420, R431, R432, R435; 20 R450).
-/
namespace Sys2Proof.Config

/-- The bytes of the boot region (R82: firmware-defined; log entry 15). -/
opaque bootExtent : Nat

/-- A byte of the shadow region while shadow slots hold saved contexts, whose layout is private (R346, log entry 16): by
the slots' contents, the offset, and the byte last written there. -/
opaque shadowByte : List (Option Sys2Proof.Machine.Shadow) → Nat → Sys2Proof.Byte → Sys2Proof.Byte

/-- What a write to the shadow region leaves of a saved context (log entry 16). -/
opaque shadowPoke : Nat → Nat → List Sys2Proof.Byte → Option Sys2Proof.Machine.Shadow → Option Sys2Proof.Machine.Shadow

end Sys2Proof.Config

namespace Sys2Proof.Machine

/-! ### Addresses (R81, R82) -/

def faRegion (a : Nat) : Nat := bitsOf a 40 4
def faOff (a : Nat) : Nat := bitsOf a 0 40

/-- The extent of a region (R82). -/
def regionExtent (region : Nat) : Nat :=
  match region with
  | 0 => 2 ^ 31
  | 1 => 2 ^ 27
  | 2 => 2 ^ 31
  | 3 => 2 ^ 24
  | 4 => 48 * 2 ^ 20
  | 5 => Config.bootExtent
  | _ => 0

/-- The run lies inside a region that exists. -/
def inExtent (region off n : Nat) : Bool := decide (region ≤ 5) && decide (off + n ≤ regionExtent region)

/-- The mode of the access reaches the region (R82, R330). -/
def modeReaches (cur : Bool) (part region : Nat) (write : Bool) : Bool :=
  match region with
  | 0 => !write || cur
  | 1 => true
  | 2 => true
  | 3 => cur
  | _ => cur && part == 0

/-- The window address of a region-2 offset lies in the arena of its core. -/
def offInArena (s : State) (off : Nat) : Bool := inArena (getCore s (off / 2 ^ 27)) (off % 2 ^ 27 : Nat)

/-- The error with which the target refuses a run that its source let pass (R82, R435): 0 for none. -/
def targetErr (s : State) (part region off n : Nat) (atomic : Bool) : Nat :=
  if inExtent region off n = false then 0x05
  else if 4 ≤ region then (if part = 0 then 0 else 0x05)
  else if partOf (getCore s (offCore region off)) ≠ part ∨ partOf (getCore s (offCore region (off + n - 1))) ≠ part then 0x06
  else if region = 2 ∧ (offInArena s off && offInArena s (off + n - 1)) = false then 0x05
  else if region = 3 ∧ atomic then 0x05
  else 0

/-! ### Reads and writes at the target -/

/-- The key of a byte of a region: the page arena is the window (R82). -/
def fabKey (region off : Nat) : Nat := if region = 2 then off else region * 2 ^ 40 + off

/-- The saved contexts of the package, slot 0 and slot 1 of each core. -/
def shadowSlots (s : State) : List (Option Shadow) := s.cores.toList.flatMap fun c => [c.shadow0, c.shadow1]

/-- A byte of the accumulator image (R82). -/
def accByte (s : State) (off : Nat) : Byte :=
  BitVec.ofNat 8 (bitsOf (accRow (getCore s (off / 2 ^ 20)) (off / 4096 % 256)).toNat (8 * (off % 4096)) 8)

/-- A byte of the shadow region. -/
def shadowRead (s : State) (off : Nat) : Byte :=
  let b := memByte s (fabKey 4 off)
  if (shadowSlots s).all Option.isNone then b else Config.shadowByte (shadowSlots s) off b

/-- Read a run. -/
def fabRead (s : State) (region off n : Nat) : List Byte :=
  match region with
  | 3 => (List.range n).map fun i => accByte s (off + i)
  | 4 => (List.range n).map fun i => shadowRead s (off + i)
  | _ => memRead s (fabKey region off) n

/-- Write bytes of the accumulator image, with no undo and no span (R82). -/
def accWriteBytes (s : State) (off : Nat) : List Byte → State
  | [] => s
  | b :: bs =>
    let s := modCore s (off / 2 ^ 20) fun c =>
      let r := off / 4096 % 256
      { c with acc := tabSet 0 c.acc r (BitVec.ofNat 32768 (setBits (accRow c r).toNat (8 * (off % 4096)) 8 b.toNat)) }
    accWriteBytes s (off + 1) bs

/-- A write to the shadow region reaches the contexts saved there. -/
def shadowPokeAll (s : State) (off : Nat) (bs : List Byte) : State :=
  { s with cores := s.cores.mapFinIdx fun k c _ =>
      { c with shadow0 := c.shadow0.bind fun h => Config.shadowPoke (2 * k) off bs (some h),
               shadow1 := c.shadow1.bind fun h => Config.shadowPoke (2 * k + 1) off bs (some h) } }

/-- Write a run. -/
def fabWrite (s : State) (region off : Nat) (bs : List Byte) : State :=
  match region with
  | 3 =>
    let s := accWriteBytes s off bs
    { s with flips := if s.flips.isEmpty then s.flips else clearFlips s.flips (fabKey 3 off) bs.length }
  | 4 => memWrite (if (shadowSlots s).all Option.isNone then s else shadowPokeAll s off bs) (fabKey 4 off) bs
  | _ => memWrite s (fabKey region off) bs

/-- The run holds a word whose ECC fails (R394). -/
def fabBad (s : State) (region off n : Nat) : Bool := (badWord s (fabKey region off) n).isSome

/-! ### Atomics (R267, R57) -/

/-- The addend of an exact-cell add on the grid, and the flags XNAN, XINF and XRANGE in bits 0 to 2 (R57). -/
def cellAddend (f : FFmt) (x : Nat) (xbp : Int) : Int × Nat :=
  match fdecode f x with
  | .nan _ _ => (0, 1)
  | .inf _ => (0, 2)
  | .fin neg m e => ((dyToInt .rne ⟨neg, m, e - xbp⟩).1, if m ≠ 0 ∧ xbp + 120 ≤ dyLog ⟨neg, m, e⟩ then 4 else 0)

/-- The format of an exact-cell addend. -/
def cellFmt (afmt : Nat) : FFmt := if afmt = 0 then f32 else f64

/-- A location of `w` bytes after an atomic, and the value returned. -/
def atomicValue (op afmt : Nat) (xbp : Int) (old operand compare : Nat) : Nat × Nat :=
  match op with
  | 0 => ((old + operand) % 2 ^ 64, old)
  | 1 => (intMod 128 ((old : Int) + (cellAddend (cellFmt afmt) operand xbp).1), 0)
  | 2 => (if sextNat 64 operand < sextNat 64 old then operand else old, old)
  | 3 => (if sextNat 64 old < sextNat 64 operand then operand else old, old)
  | 4 => (operand, old)
  | _ => (if old = compare then operand else old, old)

def atomicSize (op : Nat) : Nat := if op = 1 then 16 else 8

/-- An atomic performs at its target. -/
def fabAtomic (s : State) (region off op afmt : Nat) (xbp : Int) (operand compare : Nat) : Nat × State :=
  let n := atomicSize op
  let r := atomicValue op afmt xbp (leNat (fabRead s region off n)) operand compare
  (r.2, fabWrite (countFixed s (fabKey region off) n) region off (natLe n r.1))

/-! ### Records -/

/-- A kind 0x02 record: a request of core `k` was refused at its target (R339). -/
def refusedRecord (k region card code addr : Nat) : BitVec 256 :=
  faultRecord 0x02 k region card (code % 2 ^ 8 + addr % 2 ^ 56 * 2 ^ 64)

/-! ### Requests at their target (R431, R432, R435) -/

def reqAddr (f : Flit) : Nat := f.dchip * 2 ^ 44 + reqRegion f * 2 ^ 40 + reqOff f

/-- An access of this package to its own storage is refused because of its partition: the curator of the core that it names
hears of it (R9, R435). -/
def noteMismatch (s : State) (type part pa code : Nat) : State :=
  let k := offCore (faRegion pa) (faOff pa)
  if code = 6 then postFault s k (mismatchRecord k (mkReq s type part 0 pa [])) else s

/-- A reply of the host tier's endpoint or of this package. -/
def answerFlit (s : State) (f : Flit) (type extra : Nat) (payload : List Byte) : State :=
  routeFlit s 144 { dchip := f.schip, schip := f.dchip, partition := f.partition, cls := 1, kslot := 0, type := type,
                    length := payload.length, seq := f.seq,
                    route := BitVec.ofNat 48 (bitsOf f.route.toNat 0 4 + extra * 256), payload := payload }

/-- The core that a request names; bit 39 of the offset marks a barrier arrival (log entry 9). -/
def targetCore (f : Flit) : Nat := offCore (reqRegion f) (reqOff f % 2 ^ 39)

/-- The refusal of a request, with its record where the partition is wrong (R435). -/
def refuseFlit (s : State) (f : Flit) (code : Nat) : State :=
  let k := targetCore f
  answerFlit (if code = 0x06 then postFault s k (mismatchRecord k f) else s) f 9 code []

/-- The length of the run that a request names. -/
def reqLen (f : Flit) : Nat :=
  match f.type with
  | 4 => leNat (f.payload.take 4)
  | 6 => atomicSize (leNat (f.payload.take 1))
  | _ => f.payload.length

/-- A remote barrier arrival: a write request with bit 39 of its offset set (log entry 9). -/
def isBaraFlit (f : Flit) : Bool := f.type == 3 && bitOf (reqOff f) 39

/-- A field of an atomic request (R420). -/
def atomField (f : Flit) (lo n : Nat) : Nat := leNat ((f.payload.drop lo).take n)

/-- A request performs: the answer's type, its code (0 but for a refusal) and its payload. -/
def performReq (s : State) (f : Flit) : (Nat × Nat × List Byte) × State :=
  let r := reqRegion f
  if isBaraFlit f then
    let o := reqOff f - 2 ^ 39
    let e := if r = 1 then targetErr s f.partition r o 8 false else 5
    if e ≠ 0 then ((9, e, []), s)
    else if o % 8 ≠ 0 then ((9, 4, []), s)
    else ((8, 0, []), arrive s (o / 2 ^ 23) (o % 2 ^ 23) (bitOf (leNat (f.payload.take 1)) 0) false)
  else
    let o := reqOff f
    let n := reqLen f
    let e := targetErr s f.partition r o n (f.type == 6)
    if e ≠ 0 then ((9, e, []), s)
    else match f.type with
      | 3 => ((8, 0, []), fabWrite s r o f.payload)
      | 4 =>
        if fabBad s r o n then ((9, 8, []), s)
        else ((5, 0, fabRead s r o n), countFixed s (fabKey r o) n)
      | _ =>
        if fabBad s r o n then ((9, 8, []), s)
        else
          let a := fabAtomic s r o (atomField f 0 1) (atomField f 1 1) (sextNat 12 (atomField f 2 2)) (atomField f 8 8)
            (atomField f 16 8)
          ((7, 0, natLe 8 a.1), a.2)

/-- A host-tier request becomes a message of the partition's host-tier channel (R450); the answer comes later. -/
def sendPage (s : State) (f : Flit) : State :=
  let ch := (getPart s f.partition).params.channel
  let ans := if f.type = 4 then HostAns.pagerd (reqOff f) (reqLen f) else .pagewr (reqOff f) f.payload
  { s with hostOut := s.hostOut ++ [⟨ch, s.counter, ans⟩], pages := s.pages ++ [⟨s.counter, f⟩], counter := s.counter + 1 }

/-- The host tier takes reads and writes of region 2 (R450). -/
def hostTakes (f : Flit) : Bool := (f.type == 3 || f.type == 4) && !isBaraFlit f && reqRegion f == 2

/-- A request in order at its target. The host tier's answer to one that Plinth carries comes later. -/
def serveReq (s : State) (f : Flit) : State :=
  if f.dchip = hostChip then
    if hostTakes f then sendPage (rxDone s f 0 0 []) f else answerFlit (rxDone s f 9 5 []) f 9 5 []
  else
    let ((ty, code, pay), s) := performReq s f
    let s := rxDone s f ty code pay
    if ty = 9 then refuseFlit s f code else answerFlit s f ty code pay

/-- A reply that comes later than its request performed: the filter of the stream keeps it (R432). -/
def noteReply (s : State) (schip lane seq type code : Nat) (payload : List Byte) : State :=
  let r := findRx s schip lane
  putRx s { r with filter := r.filter.map fun e => if e.1 = seq then (seq, type, code, payload) else e }

/-- A request that has performed before comes again: it does not perform, and its reply is sent again (R432), once there
is one. -/
def serveAgain (s : State) (f : Flit) (type code : Nat) (payload : List Byte) : State :=
  if type = 0 then s else answerFlit s f type code payload

/-- A request flit of type `type` at its target (R432). -/
def requestFlit (s : State) (type : Nat) : State :=
  match takeFlit s [type] with
  | none => s
  | some (f, s) =>
    if partHere s f = false then discardFlit s f
    else
      let r := findRx s f.schip (flitLane f)
      match rxAct r f.seq with
      | .hold => putRx s { r with held := if r.held.any fun g => g.seq == f.seq then r.held else r.held ++ [f] }
      | .again type code payload => serveAgain s f type code payload
      | .drop => discardFlit s f
      | .perform => rxNext (serveReq s f) f.schip (flitLane f)

/-- Write bytes at a fabric address, on this package or another. -/
def writeFabric (s : State) (part num addr : Nat) (bs : List Byte) : State :=
  if faChip addr = s.chip then fabWrite s (faRegion addr) (faOff addr) bs
  else writeRun s part num 16 0 addr .none (bs.length + 1) bs

/-- The same where an image, a stage or a host's request names the address: what a request would be refused (R82) writes
nothing, and the curator of another partition's core hears of it (R9). -/
def storeFabric (s : State) (part num addr : Nat) (bs : List Byte) : State :=
  let e := targetErr s part (faRegion addr) (faOff addr) bs.length false
  if faChip addr = s.chip ∧ e ≠ 0 then noteMismatch s 3 part addr e else writeFabric s part num addr bs

/-- WRITE_REQUEST (R432). -/
def execWriteRequest (s : State) : Out := .next (requestFlit s 3)

/-- READ_REQUEST (R432). -/
def execReadRequest (s : State) : Out := .next (requestFlit s 4)

/-- ATOMIC_REQUEST (R267). -/
def execAtomicRequest (s : State) : Out := .next (requestFlit s 6)

end Sys2Proof.Machine
end

