-- ==== Sys2Proof/Machine/Merge.lean ====
section
/-!
DEFINITION. The scatter-accumulate engine's windows (09 R263) and the key-value merge (09 R273, 11 R296).
-/
namespace Sys2Proof.Machine

/-! ### Scatter-accumulate (R263) -/

/-- The format of an SCA job's floating values. -/
def scaFmt (fmt : Nat) : FFmt := if fmt = 3 then f64 else f32

/-- comb(a, b). -/
def scaComb (op fmt a b : Nat) : Nat :=
  if op = 3 then b
  else if fmt = 9 then
    match op with
    | 0 => (a + b) % 2 ^ 32
    | 1 => if sextNat 32 b < sextNat 32 a then b else a
    | _ => if sextNat 32 a < sextNat 32 b then b else a
  else if op = 0 then (fadd (scaFmt fmt) .rne false a b).1
  else (fminmax (scaFmt fmt) (op == 2) a b).1

/-- The flags XNAN and XINF of a value written. -/
def scaFlags (fmt v : Nat) : Nat :=
  if fmt = 9 then 0 else if fisNan (scaFmt fmt) v then 1 else if fisInf (scaFmt fmt) v then 2 else 0

/-- The target's new value from the values with its index, and the flags raised. -/
def scaTarget (op fmt : Nat) (xbp : Int) (old : Nat) (vs : List Nat) : Nat × Nat :=
  if op = 4 then
    vs.foldl (fun (a : Nat × Nat) v =>
      let q := cellAddend (cellFmt fmt) v xbp
      (intMod 128 ((a.1 : Int) + q.1), a.2 ||| q.2)) (old, 0)
  else match vs with
    | [] => (old, 0)
    | v :: rest =>
      let r := scaComb op fmt old (rest.foldl (scaComb op fmt) v)
      (r, scaFlags fmt r)

/-- A little-endian array of `n` numbers of `z` bytes. -/
def readArr (s : State) (k a z n : Nat) : List Nat :=
  (List.range n).map fun i => leNat (spRead s k .spad (a + z * i) z)

/-- Write a number of `z` bytes. -/
def putNum (s : State) (k a z v : Nat) : State := spWrite s k .spad a (natLe z v)

/-- The swap write-back of one index: the first value receives the old target, each later one its predecessor (R263). -/
def swapBack (k val z : Nat) : List (Nat × Nat) → Nat → State → State
  | [], _, s => s
  | (i, v) :: rest, prev, s => swapBack k val z rest v (putNum s k (val + z * i) z prev)

/-- Apply one index of a window; `els` are its elements, place and value. The flags gather in the second component. DESIGN CHOICE,
R263 does not name the array of which a NaN or infinity is told: for op 3 it is the target, not what is written back (log
entry 157). -/
def scaApply (k op fmt : Nat) (xbp : Int) (dst val z zt : Nat) (els : List (Nat × Nat × Nat)) (st : State × Nat) (j : Nat) :
    State × Nat :=
  let mine := (els.filter fun e => e.2.1 == j).map fun e => (e.1, e.2.2)
  let a := dst + j * zt
  let old := leNat (spRead st.1 k .spad a zt)
  let r := scaTarget op fmt xbp old (mine.map (·.2))
  let s := putNum st.1 k a zt r.1
  (if op = 3 then swapBack k val z mine old s else s, st.2 ||| r.2)

/-! ### Token merging (R273) -/

/-- The format of a page's elements. -/
def pageFmt (kf : Nat) : FFmt :=
  match kf with
  | 0 => f32
  | 1 => bf16
  | 4 => fE4m3
  | _ => fE5m2

/-- A token of the page: its value and key elements and its multiplicity. -/
structure MrgTok where
  vals : List Nat
  keys : List Nat
  mult : Nat
  deriving DecidableEq, Repr, Inhabited

/-- The exact dot product of finite vectors; none when an element is not finite. -/
def mrgDot (f : FFmt) : List Nat → List Nat → Option Dy
  | a :: as, b :: bs =>
    match fdecode f a, fdecode f b, mrgDot f as bs with
    | .fin na ma ea, .fin nb mb eb, some r => some (dyAdd .rne (dyMul ⟨na, ma, ea⟩ ⟨nb, mb, eb⟩) r)
    | _, _, _ => none
  | _, _ => some ⟨false, 0, 0⟩

/-- Compare magnitudes: |x| ≤ |y|. -/
def dyMagLe (x y : Dy) : Bool :=
  let e := if x.exp ≤ y.exp then x.exp else y.exp
  decide ((dyInt x e).natAbs ≤ (dyInt y e).natAbs)

/-- The exact cosine of two keys is at least `thr` (R273); none where it does not exist: a zero or non-finite key, or a
threshold that is a NaN. -/
def cosineAtLeast (f : FFmt) (a b : List Nat) (thr : Nat) : Option Bool :=
  match mrgDot f a b, mrgDot f a a, mrgDot f b b with
  | some d, some aa, some bb =>
    if aa.mant = 0 ∨ bb.mant = 0 then none
    else match fdecode f32 thr with
      | .nan _ _ => none
      | .inf neg => some neg
      | .fin tn tm te =>
        let t : Dy := ⟨tn, tm, te⟩
        let lhs := dyMul d d
        let rhs := dyMul (dyMul t t) (dyMul aa bb)
        let dneg := d.neg && d.mant != 0
        if tn && tm != 0 then some (!dneg || dyMagLe lhs rhs) else some (!dneg && dyMagLe rhs lhs)
  | _, _, _ => none

/-- The multiplicity-weighted mean of two elements, rounded and saturating (R273, R46); none where it does not exist. -/
def mrgMean (f : FFmt) (n m : Int) (a b : Nat) : Option Nat :=
  match fdecode f a, fdecode f b with
  | .fin na ma ea, .fin nb mb eb =>
    let t := n + m
    if t = 0 then none
    else
      let d := dyAdd .rne (dyMul (dyOfInt n 0) ⟨na, ma, ea⟩) (dyMul (dyOfInt m 0) ⟨nb, mb, eb⟩)
      let neg := xor d.neg (decide (t < 0))
      let q : Dy := if d.mant = 0 then ⟨neg, 0, 0⟩ else dyQuot 400 neg d.mant t.natAbs d.exp
      some (if f.w = 8 then (toFloat8 f false .rne (.fin q.neg q.mant q.exp)).1 else (roundTo f .rne q).1)
  | _, _ => none

/-- A mean, or a free value where none exists (log entry 18). -/
def mrgElem (f : FFmt) (n m : Int) (c : Nat) (a b : Nat) : Nat :=
  (mrgMean f n m a b).getD (Config.pick c % 2 ^ f.w)

/-- Two tokens merged. -/
def mrgPair (f : FFmt) (c : Nat) (a b : MrgTok) : MrgTok :=
  let n := sextNat 32 a.mult
  let m := sextNat 32 b.mult
  { vals := (List.range a.vals.length).map fun i => mrgElem f n m (c + 1 + i) (a.vals.getD i 0) (b.vals.getD i 0),
    keys := (List.range a.keys.length).map fun i =>
      mrgElem f n m (c + 1 + a.vals.length + i) (a.keys.getD i 0) (b.keys.getD i 0),
    mult := (a.mult + b.mult) % 2 ^ 32 }

/-- The scan (R273): each pair tried uses free values from `c` on where the spec gives none. -/
def mrgScan (f : FFmt) (thr : Nat) : Nat → List MrgTok → List MrgTok
  | c, a :: b :: rest =>
    let step := 1 + a.vals.length + a.keys.length
    if (cosineAtLeast f a.keys b.keys thr).getD (Config.pick c % 2 == 1) then
      mrgPair f c a b :: mrgScan f thr (c + step) rest
    else a :: mrgScan f thr (c + step) (b :: rest)
  | _, l => l

/-- ln of a positive number as a dyadic. -/
def lnDy (n : Nat) : Dy :=
  let l := Nat.log2 n
  if n ≤ 1 then ⟨false, 0, 0⟩
  else
    let z := (n - 2 ^ l) * 2 ^ fxP / (n + 2 ^ l)
    stickyFx false (l * ln2Const / 2 ^ (400 - fxP) + 2 * atanhSum 110 (z * z / 2 ^ fxP) 1 z)

/-- bias = round_to(ln n, FP32, RNE); a multiplicity that is not positive has no logarithm (log entry 18). -/
def mrgBias (c mult : Nat) : Nat :=
  let n := sextNat 32 mult
  if n ≤ 0 then Config.pick c % 2 ^ 32 else (roundTo f32 .rne (lnDy n.toNat)).1

/-- The fields of a merge card. -/
structure MrgCard where
  slot : Nat
  n    : Nat
  hd   : Nat
  kf   : Nat
  thr  : Nat
  mult : Nat
  bias : Nat
  deriving DecidableEq, Repr

def mrgCard (bs : List Byte) : MrgCard :=
  ⟨cField bs 64 4, cField bs 68 2, cField bs 70 2, cField bs 72 1, cField bs 76 4, cField bs 80 4, cField bs 84 4⟩

/-- The window address of element `i` of token `t`'s value, and of its key (R296). -/
def valAddr (c : MrgCard) (t i : Nat) : Nat := c.slot + (t * 1024 + i) * mrgSize c.kf
def keyAddr (c : MrgCard) (p t i : Nat) : Nat := c.slot + (p * 1024 + i * p + t) * mrgSize c.kf

def readTok (s : State) (k p : Nat) (c : MrgCard) (t : Nat) : MrgTok :=
  { vals := (List.range c.hd).map fun i => leNat (spRead s k .win (valAddr c t i) (mrgSize c.kf)),
    keys := (List.range c.hd).map fun i => leNat (spRead s k .win (keyAddr c p t i) (mrgSize c.kf)),
    mult := leNat (spRead s k .spad (c.mult + 4 * t) 4) }

def writeTok (s : State) (k p : Nat) (c : MrgCard) (t : Nat) (x : MrgTok) (bias : Nat) : State :=
  let z := mrgSize c.kf
  let s := (List.range c.hd).foldl (fun s i =>
    spWrite (spWrite s k .win (valAddr c t i) (natLe z (x.vals.getD i 0))) k .win (keyAddr c p t i)
      (natLe z (x.keys.getD i 0))) s
  putNum (putNum s k (c.mult + 4 * t) 4 x.mult) k (c.bias + 4 * t) 4 bias

/-- The merge of a page: the new token count and the state. The tail of each array is zeroed. -/
def mergePage (s : State) (k p : Nat) (c : MrgCard) : Nat × State :=
  let toks := (List.range c.n).map (readTok s k p c)
  let out := mrgScan (pageFmt c.kf) c.thr s.counter toks
  let c0 := s.counter + c.n * (1 + 2 * c.hd)
  let s := { s with counter := c0 + c.n }
  let s := (List.range c.n).foldl (fun s t =>
    match out[t]? with
    | some x => writeTok s k p c t x (mrgBias (c0 + t) x.mult)
    | none => writeTok s k p c t ⟨[], [], 0⟩ 0) s
  (out.length, s)

end Sys2Proof.Machine
end

