-- ==== Sys2Proof/Machine/Walk.lean ====
section
/-!
DEFINITION. The address walker (17 R376 to R383): the walk of the five tables, its cache, and each copy engine's TLB.
-/
namespace Sys2Proof.Machine

/-! ### Table entries (R378 to R380) -/

/-- The lowest VA bit that indexes a level (R376). -/
def vaShift (lvl : Nat) : Nat :=
  match lvl with
  | 0 => 68
  | 1 => 55
  | 2 => 42
  | 3 => 29
  | _ => 16

/-- The VA bits from a level's index up. -/
def vaHigh (va lvl : Nat) : Nat := va / 2 ^ vaShift lvl

def vaIndex (va lvl : Nat) : Nat := vaHigh va lvl % (if lvl = 0 then 2 ^ 12 else 2 ^ 13)

def eValid (e : Nat) : Bool := bitOf e 0
def eRead (e : Nat) : Bool := bitOf e 1
def eWrite (e : Nat) : Bool := bitOf e 2
def eAccessed (e : Nat) : Bool := bitOf e 3
def eDirty (e : Nat) : Bool := bitOf e 4
def eLarge (e : Nat) : Bool := bitOf e 5
def eTier (e : Nat) : Nat := bitsOf e 6 2
/-- The fabric address of the next table or of the page. -/
def eFrame (e : Nat) : Nat := bitsOf e 16 40 * 2 ^ 16

/-- An entry of level `lvl` is a leaf. -/
def eLeaf (lvl e : Nat) : Bool := lvl == 4 || eLarge e

/-- A valid entry is malformed (R379). -/
def eMalformed (lvl e : Nat) : Bool :=
  bitsOf e 8 8 != 0 || (eLarge e && lvl != 3) || (!eLeaf lvl e && bitsOf e 1 7 != 0)
    || (eLeaf lvl e && eTier e == 3) || (eLarge e && bitsOf e 16 13 != 0)

/-- The tier of a leaf agrees with its frame, for a core of this package (R380). -/
def tierOk (s : State) (e : Nat) : Bool :=
  let chip := faChip (eFrame e)
  match eTier e with
  | 0 => chip == s.chip
  | 1 => chip != s.chip && chip != hostChip
  | _ => chip == hostChip && faRegion (eFrame e) == 2

/-- A leaf permits an access: 1 read, 2 write, 3 both. -/
def ePermits (acc e : Nat) : Bool := (!bitOf acc 0 || eRead e) && (!bitOf acc 1 || eWrite e)

/-- A leaf as a walk that uses it leaves it (R383). -/
def eUsed (acc e : Nat) : Nat :=
  let e := setBits e 3 1 1
  if bitOf acc 1 then setBits e 4 1 1 else e

/-- The physical address that a leaf of level `lvl` gives (R377). -/
def leafAddr (lvl e va : Nat) : Nat := eFrame e + va % (if lvl = 3 then 2 ^ 29 else 2 ^ 16)

/-! ### The walk (R377, R381 to R383) -/

/-- Keep an entry in the walker cache of 4096. -/
def cacheEntry (s : State) (asid : BitVec 16) (w : Walk) (e : Nat) : State :=
  let hi := vaHigh w.va.toNat w.lvl
  let l := (s.wcache.filter fun c => !(c.asid == asid && c.lvl == w.lvl && c.hi == hi)) ++ [⟨asid, w.lvl, hi, BitVec.ofNat 64 e⟩]
  { s with wcache := l.drop (l.length - 4096) }

def cachedEntry (s : State) (asid : BitVec 16) (w : Walk) : Option WalkEntry :=
  s.wcache.find? fun c => c.asid == asid && c.lvl == w.lvl && c.hi == vaHigh w.va.toNat w.lvl

/-- A walk has read an entry that it cannot use: what the cache held there is dropped (R382). -/
def dropEntry (s : State) (asid : BitVec 16) (w : Walk) : State :=
  let hi := vaHigh w.va.toNat w.lvl
  { s with wcache := s.wcache.filter fun c => !(c.asid == asid && c.lvl == w.lvl && c.hi == hi) }

/-- How a walk ends, or what it needs from another package: an entry to be read, or one to be updated. -/
inductive WalkOut where
  | leaf (e : Nat)
  | fault (code : Nat)
  | bad
  | farRead (addr : Nat)
  | farSwap (addr old new : Nat)
  deriving DecidableEq, Repr

/-- The address of the entry that a walk reads. -/
def entryOf (w : Walk) : Nat := w.tbl + 8 * vaIndex w.va.toNat w.lvl

abbrev WalkRes := WalkOut × Walk × State

/-- A leaf has been found; `cached` says that it comes from the cache. -/
def takeLeaf (s : State) (part : Nat) (asid : BitVec 16) (w : Walk) (e : Nat) (cached : Bool)
    (again : State → Walk → WalkRes) : WalkRes :=
  if tierOk s e = false then (.fault 4, w, dropEntry s asid w)
  else if ePermits w.acc e = false then
    (if w.fresh then (.fault 2, w, cacheEntry s asid w e) else again s (startWalk s part w.va w.acc w.opnd true))
  else
    let u := eUsed w.acc e
    if u = e then (.leaf e, w, if cached then s else cacheEntry s asid w e)
    else if cached then again s (startWalk s part w.va w.acc w.opnd true)
    else
      let a := entryOf w
      if faChip a = s.chip then (.leaf u, w, cacheEntry (fabWrite s (faRegion a) (faOff a) (natLe 8 u)) asid w u)
      else (.farSwap a e u, { w with leaf := some (BitVec.ofNat 64 e), wait := true }, s)

/-- An entry has been read or found in the cache. -/
def takeEntry (s : State) (part : Nat) (asid : BitVec 16) (w : Walk) (e : Nat) (cached : Bool)
    (again : State → Walk → WalkRes) : WalkRes :=
  if eValid e = false then (.fault 1, w, dropEntry s asid w)
  else if eMalformed w.lvl e then (.fault 3, w, dropEntry s asid w)
  else if eLeaf w.lvl e then takeLeaf s part asid w e cached again
  else again (if cached then s else cacheEntry s asid w e) { w with lvl := w.lvl + 1, tbl := eFrame e }

/-- Walk on, at most `n` levels. -/
def walkOn (part : Nat) (asid : BitVec 16) : Nat → State → Walk → WalkRes
  | 0, s, w => (.fault 5, w, s)
  | n + 1, s, w =>
    match (if w.fresh then none else cachedEntry s asid w) with
    | some c => takeEntry s part asid w c.entry.toNat true (walkOn part asid n)
    | none =>
      let a := entryOf w
      let r := faRegion a
      if (r ≠ 1 ∧ r ≠ 2) ∨ faChip a = hostChip ∨ inExtent r (faOff a) 8 = false then (.fault 5, w, s)
      else if faChip a = s.chip then
        if targetErr s part r (faOff a) 8 false ≠ 0 then (.fault 5, w, s)
        else if fabBad s r (faOff a) 8 then (.bad, w, s)
        else takeEntry (countFixed s (fabKey r (faOff a)) 8) part asid w (leNat (fabRead s r (faOff a) 8)) false
          (walkOn part asid n)
      else (.farRead a, { w with wait := true }, s)

/-- The walks that are open: those that await another package, with their ASIDs (R381). -/
def openWalks (s : State) : List (BitVec 16 × Walk) :=
  (s.cores.toList.flatMap fun c => c.jobs.filterMap fun j => j.walk.map fun w => (j.asid, w))
    ++ (s.accs.filterMap fun a => a.walk.map fun w => ((getPart s a.part).params.asid, w))
  |>.filter fun e => e.2.wait

/-- Two walks are for one page and ASID. -/
def samePage (a : BitVec 16) (w : Walk) (e : BitVec 16 × Walk) : Bool :=
  e.1 == a && vaHigh e.2.va.toNat 4 == vaHigh w.va.toNat 4

/-- A walk may go on: at most 32 are open at once, and one for a page that an open walk translates merges with it, which
is to wait for its end (R381). -/
def mayWalk (s : State) (asid : BitVec 16) (w : Walk) : Bool :=
  !w.wait && decide ((openWalks s).length < 32) && !(openWalks s).any (samePage asid w)

/-- Merged walks take what the walk that has ended read: they need not read it afresh. -/
def mergeWalks (s : State) (asid : BitVec 16) (w : Walk) : State :=
  let f := fun (a : BitVec 16) (v : Walk) => if samePage asid w (a, v) then { v with fresh := false } else v
  { s with cores := s.cores.map fun c => { c with jobs := c.jobs.map fun j => { j with walk := j.walk.map (f j.asid) } },
           accs := s.accs.map fun a => { a with walk := a.walk.map (f (getPart s a.part).params.asid) } }

/-- A bound on the levels that one walk and its fresh repetitions read. -/
def walkFuel : Nat := 32

/-- Another package has answered a walk: with an entry, or with what an update found there (R383: a changed entry starts
the walk again). -/
def walkGot (s : State) (part : Nat) (asid : BitVec 16) (w : Walk) (v : Nat) : WalkRes :=
  let w' := { w with wait := false, leaf := none }
  match w.leaf with
  | none => takeEntry s part asid w' v false (walkOn part asid walkFuel)
  | some e =>
    if v = e.toNat then
      let u := eUsed w.acc v
      (.leaf u, w', cacheEntry s asid w' u)
    else walkOn part asid walkFuel s (startWalk s part w.va w.acc w.opnd true)

/-! ### Answers to the host -/

/-- Answer a request of the host: the reply carries its channel and request number (R444). -/
def replyHost (s : State) (asker : Nat × Nat) (a : HostAns) : State := { s with hostOut := s.hostOut ++ [⟨asker.1, asker.2, a⟩] }

/-- A host access ends with this answer. -/
def endAcc (s : State) (a : HostAcc) (ans : HostAns) : State :=
  replyHost { s with accs := s.accs.filter fun b => b.id != a.id } a.reply ans

def failAcc (s : State) (a : HostAcc) (reason v : Nat) : State := endAcc s a (.error reason (BitVec.ofNat 64 v))

/-- An uncorrectable error under a host access: R448 names no reason for it, so the reason is free (log entry 19). -/
def badAcc (s : State) (a : HostAcc) : State :=
  let (n, s) := freshPick s
  failAcc s a (n % 256) 0

/-! ### The TLB of a copy engine (R381) -/

def tlbFind (c : Core) (asid : BitVec 16) (va : Nat) : Option TlbEntry :=
  c.tlb.find? fun e => e.asid == asid && decide (e.vpn ≤ va / 2 ^ 16) && decide (va / 2 ^ 16 < e.vpn + e.pages)

/-- The translation that a cached leaf gives an access; a write needs dirty set already (R383). -/
def tlbAddr (e : TlbEntry) (acc va : Nat) : Option Nat :=
  if ePermits acc e.entry.toNat && (!bitOf acc 1 || eDirty e.entry.toNat) then
    some (leafAddr (if e.pages = 1 then 4 else 3) e.entry.toNat va)
  else none

/-- A walk has ended in a fault: the engine's leaf for the page goes (R382). -/
def tlbDrop (c : Core) (asid : BitVec 16) (va : Nat) : Core :=
  { c with tlb := c.tlb.filter fun e =>
      !(e.asid == asid && decide (e.vpn ≤ va / 2 ^ 16) && decide (va / 2 ^ 16 < e.vpn + e.pages)) }

/-- Keep a leaf among the 256. -/
def tlbKeep (c : Core) (asid : BitVec 16) (va lvl e : Nat) : Core :=
  let n := if lvl = 3 then 2 ^ 13 else 1
  let vpn := va / 2 ^ vaShift lvl * n
  let l := (c.tlb.filter fun t => !(t.asid == asid && overlaps t.vpn t.pages vpn n)) ++ [⟨asid, vpn, n, BitVec.ofNat 64 e⟩]
  { c with tlb := l.drop (l.length - 256) }

end Sys2Proof.Machine
end

