-- ==== Sys2Proof/Machine/Jobs.lean ====
section
/-!
DEFINITION. Engine jobs (09 R254 to R273): when a job starts, what each engine does, translation faults (17 R385),
and completion (09 R257). A job runs in one step up to the first answer that it awaits.
-/
namespace Sys2Proof.Config

/-- How prefix requests and replies carry more than the card's operation fields and the result is not given (R420, log
entry 17): what follows these in a payload, and the request or reply that a payload makes. -/
opaque prefixReqTail : Sys2Proof.Machine.PrefixReq → List Sys2Proof.Byte
opaque readPrefixReq : List Sys2Proof.Byte → Option Sys2Proof.Machine.PrefixReq
opaque prefixRepTail : Sys2Proof.Machine.PrefixRep → List Sys2Proof.Byte
opaque readPrefixRep : List Sys2Proof.Byte → Option Sys2Proof.Machine.PrefixRep

/-- A count that an addition carries out of its 32 bits: the spec states no result (R302, log entry 113). -/
opaque lpidCount : Int → BitVec 32

end Sys2Proof.Config

namespace Sys2Proof.Machine

def findJob (s : State) (k id : Nat) : Option Job := (getCore s k).jobs.find? fun j => j.id == id

def modJob (s : State) (k id : Nat) (f : Job → Job) : State :=
  modCore s k fun c => { c with jobs := c.jobs.map fun j => if j.id = id then f j else j }

/-- A job's operation has ended. -/
def finishJob (s : State) (k id err : Nat) (result : Word) : State :=
  modJob s k id fun j =>
    { j with state := .finished, err := err, result := result, pend := [], got := [], walk := none }

def addFlags (j : Job) (fl : Nat) : Job := { j with xflags := j.xflags ||| BitVec.ofNat 3 fl }

/-! ### Starting (R254, R255) -/

/-- The engine of a major: copy, scatter-accumulate, prefix, merge (R255). -/
def engineOf (major : Nat) : Nat :=
  match major with
  | 0x02 => 1
  | 0x10 => 3
  | m => if 0x0B ≤ m then 2 else 0

/-- Two footprints overlap and at least one of the jobs writes there (R254). -/
def fpConflict (a b : Job) : Bool :=
  a.regions.any fun r => b.regions.any fun q =>
    (r.write || q.write) && r.space == q.space && overlaps r.start r.len q.start q.len

/-- A store of the core released before the job, and overlapping a region of it, has not performed; nor has a BARI of
the barrier on which the job arrives, a launch whose card it overlaps, a TSEND whose bytes it would write (R104:
effects are released in program order), or a remote BARA to a chip that the job may reach in class 0 (R279, R291). -/
def storeBefore (c : Core) (j : Job) : Bool :=
  (relQueues c).flatten.any fun e => decide (e.seq < j.seq) &&
    (match e.eff with
      | .store sp a bs => j.regions.any fun r => fpOverlap r sp a bs.length
      | .send _ _ a n _ none => j.regions.any fun r => r.write && fpOverlap r .spad a (16 + n)
      | .launch _ card _ => j.regions.any fun r => fpOverlap r .spad card 128
      | .bari a _ => (cardBarrier j.bytes && a == cardBarAddr j.bytes) || j.regions.any fun r => fpOverlap r .spad a 8
      | .barError a => j.regions.any fun r => fpOverlap r .spad a 8
      | .bara a _ => bitOf a.toNat 63 && j.cls == 0 && j.err == 0 && mayReach j (bitsOf a.toNat 44 12)
      | _ => false)

/-- A FENCE released before the job by its own context still waits (R285). -/
def fenceBefore (c : Core) (j : Job) : Bool :=
  let q := match j.saved, j.owner with
    | some n, _ => (match getShadow c (b01 n) with
      | some h => h.saved.relq
      | none => [])
    | none, .a => c.ctxA.relq
    | none, .b => c.ctxB.relq
    | none, .cur => []
  q.any fun e => decide (e.seq < j.seq) &&
    (match e.eff with
      | .fence _ _ _ => true
      | _ => false)

/-- The launches of a core that FENCEs hold back, as jobs in the places of their release: each is in flight from then on
(R280). -/
def heldJobs (s : State) (k : Nat) : List Job :=
  let c := getCore s k
  let of : Who → Context → List Job := fun w x => x.relq.filterMap fun r => match r.eff with
    | .launch major card _ =>
      some { makeJob s k w major card (releasedAt s k x.relq r.seq card 128) with id := r.seq, seq := r.seq }
    | _ => none
  of .a c.ctxA ++ of .b c.ctxB ++ (match c.shadow0 with
    | some h => of (whoCtx h.ctx) h.saved
    | none => []) ++ (match c.shadow1 with
    | some h => of (whoCtx h.ctx) h.saved
    | none => [])

/-- The jobs of a core in flight before this one. -/
def jobsBefore (s : State) (k : Nat) (j : Job) : List Job :=
  ((getCore s k).jobs ++ heldJobs s k).filter fun i => decide (i.seq < j.seq)

/-- The regions of the stage jobs in the footprint table before this one, and its own, overflow its 32 entries (R80); the
curator's have entries of their own (R329). -/
def tableFull (s : State) (k : Nat) (j : Job) : Bool :=
  let before := (jobsBefore s k j).filter fun i => i.err != 1 && i.owner != .cur
  j.owner != .cur && decide (32 < (before.map jobEntries).foldl (· + ·) 0 + jobEntries j)

/-- The fabric accesses of two jobs may go to one chip in one class (R279). -/
def fabricEdge (i j : Job) : Bool :=
  i.cls == j.cls && i.err == 0 && j.err == 0 && (match jobChips i, jobChips j with
    | some a, some b => a.any fun c => b.contains c
    | some [], none => false
    | none, some [] => false
    | _, _ => true)

/-- The fabric accesses of job `i` come before those of job `j`, and it has not made them all (R279, R291, log
entry 111). -/
def fabricFirst (i j : Job) : Bool := i.state != .finished && i.state != .posting && fabricEdge i j

/-- Footprint edges, a full table or an earlier effect hold the job (R254). A malformed card waits for no job, but for the
stores and the clearing of its status before it. -/
def jobHeld (s : State) (k : Nat) (j : Job) : Bool :=
  (j.err != 1 && (((jobsBefore s k j).any fun i => fpConflict i j || fabricFirst i j) || tableFull s k j))
    || storeBefore (getCore s k) j || fenceBefore (getCore s k) j

/-- The job may start now: jobs of one engine start in order unless edges hold them (R255). -/
def mayStart (s : State) (k : Nat) (j : Job) : Bool :=
  j.state == .queued && !jobHeld s k j
    && !((getCore s k).jobs.any fun i => decide (i.seq < j.seq) && i.state == .queued
      && engineOf i.major == engineOf j.major && !jobHeld s k i)

/-! ### Accesses of a job -/

/-- A local run read, or error 0x08 (R394). -/
def withJobRead (s : State) (k : Nat) (j : Job) (sp : Space) (a n : Nat) (body : State → List Byte → State) : State :=
  if (badWord s (spaceKey k sp a) n).isSome then finishJob s k j.id 8 0
  else body (countFixed s (spaceKey k sp a) n) (spRead s k sp a n)

/-- What the source checks of a fabric run (R82). -/
def sourceErr (j : Job) (pa n : Nat) (write : Bool) : Nat :=
  if 6 ≤ faRegion pa then 5
  else if modeReaches (j.owner == .cur) j.part (faRegion pa) write = false then 5
  else if faChip pa ≠ hostChip ∧ inExtent (faRegion pa) (faOff pa) n = false then 5
  else 0

/-- A request of the job is refused at its target: the curator hears of it (R339). -/
def refusedAt (s : State) (k : Nat) (j : Job) (code pa : Nat) : State :=
  let s := if faChip pa = s.chip then noteMismatch s 3 j.part pa code else s
  postFault s k (refusedRecord k j.region j.card code pa)

/-- Send a request of a job; without a way the job ends with error 0x09 (R433). -/
def sendJobReq (s : State) (k : Nat) (j : Job) (type pa : Nat) (payload : List Byte) (idx n : Nat) : State :=
  if routable s (mkReq s type j.part j.cls pa payload) = false then finishJob s k j.id 9 0
  else
    sendReq (modJob s k j.id fun j => { j with pend := j.pend ++ [(idx, n)] }) type j.part j.region k j.cls pa payload
      (.job k j.id idx)

/-- The physical address of a fabric operand: none when a walk is needed, which the job then awaits (R382, R384). -/
def withPlace (s : State) (k : Nat) (j : Job) (kind addr acc opnd : Nat) (body : State → Nat → State) : State :=
  if kind = 2 then body s addr
  else
    let e := tlbFind (getCore s k) j.asid addr
    match e.bind fun e => tlbAddr e acc addr with
    | some pa => body s pa
    | none => modJob s k j.id fun j => { j with walk := some (startWalk s j.part (BitVec.ofNat 80 addr) acc opnd e.isSome) }

/-- Check a fabric run and either act on this package's storage or ask its target. -/
def farAccess (s : State) (k : Nat) (j : Job) (pa n : Nat) (write atomic : Bool) (here : State → State)
    (there : State → State) : State :=
  let e := sourceErr j pa n write
  if e ≠ 0 then finishJob s k j.id e 0
  else if faChip pa ≠ s.chip then there s
  else
    let t := targetErr s j.part (faRegion pa) (faOff pa) n atomic
    if t ≠ 0 then finishJob (refusedAt s k j t pa) k j.id t 0
    else if (!write || atomic) && fabBad s (faRegion pa) (faOff pa) n then finishJob s k j.id 8 0
    else here s

/-- Read a fabric run; an answer from elsewhere comes under place 0. -/
def farRead (s : State) (k : Nat) (j : Job) (kind addr n opnd : Nat) (body : State → List Byte → State) : State :=
  withPlace s k j kind addr 1 opnd fun s pa =>
    farAccess s k j pa n false false
      (fun s => body (countFixed s (fabKey (faRegion pa) (faOff pa)) n) (fabRead s (faRegion pa) (faOff pa) n))
      (fun s => sendJobReq s k j 4 pa (natLe 4 n) 0 n)

/-- Write a fabric run; the acknowledgement from elsewhere comes under place 1. -/
def farWrite (s : State) (k : Nat) (j : Job) (kind addr opnd : Nat) (bs : List Byte) (body : State → State) : State :=
  withPlace s k j kind addr 2 opnd fun s pa =>
    farAccess s k j pa bs.length true false
      (fun s => body (fabWrite s (faRegion pa) (faOff pa) bs))
      (fun s => sendJobReq s k j 3 pa bs 1 bs.length)

/-- The bytes of a run, up to the end of their page, that travel as one flit. A run, or a part of it in one page, of fewer than 8 bytes travels as it is:
DESIGN CHOICE, R420 gives requests 8 bytes or more and no form for less (log entry 145). -/
def pieceLen (kind addr n : Nat) : Nat :=
  flitLen addr (if kind = 3 then Nat.min n (2 ^ 16 - addr % 2 ^ 16) else n)

/-- A strided fabric or virtual address: virtual ones wrap at 2^80; a fabric one outside 56 bits exists nowhere. -/
def farAddr (kind : Nat) (a : Int) : Option Nat :=
  if kind = 3 then some (intMod 80 a) else if 0 ≤ a ∧ a < ((2 ^ 56 : Nat) : Int) then some a.toNat else none

/-- What the checks of an untranslated fabric run find before any of it is accessed (R82): the code, with the address when
it is the target's, here, that refuses. -/
def runErr (s : State) (j : Job) (write : Bool) (a : Int) (n : Nat) : Option (Nat × Option Nat) :=
  match farAddr 2 a with
  | none => some (5, none)
  | some pa =>
    let e := sourceErr j pa n write
    if e ≠ 0 then some (e, none)
    else if faChip pa ≠ s.chip then none
    else
      let t := targetErr s j.part (faRegion pa) (faOff pa) n false
      if t ≠ 0 then some (t, some pa) else none

/-- What those checks find for a whole job: a copy's rows in order, its source before its destination; a load's or a
store's block. A replication checks each destination by itself (R268). -/
def jobRunErr (s : State) (j : Job) : Option (Nat × Option Nat) :=
  let at64 : Int := cField j.bytes 64 16
  match j.major with
  | 0x01 =>
    let c := cpyCard j.bytes
    if c.sk ≠ 2 ∧ c.dk ≠ 2 then none
    else (List.range c.rows).findSome? fun (i : Nat) =>
      ((if c.sk = 2 then runErr s j false (c.src + i * c.ss) c.len else none).or
        (if c.dk = 2 then runErr s j true (c.dst + i * c.ds) c.len else none))
  | 0x05 => if cField j.bytes 86 1 = 2 then runErr s j false at64 (cField j.bytes 84 2) else none
  | 0x06 => if cField j.bytes 86 1 = 2 then runErr s j true at64 (cField j.bytes 84 2) else none
  | _ => none

/-! ### CPY (R261) -/

/-- Bytes of the current row read so far. -/
def gotLen (j : Job) : Nat := (j.got.map fun e => e.2.length).foldl (· + ·) 0

/-- A run of the row has been written: progress moves, and a whole row makes way for the next. -/
def cpyWrote (len n : Nat) (j : Job) : Job :=
  let p := j.progress + n
  { j with progress := p, got := if p % len = 0 then [] else j.got }

/-- The next move of a copy: read on in the row, or write on in it. -/
def moveCpy (s : State) (k : Nat) (j : Job) : State :=
  let c := cpyCard j.bytes
  let i := j.progress / c.len
  let b := j.progress % c.len
  let g := gotLen j
  if c.rows ≤ i then finishJob s k j.id 0 0
  else if g < c.len then
    let a : Int := c.src + i * c.ss
    if c.sk < 2 then
      withJobRead s k j (localSpace c.sk) a.toNat c.len fun s bs => modJob s k j.id fun j => { j with got := [(0, bs)] }
    else match farAddr c.sk (a + g) with
      | none => finishJob s k j.id 5 0
      | some a =>
        farRead s k j c.sk a (pieceLen c.sk a (c.len - g)) 0 fun s bs =>
          modJob s k j.id fun j => { j with got := j.got ++ [(g, bs)] }
  else
    let row := (j.got.flatMap (·.2)).drop b
    let a : Int := c.dst + i * c.ds + b
    if c.dk < 2 then modJob (spWrite s k (localSpace c.dk) a.toNat row) k j.id (cpyWrote c.len row.length)
    else match farAddr c.dk a with
      | none => finishJob s k j.id 5 0
      | some a =>
        let bs := row.take (pieceLen c.dk a row.length)
        farWrite s k j c.dk a 1 bs fun s => modJob s k j.id (cpyWrote c.len bs.length)

/-! ### SCA (R262, R263) -/

/-- The next window of a scatter-accumulate. -/
def moveSca (s : State) (k : Nat) (j : Job) : State :=
  let f := cField j.bytes
  let idx := f 64 4
  let val := f 68 4
  let dst := f 72 4
  let n := f 76 4
  let op := f 80 1
  let fmt := f 81 1
  let z := scaSize fmt
  let zt := if op = 4 then 16 else z
  if n ≤ j.progress then finishJob s k j.id 0 (BitVec.ofNat 64 n)
  else
    let p := j.progress
    let m := Nat.min 64 (n - p)
    withJobRead s k j .spad (idx + 4 * p) (4 * m) fun s _ =>
      withJobRead s k j .spad (val + z * p) (z * m) fun s _ =>
        let ix := (readArr s k (idx + 4 * p) 4 m).map (sextNat 32)
        let vs := readArr s k (val + z * p) z m
        if ix.any (fun x => decide (x < 0) || !inRegion (ownRegions j.bytes) true .spad (dst + x * zt) zt) then
          finishJob s k j.id 0x0D 0
        else if ix.any (fun x => decide ((2 ^ 23 : Nat) < (dst : Int) + x * zt + zt)) then finishJob s k j.id 2 0
        else
          let js := ix.map Int.toNat
          if js.any (fun x => (badWord s (spaceKey k .spad (dst + x * zt)) zt).isSome) then finishJob s k j.id 8 0
          else
            let els := (List.range m).map fun i => (p + i, js.getD i 0, vs.getD i 0)
            let (s, fl) := (distinct js).foldl (scaApply k op fmt j.xbp.toInt dst val z zt els) (s, 0)
            modJob s k j.id fun j => addFlags { j with progress := p + m } fl

/-! ### FLD, FST, FATM (R266, R267) -/

/-- The address `n` bytes on; virtual ones wrap at 2^80 (R384). -/
def nextAddr (kind a n : Nat) : Nat := if kind = 3 then (a + n) % 2 ^ 80 else a + n

/-- A load reads its block, each page of it on its own, and then writes it (R266, R384). -/
def moveLoad (s : State) (k : Nat) (j : Job) : State :=
  let len := cField j.bytes 84 2
  let kind := cField j.bytes 86 1
  let g := gotLen j
  let addr := nextAddr kind (opAddr kind (cField j.bytes 64 16)) g
  if g < len then
    farRead s k j kind addr (pieceLen kind addr (len - g)) 0 fun s bs =>
      modJob s k j.id fun j => { j with got := j.got ++ [(g, bs)] }
  else finishJob (spWrite s k .spad (cField j.bytes 80 4) (j.got.flatMap (·.2))) k j.id 0 0

/-- Part of a block is written, unless an earlier part has ended the job. -/
def putBlock (s : State) (k : Nat) (j : Job) (pa : Nat) (bs : List Byte) : State :=
  match findJob s k j.id with
  | none => s
  | some i =>
    if i.state ≠ .running then s
    else farAccess s k j pa bs.length true false (fun s => fabWrite s (faRegion pa) (faOff pa) bs)
      (fun s => sendJobReq s k j 3 pa bs 1 bs.length)

/-- A store writes its block once every page of it is translated; its answers all come before it ends (R266, R385). -/
def moveStore (s : State) (k : Nat) (j : Job) : State :=
  let len := cField j.bytes 84 2
  let kind := cField j.bytes 86 1
  let addr := opAddr kind (cField j.bytes 64 16)
  let n := pieceLen kind addr len
  if j.got.isEmpty = false then finishJob s k j.id 0 0
  else
    withJobRead s k j .spad (cField j.bytes 80 4) len fun s bs =>
      withPlace s k j kind addr 2 0 fun s pa =>
        let s := modJob s k j.id fun j => { j with got := [(0, [])] }
        if n = len then putBlock s k j pa bs
        else withPlace (modJob s k j.id fun j => { j with got := [] }) k j kind (nextAddr kind addr n) 2 0 fun s pb =>
          putBlock (putBlock (modJob s k j.id fun j => { j with got := [(0, [])] }) k j pa (bs.take n)) k j pb (bs.drop n)

/-- The payload of an atomic request (R420). -/
def atomPayload (op af xbp operand compare : Nat) : List Byte :=
  natLe 1 op ++ natLe 1 af ++ natLe 2 xbp ++ [0, 0, 0, 0] ++ natLe 8 operand ++ natLe 8 compare

/-- The flags of an exact-cell add depend on its addend alone (R57). -/
def atomFlags (op af operand : Nat) (xbp : Int) : Nat :=
  if op = 1 then (cellAddend (cellFmt af) operand xbp).2 else 0

/-- An atomic has performed: its flags and its result, which the card receives at completion. -/
def atomDone (s : State) (k : Nat) (j : Job) (old : Nat) : State :=
  let f := cField j.bytes
  finishJob (modJob s k j.id fun j => addFlags j (atomFlags (f 80 1) (f 81 1) (f 88 8) j.xbp.toInt)) k j.id 0
    (BitVec.ofNat 64 old)

/-- The operand of an FP32 cell add stands in its low half (R267). -/
def atomOperand (bs : List Byte) : Nat :=
  if cField bs 80 1 = 1 ∧ cField bs 81 1 = 0 then cField bs 88 4 else cField bs 88 8

def moveFatm (s : State) (k : Nat) (j : Job) : State :=
  let f := cField j.bytes
  let op := f 80 1
  let af := f 81 1
  let kind := f 82 1
  withPlace s k j kind (opAddr kind (f 64 16)) 3 0 fun s pa =>
    farAccess s k j pa (atomicSize op) true true
      (fun s =>
        let (old, s) := fabAtomic s (faRegion pa) (faOff pa) op af j.xbp.toInt (atomOperand j.bytes) (f 96 8)
        atomDone s k j old)
      (fun s => sendJobReq s k j 6 pa (atomPayload op af j.xbp.toNat (atomOperand j.bytes) (f 96 8)) 4 0)

/-! ### FREP (R268, R434) -/

/-- One destination of a replication is refused. -/
def refuseDest (s : State) (k : Nat) (j : Job) (d code : Nat) : State :=
  modJob s k j.id fun j => { j with refused := j.refused ++ [(d, code)] }

/-- The place of an answer for destination `d`; to the first of several requests, once which is accepted the others
follow. -/
def destPlace (d : Nat) : Nat := 16 + d
def firstPlace (d : Nat) : Nat := 2048 + d

/-- A write request of the replication to destination `d`. -/
def sendDest (s : State) (k : Nat) (j : Job) (place pa : Nat) (bs : List Byte) : State :=
  sendReq (modJob s k j.id fun j => { j with pend := j.pend ++ [(place, bs.length)] }) 3 j.part j.region k j.cls pa bs
    (.job k j.id place)

/-- Write requests to destination `d`. -/
def repRun (k : Nat) (j : Job) (d pa : Nat) : Nat → List Byte → State → State
  | 0, _, s => s
  | n + 1, bs, s =>
    if bs.isEmpty then s
    else
      let m := pieceLen 2 pa bs.length
      repRun k j d (pa + m) n (bs.drop m) (sendDest s k j (destPlace d) pa (bs.take m))

/-- Deliver the source to destination `d` by its own stream of write requests, in table order (R434). One without a way ends
the job at once (R433). Of a run of several flits the others follow once the first has been accepted, since a refused
destination receives nothing (R268, log entry 112). -/
def repTo (k : Nat) (j : Job) (bs : List Byte) (s : State) (e : Nat × Nat) : State :=
  let d := e.1
  let pa := e.2
  let c := sourceErr j pa bs.length true
  if c ≠ 0 then refuseDest s k j d c
  else if faChip pa = s.chip then
    let t := targetErr s j.part (faRegion pa) (faOff pa) bs.length false
    if t ≠ 0 then refuseDest (refusedAt s k j t pa) k j d t else fabWrite s (faRegion pa) (faOff pa) bs
  else if routable s (mkReq s 3 j.part j.cls pa []) = false then finishJob s k j.id 9 (BitVec.ofNat 64 d)
  else
    let m := pieceLen 2 pa bs.length
    sendDest s k j (if m < bs.length then firstPlace d else destPlace d) pa (bs.take m)

/-- The replication still runs: no destination has ended it. -/
def repStep (k : Nat) (j : Job) (bs : List Byte) (s : State) (e : Nat × Nat) : State :=
  match findJob s k j.id with
  | some i => if i.state = .running then repTo k j bs s e else s
  | none => s

/-- The destinations of a replication. -/
def repDests (table : List Byte) (n : Nat) : List (Nat × Nat) :=
  (List.range n).map fun d => (d, leNat ((table.drop (8 * d)).take 8) % 2 ^ 56)

/-- The lowest-indexed refused destination. -/
def lowestRefused (l : List (Nat × Nat)) : Option (Nat × Nat) :=
  l.foldl (fun (a : Option (Nat × Nat)) e =>
    match a with
    | none => some e
    | some b => if e.1 < b.1 then some e else some b) none

/-- The next move of a replication: all its sends, then, once every destination has answered, its end. -/
def moveFrep (s : State) (k : Nat) (j : Job) : State :=
  let f := cField j.bytes
  let n := f 76 2
  if j.got.isEmpty then
    withJobRead s k j .spad (f 64 4) (f 68 4) fun s bs =>
      withJobRead s k j .spad (f 72 4) (8 * n) fun s table =>
        (repDests table n).foldl (repStep k j bs) (modJob s k j.id fun j => { j with got := [(0, bs), (1, table)] })
  else match lowestRefused j.refused with
    | none => finishJob s k j.id 0 (BitVec.ofNat 64 n)
    | some (d, c) => finishJob s k j.id c (BitVec.ofNat 64 d)

/-! ### Prefix requests (R271, R272) -/

/-- The payload of a prefix request: the card's operation fields, then what else it carries, at most 224 bytes (R419,
R420). -/
def pfxPayload (q : PrefixReq) : List Byte := (q.f.flatMap (natLe 4)).take 20 ++ (Config.prefixReqTail q).take 204

/-- The scalar fields of a prefix card, its 4-byte words from byte 64. -/
def pfxFields (bs : List Byte) : List Nat := (List.range 5).map fun i => cField bs (64 + 4 * i) 4

/-- The arrays that a prefix request reads: the token IDs, list or entry; and PFXIN's block-table entries. -/
def pfxRead (s : State) (k : Nat) (j : Job) (i : Nat) : List Nat :=
  match ((pfxArrays j.bytes j.major).filter fun a => !a.2.2)[i]? with
  | some (a, n, _) => readArr s k a 4 n
  | none => []

/-- Where the words that a reply brings are written: the array that the card names for writing. -/
def pfxOut (j : Job) : Nat := (((pfxArrays j.bytes j.major).find? fun a => a.2.2).map (·.1)).getD 0

/-- A prefix request goes to the tree home; without one the job ends with error 0x09 (R319). -/
def movePfx (s : State) (k : Nat) (j : Job) : State :=
  match (findPart s j.part).bind (·.params.tree) with
  | none => finishJob s k j.id 9 0
  | some (chip, _) =>
    let reads := (pfxArrays j.bytes j.major).filter fun a => !a.2.2
    if reads.any (fun a => (badWord s (spaceKey k .spad a.1) (4 * a.2.1)).isSome) then finishJob s k j.id 8 0
    else
      let q : PrefixReq := { chip := s.chip, core := k, job := j.id, part := j.part, region := j.region, wave := j.wave,
                             lane := 0, seq := 0, major := j.major, f := pfxFields j.bytes, arr := pfxRead s k j 0,
                             arr2 := pfxRead s k j 1 }
      let s' := modJob s k j.id fun j => { j with pend := [(0, 0)] }
      if chip = s.chip then
        { s' with engines := s'.engines.map fun e => if e.part = j.part then { e with queue := e.queue ++ [q] } else e }
      else
        let f : Flit := { dchip := chip, schip := s.chip, partition := j.part, cls := 1, kslot := 0, type := 0x0A,
                          length := (pfxPayload q).length, seq := 0, route := 0, payload := pfxPayload q }
        if routable s f = false then finishJob s k j.id 9 0
        else sendFlit s' 0 ⟨0, f, .job k j.id 0, j.part, j.region, 0, k⟩

/-! ### KVMRG (R273) -/

def moveMrg (s : State) (k : Nat) (j : Job) : State :=
  let c := mrgCard j.bytes
  let p := (getPart s j.part).params.p
  withJobRead s k j .win c.slot (2 * p * 1024 * mrgSize c.kf) fun s _ =>
    withJobRead s k j .spad c.mult (4 * c.n) fun s _ =>
      let (n, s) := mergePage s k p c
      finishJob s k j.id 0 (BitVec.ofNat 64 n)

/-! ### Running -/

def moveJob (s : State) (k : Nat) (j : Job) : State :=
  match j.major with
  | 0x01 => moveCpy s k j
  | 0x02 => moveSca s k j
  | 0x05 => moveLoad s k j
  | 0x06 => moveStore s k j
  | 0x07 => moveFatm s k j
  | 0x08 => moveFrep s k j
  | 0x10 => moveMrg s k j
  | _ => movePfx s k j

/-- The job moves on until it awaits an answer or a walk, or ends; at most `n` moves. -/
def runJob (k id : Nat) : Nat → State → State
  | 0, s => s
  | n + 1, s =>
    match findJob s k id with
    | none => s
    | some j =>
      if j.state = .running ∧ j.pend.isEmpty ∧ j.walk.isNone then runJob k id n (moveJob s k j) else s

/-- No job makes more moves than this: 65535 rows of 2^24 bytes, in pieces of at least one byte, read and written. -/
def jobFuel : Nat := 2 ^ 42

def goOn (s : State) (k id : Nat) : State := runJob k id jobFuel s

/-- JOB_START (R254). A card that failed its checks completes at once, and so does a job of which a fabric run falls outside
what it may reach: it writes nothing (R82). -/
def execJobStart (k : Nat) (j : Nat) (s : State) : Out :=
  .next (
    match findJob s k j with
    | none => s
    | some x =>
      if mayStart s k x = false then s
      else if x.err ≠ 0 then finishJob s k j x.err 0
      else match jobRunErr s x with
      | some (code, some pa) => finishJob (refusedAt s k x code pa) k j code 0
      | some (code, none) => finishJob s k j code 0
      | none => goOn (modJob s k j fun x => { x with state := .running }) k j)

/-! ### Translation (R377, R385) -/

/-- The kind 0x01 record of a fault (R386). -/
def walkRecord (k : Nat) (j : Job) (w : Walk) (code : Nat) : BitVec 256 :=
  faultRecord 0x01 k j.region j.card (w.va.toNat + code * 2 ^ 80 + w.lvl * 2 ^ 88 + b01 (bitOf w.acc 1) * 2 ^ 91
    + w.opnd % 2 * 2 ^ 92 + j.asid.toNat * 2 ^ 96)

/-- The progress field of a card (R78). -/
def writeProgress (s : State) (k card p : Nat) : State := spWrite s k .spad (card + 48) (natLe 8 p)

/-- A fault suspends the job at its element (R385): a copy's row, read whole, is kept while its destination faults. -/
def suspendJob (s : State) (k : Nat) (j : Job) (w : Walk) (code : Nat) : State :=
  let s := modCore s k fun c => tlbDrop c j.asid w.va.toNat
  let s := modJob s k j.id fun j =>
    { j with state := .suspended, pend := [], got := if j.major = 0x01 ∧ w.opnd = 1 then j.got else [], walk := some (startWalk s j.part w.va w.acc w.opnd true) }
  let s := writeStatus (writeProgress s k j.card j.progress) k j.card (2 + j.xflags.toNat * 8)
  postFault s k (walkRecord k j w code)

/-- Another walk shares the end of `w`: it is for the same page and has itself not begun; a denial only when it asks for
all that was denied (R381). -/
def sharesEnd (asid : BitVec 16) (w : Walk) (code : Nat) (a : BitVec 16) (v : Walk) : Bool :=
  !v.wait && samePage asid w (a, v) && (code != 2 || Nat.land w.acc v.acc == w.acc)

/-- The jobs of the package whose walks share the end of `w`, in the order of the cores and of their launches. -/
def walkSharers (s : State) (asid : BitVec 16) (w : Walk) (code : Nat) : List (Nat × Job × Walk) :=
  (List.range 16).flatMap fun k => (getCore s k).jobs.filterMap fun j => match j.walk with
    | some v => if j.state = .running ∧ sharesEnd asid w code j.asid v then some (k, j, v) else none
    | none => none

/-- The host accesses whose walks share the end of `w`. -/
def accSharers (s : State) (asid : BitVec 16) (w : Walk) (code : Nat) : List HostAcc :=
  s.accs.filter fun a => match a.walk with
    | some v => sharesEnd asid w code (getPart s a.part).params.asid v
    | none => false

/-- A walk has ended in a fault: the requests that have merged with it end so too, each job with its own record (R381,
R389). -/
def shareFault (s : State) (asid : BitVec 16) (w : Walk) (code : Nat) : State :=
  let js := walkSharers s asid w code
  let hs := accSharers s asid w code
  let s := js.foldl (fun s e => suspendJob s e.1 e.2.1 e.2.2 code) s
  hs.foldl (fun s a => failAcc s a 0x06 code) s

/-- A walk has met an uncorrectable error: so have the requests that have merged with it (R377, R381). -/
def shareBad (s : State) (asid : BitVec 16) (w : Walk) : State :=
  let js := walkSharers s asid w 8
  let hs := accSharers s asid w 8
  let s := js.foldl (fun s e => finishJob s e.1 e.2.1.id 8 0) s
  hs.foldl badAcc s

/-- A walk of a job has come this far. -/
def takeWalk (k : Nat) (j : Job) (r : WalkRes) : State :=
  let w := r.2.1
  let s := r.2.2
  match r.1 with
  | .leaf e =>
    goOn (modJob (modCore (mergeWalks s j.asid w) k fun c => tlbKeep c j.asid w.va.toNat w.lvl e) k j.id fun j => { j with walk := none }) k j.id
  | .fault code => shareFault (suspendJob s k j w code) j.asid w code
  | .bad => shareBad (finishJob s k j.id 8 0) j.asid w
  | .farRead a =>
    sendJobReq (modJob s k j.id fun j => { j with walk := some w }) k j 4 a (natLe 4 8) 2 8
  | .farSwap a old new =>
    sendJobReq (modJob s k j.id fun j => { j with walk := some w }) k j 6 a (atomPayload 5 0 0 new old) 3 8

/-- PAGE_WALK (R377): the walk that a job awaits. -/
def execPageWalk (k : Nat) (j : Nat) (s : State) : Out :=
  .next (
    match findJob s k j with
    | none => s
    | some x =>
      match x.walk with
      | none => s
      | some w =>
        if x.state ≠ .running ∨ mayWalk s x.asid w = false then s else takeWalk k x (walkOn x.part x.asid walkFuel s w))

/-! ### Answers -/

/-- What comes back for a request. -/
inductive Answer where
  | data (bs : List Byte)
  | value (v : Nat)
  | done
  | refused (code : Nat)
  | lost
  deriving DecidableEq, Repr

/-- The destination that a place stands for. -/
def destOf (idx : Nat) : Nat := if 2048 ≤ idx then idx - 2048 else idx - 16

/-- A refusal of one of the job's requests: its curator hears of it and the job ends with that error; a walk's refusal is
a fault. -/
def jobRefused (s : State) (k : Nat) (j : Job) (idx code : Nat) (f : Flit) : State :=
  match j.walk with
  | some w =>
    if code = 8 then shareBad (finishJob s k j.id 8 0) j.asid w else shareFault (suspendJob s k j w 5) j.asid w 5
  | none =>
    let s := postFault s k (refusedRecord k j.region j.card code (reqAddr f))
    if 16 ≤ idx then goOn (refuseDest s k j (destOf idx) code) k j.id else finishJob s k j.id code 0

/-- A target has accepted the first flit of a run: the rest of the source's bytes goes there (R268, R434). -/
def repAccepted (s : State) (k : Nat) (j : Job) (d : Nat) : State :=
  match j.got, (repDests ((j.got.drop 1).flatMap (·.2)) (cField j.bytes 76 2))[d]? with
  | (_, bs) :: _, some (_, pa) =>
    let m := pieceLen 2 pa bs.length
    repRun k j d (pa + m) (bs.length / 208 + 2) (bs.drop m) s
  | _, _ => s

/-- The answer to a request of a job that has been killed: a copy's write counts, and with the last answer the job ends at
its element boundary (R353). -/
def killedAnswer (s : State) (k id n : Nat) (a : Answer) : State :=
  modJob s k id fun j =>
    let j := if j.major = 0x01 ∧ j.walk.isNone ∧ a = .done then cpyWrote (cpyCard j.bytes).len n j else j
    if j.pend.isEmpty then endKilled j else j

/-- The answer to a request of a job under place `idx`: it takes what came, and moves on. -/
def jobAnswer (s : State) (k id idx : Nat) (f : Flit) (a : Answer) : State :=
  match findJob s k id with
  | none => s
  | some j =>
    match j.pend.find? fun e => e.1 == idx with
    | none => s
    | some e =>
      let s := modJob s k id fun j => { j with pend := j.pend.erase e }
      if j.killed then killedAnswer s k id e.2 a
      else match a with
      | .refused code => jobRefused s k j idx code f
      | .lost => finishJob s k id 9 (if 16 ≤ idx then BitVec.ofNat 64 (destOf idx) else 0)
      | .data bs =>
        match j.walk with
        | some w => takeWalk k j (walkGot s j.part j.asid w (leNat bs))
        | none => goOn (modJob s k id fun j => { j with got := j.got ++ [(gotLen j, bs)] }) k id
      | .value v =>
        match j.walk with
        | some w => takeWalk k j (walkGot s j.part j.asid w v)
        | none => atomDone s k j v
      | .done =>
        if 2048 ≤ idx then repAccepted s k j (idx - 2048)
        else if j.major = 0x01 then goOn (modJob s k id (cpyWrote (cpyCard j.bytes).len e.2)) k id
        else goOn s k id

/-! ### Completion (R257) -/

/-- The status of a job that completes (R79). -/
def doneStatus (j : Job) : Nat :=
  1 + b01 j.cancel * 4 + j.xflags.toNat * 8 + b01 (j.err != 0) * 64 + j.err % 256 * 256

/-- The completion record (R259). -/
def doneRecord (j : Job) : BitVec 128 :=
  eventRecord (if j.err ≠ 0 then 4 else if engineOf j.major = 2 then 3 else 1) (j.major % 16) (doneStatus j) j.card
    j.result.toNat

/-- The context that launched a job, resident or saved (R346). -/
def jobCtx (c : Core) (j : Job) : Option Context :=
  match j.saved, j.owner with
  | some n, _ => (getShadow c (b01 n)).map (·.saved)
  | none, .a => some c.ctxA
  | none, .b => some c.ctxB
  | none, .cur => none

/-- The queue that takes a job's record has room for it (R77, R339). -/
def jobRoom (c : Core) (j : Job) : Bool :=
  !cardEvent j.bytes || j.silent || (match jobCtx c j with
    | some x => evRoom x
    | none => c.fqPost.isEmpty && !fqFull c)

/-- A job's record enters its context's event queue, or for the curator the fault queue (R257). -/
def postJob (s : State) (k : Nat) (j : Job) : State :=
  match j.saved, j.owner with
  | some n, _ =>
    match getShadow (getCore s k) (b01 n) with
    | some h => modCore (recordBytes s k h.saved (doneRecord j)) k fun c =>
        setShadow c (b01 n) (some { h with saved := tookRecord h.saved })
    | none => s
  | none, .cur => postFault s k (faultRecord 0x20 k j.region j.card (doneRecord j).toNat)
  | none, .a => postRecord s k false (doneRecord j)
  | none, .b => postRecord s k true (doneRecord j)

/-- Steps 1 and 2 of a completion (R257): status, result and publish word. -/
def writeDone (s : State) (k : Nat) (j : Job) : State :=
  let s := writeStatus (writeProgress s k j.card j.progress) k j.card (doneStatus j)
  let s := if j.major = 0x07 ∧ j.err = 0 then spWrite s k .spad (j.card + 104) (natLe 8 j.result.toNat) else s
  if cardPublish j.bytes ∧ j.err = 0 then spWrite s k .spad (cardPmap j.bytes) (natLe 4 (cardPval j.bytes)) else s

/-- Steps 3 to 5 (R257), once the queue has room: the record, the arrival on the barrier, and the slots are free. -/
def endJob (s : State) (k : Nat) (j : Job) : State :=
  let s := if cardEvent j.bytes = false ∨ j.silent then s else postJob s k j
  let s := if cardBarrier j.bytes then arrive s k (cardBarAddr j.bytes) (j.err != 0) j.cancel else s
  modCore s k fun c => { c with jobs := c.jobs.filter fun i => i.id != j.id }

/-- JOB_COMPLETE (R257): while the queue is full the job waits to post its record (R77). A job malformed for want of an
event queue posts none. -/
def completeJob (s : State) (k : Nat) (j : Job) : State :=
  let s := if j.state = .posting then s else writeDone s k j
  if jobRoom (getCore s k) j then endJob s k j else modJob s k j.id fun j => { j with state := .posting }

def execJobComplete (k : Nat) (j : Nat) (s : State) : Out :=
  .next (
    match findJob s k j with
    | none => s
    | some x => if x.state = .finished ∨ x.state = .posting then completeJob s k x else s)

end Sys2Proof.Machine
end

