-- ==== Sys2Proof/Machine/Prefix.lean ====
section
/-!
DEFINITION. The prefix engine of a tree home (09 R271, R272; 11 R302 to R311): the tree, the counts, cow tokens and the
undo log, and the flits that carry its requests and replies.
-/
namespace Sys2Proof.Machine

/-! ### The tree (R302 to R304) -/

/-- The tree of a new partition: every LPID but 0 free. -/
def TreeState.new : TreeState := ⟨[], [], [], 1, [], 0⟩

def lpidRec (t : TreeState) (l : Nat) : Option LpidRec := tabGet none t.counts l

def putRec (t : TreeState) (l : Nat) (r : Option LpidRec) : TreeState := { t with counts := tabSet none t.counts l r }

/-- Allocate an LPID with count 1, of the freed ones whose wave is complete the one freed first (R304, R310); `lim` is the
size of the LPID space. -/
def allocLpid (t : TreeState) (lim : Nat) : Option (Nat × TreeState) :=
  match t.back with
  | l :: r => some (l, putRec { t with back := r } l (some ⟨1, false⟩))
  | [] =>
    if t.fresh < lim then some (t.fresh, putRec { t with fresh := t.fresh + 1 } t.fresh (some ⟨1, false⟩))
    else match t.freed.find? fun x => x.2.2.2 with
      | some x => some (x.1, putRec { t with freed := t.freed.erase x } x.1 (some ⟨1, false⟩))
      | none => none

/-- An LPID becomes free; it waits for the wave that covers the request (R310). -/
def freeLpid (t : TreeState) (region wave l : Nat) : TreeState :=
  { putRec t l none with freed := t.freed ++ [(l, region, wave, false)] }

/-- A count changed by `d`; a free value where 32 bits do not hold the sum (log entry 113). -/
def newCount (c : BitVec 32) (d : Int) : BitVec 32 :=
  let n := (c.toNat : Int) + d
  if 0 ≤ n ∧ n < ((2 ^ 32 : Nat) : Int) then BitVec.ofNat 32 n.toNat else Config.lpidCount n

/-- Change the count of an allocated LPID (R303): outside the tree it is free at 0. -/
def addCount (t : TreeState) (region wave l : Nat) (d : Int) : TreeState :=
  match lpidRec t l with
  | none => t
  | some r =>
    let c := newCount r.count d
    if c = 0 ∧ r.inTree = false then freeLpid t region wave l else putRec t l (some { r with count := c })

/-- The child of a node (0: the root) that spells these tokens. -/
def childOf (t : TreeState) (parent : Nat) (toks : List Nat) : Option TreeNode :=
  t.nodes.find? fun n => n.parent == parent && n.toks == toks

def stampNode (t : TreeState) (l : Nat) : TreeState :=
  { t with nodes := t.nodes.map fun n => if n.lpid = l then { n with stamp := t.stamp } else n }

/-- Pin a node of the tree: its count and its stamp (R305). -/
def pinNode (t : TreeState) (l : Nat) : TreeState :=
  match lpidRec t l with
  | none => t
  | some r => stampNode (putRec t l (some { r with count := newCount r.count 1 })) l

/-- What a request leaves: the tree, error, result, words for the array, and the cow token of a copied page. -/
structure Served where
  tree   : TreeState
  err    : Nat
  result : Nat
  writes : List (Nat × Nat)
  cow    : Option (Nat × Nat)
  deriving DecidableEq, Repr

/-- Words at consecutive places of the array. -/
def wordsAt (ws : List Nat) : List (Nat × Nat) := (List.range ws.length).map fun i => (4 * i, ws.getD i 0)

/-! ### PFXLK (R272, R305) -/

/-- Whole nodes that match from the root: the LPIDs, at most `maxp`. -/
def matchWhole (t : TreeState) (p : Nat) : Nat → Nat → List Nat → List Nat
  | 0, _, _ => []
  | maxp + 1, parent, toks =>
    if toks.length < p then []
    else match childOf t parent (toks.take p) with
      | none => []
      | some n => n.lpid :: matchWhole t p maxp n.lpid (toks.drop p)

/-- The child whose first tokens equal the rest of the prompt: the latest stamp, then the lowest LPID. -/
def matchPart (t : TreeState) (parent : Nat) (rest : List Nat) : Option Nat :=
  ((t.nodes.filter fun n => n.parent == parent && n.toks.take rest.length == rest).foldl
    (fun (a : Option TreeNode) n =>
      match a with
      | none => some n
      | some b => if b.stamp < n.stamp ∨ (b.stamp = n.stamp ∧ n.lpid < b.lpid) then some n else some b) none).map (·.lpid)

def serveLk (t : TreeState) (p : Nat) (toks : List Nat) (maxp : Nat) : Served :=
  let whole := matchWhole t p maxp 0 toks
  let rest := toks.drop (p * whole.length)
  let part := if 0 < rest.length ∧ rest.length < p ∧ whole.length < maxp then matchPart t (whole.getLastD 0) rest else none
  let got := whole ++ part.toList
  let n := p * whole.length + (if part.isSome then rest.length else 0)
  ⟨got.foldl pinNode t, 0, n + got.length * 2 ^ 32, wordsAt got, none⟩

/-! ### PFXIN (R272, R305) -/

/-- The node that the pages before `first` lead to. -/
def pathTo (t : TreeState) (p : Nat) : Nat → Nat → List Nat → Option Nat
  | 0, parent, _ => some parent
  | n + 1, parent, toks =>
    match childOf t parent (toks.take p) with
    | none => none
    | some c => pathTo t p n c.lpid (toks.drop p)

/-- Insert the pages whose LPIDs are given, in order: the tree, the error, the pages found present, the entries. -/
def insertPages (region wave p lim : Nat) : TreeState → Nat → List Nat → List Nat → TreeState × Nat × Nat × List Nat
  | t, _, _, [] => (t, 0, 0, [])
  | t, parent, toks, l :: ls =>
    match childOf t parent (toks.take p) with
    | some c =>
      let r := insertPages region wave p lim (pinNode (addCount t region wave l (-1)) c.lpid) c.lpid (toks.drop p) ls
      (r.1, r.2.1, r.2.2.1 + 1, c.lpid :: r.2.2.2)
    | none =>
      if lpidRec t l ≠ some ⟨1, false⟩ then (t, 0x0C, 0, l :: ls)
      else if lim ≤ t.nodes.length then (t, 0x0A, 0, l :: ls)
      else
        let t := putRec { t with nodes := t.nodes ++ [⟨l, parent, toks.take p, t.stamp⟩] } l (some ⟨1, true⟩)
        let r := insertPages region wave p lim t l (toks.drop p) ls
        (r.1, r.2.1, r.2.2.1, l :: r.2.2.2)

def serveIn (t : TreeState) (p lim region wave : Nat) (toks ents : List Nat) (first npg : Nat) : Served :=
  match pathTo t p first 0 toks with
  | none => ⟨t, 0x01, 0, [], none⟩
  | some parent =>
    if decide (toks.length < (first + npg) * p) || npg == 0 || ents.any (fun e => decide (2 ^ 20 ≤ e) || e == 0) then
      ⟨t, 0x01, 0, [], none⟩
    else if ents.any (fun e => (lpidRec t e).isNone) then ⟨t, 0x0E, 0, [], none⟩
    else
      let r := insertPages region wave p lim t parent (toks.drop (first * p)) ents
      ⟨r.1, r.2.1, r.2.2.1, wordsAt r.2.2.2, none⟩

/-! ### PFXREF, PFXAPP, PFXEV (R272, R304, R305) -/

/-- One entry of a PFXREF: the tree, the first error, the pages that reached zero. LPID 0 is never counted (R297). -/
def refOne (region wave : Nat) (d : Int) (a : TreeState × Nat × Nat) (e : Nat) : TreeState × Nat × Nat :=
  if e = 0 then a
  else match (if e < 2 ^ 20 then lpidRec a.1 e else none) with
    | none => (a.1, if a.2.1 = 0 then 0x0E else a.2.1, a.2.2)
    | some r =>
      if (r.count.toNat : Int) + d < 0 then (a.1, if a.2.1 = 0 then 0x0C else a.2.1, a.2.2)
      else (addCount a.1 region wave e d, a.2.1, a.2.2 + b01 (newCount r.count d == 0 && r.count != 0))

def serveRef (t : TreeState) (region wave : Nat) (list : List Nat) (d : Int) : Served :=
  let r := list.foldl (refOne region wave d) (t, 0, 0)
  ⟨r.1, r.2.1, r.2.2, [], none⟩

def serveApp (t : TreeState) (lim region wave ent : Nat) : Served :=
  if ent = 0 then
    match allocLpid t lim with
    | none => ⟨t, 0x0B, 0, [], none⟩
    | some (l, t) => ⟨t, 0, l, [(0, l)], none⟩
  else match (if ent < 2 ^ 20 then lpidRec t ent else none) with
    | none => ⟨t, 0x0E, 0, [], none⟩
    | some r =>
      if r.count = 0 then ⟨t, 0x0C, 0, [], none⟩
      else if r.count = 1 ∧ r.inTree = false then ⟨t, 0, ent, [], none⟩
      else match allocLpid t lim with
        | none => ⟨t, 0x0B, 0, [], none⟩
        | some (l, t) => ⟨addCount t region wave ent (-1), 0, l + 2 ^ 32, [(0, l)], some (ent, l)⟩

/-- The idle leaf that PFXEV takes next: the earliest stamp, then the lowest LPID. -/
def idleLeaf (t : TreeState) : Option TreeNode :=
  (t.nodes.filter fun n => (lpidRec t n.lpid).any (fun r => r.count == 0) && !(t.nodes.any fun c => c.parent == n.lpid)).foldl
    (fun (a : Option TreeNode) n =>
      match a with
      | none => some n
      | some b => if n.stamp < b.stamp ∨ (n.stamp = b.stamp ∧ n.lpid < b.lpid) then some n else some b) none

/-- Free up to `n` idle leaves. -/
def evictLeaves (region wave : Nat) : Nat → TreeState → List Nat × TreeState
  | 0, t => ([], t)
  | n + 1, t =>
    match idleLeaf t with
    | none => ([], t)
    | some x =>
      let t := freeLpid { t with nodes := t.nodes.filter fun y => y.lpid != x.lpid } region wave x.lpid
      let r := evictLeaves region wave n t
      (x.lpid :: r.1, r.2)

/-- Serve a request on a tree whose clock has advanced. -/
def serveTree (g : PrefixEngine) (q : PrefixReq) : Served :=
  let t := { g.tree with stamp := g.tree.stamp + 1 }
  let f := fun i => q.f.getD i 0
  match q.major with
  | 0x0B => serveLk t g.p q.arr (f 3)
  | 0x0C => serveIn t g.p g.n q.region q.wave q.arr q.arr2 (f 3) (f 4)
  | 0x0D => serveRef t q.region q.wave q.arr (sextNat 32 (f 2))
  | 0x0E => serveApp t (2 ^ g.l) q.region q.wave (q.arr.headD 0)
  | _ =>
    let r := evictLeaves q.region q.wave (f 0) t
    ⟨r.2, 0, r.1.length, wordsAt r.1, none⟩

/-! ### Cow tokens (R294, R306, R307) -/

/-- A cow token (R306). -/
def cowToken (seq serial old new : Nat) : Token := ⟨seq, 0, 5, 0, BitVec.ofNat 64 serial, natLe 4 old ++ natLe 4 new ++ natLe 56 0⟩

def modEngine (s : State) (part : Nat) (f : PrefixEngine → PrefixEngine) : State :=
  { s with engines := s.engines.map fun e => if e.part = part then f e else e }

def findEngine (s : State) (part : Nat) : Option PrefixEngine := s.engines.find? fun e => e.part == part

/-- Emit a cow token on one port: a credit is taken, and its acknowledgement is awaited. -/
def emitCow (part old new serial : Nat) (s : State) (c : CowPort) : State :=
  let s := modEngine s part fun g => { g with ports := g.ports.map fun d =>
    if d.port = c.port then { d with credits := d.credits - 1, sent := (d.sent + 1) % 2 ^ 32 } else d }
  (tokenFlits s part c.port (cowToken c.sent serial old new)).foldl
    (fun s f => sendFlit s tokenLane ⟨0, f, .cow part serial, part, c.region, 0, 16⟩) s

/-! ### Replies -/

/-- A reply has its effect on the job: the words, the result, the error (R272). -/
def takeRep (s : State) (r : PrefixRep) : State :=
  match findJob s r.core r.job with
  | none => s
  | some j =>
    if j.state ≠ .running then s
    else
      let s := r.writes.foldl (fun s w => putNum s r.core (pfxOut j + w.1) 4 w.2) s
      finishJob s r.core r.job r.err r.result

/-- The payload of a prefix reply: error and result, then what else it carries, at most 224 bytes (R419, R420). -/
def repPayload (r : PrefixRep) : List Byte :=
  natLe 8 (r.err % 256) ++ natLe 8 r.result.toNat ++ (Config.prefixRepTail r).take 208

/-- The prefix reply that a payload makes. -/
def repOf (bs : List Byte) : Option PrefixRep :=
  (Config.readPrefixRep bs).map fun r =>
    { r with err := leNat (bs.take 8) % 256, result := BitVec.ofNat 64 (leNat ((bs.drop 8).take 8)) }

/-- A flit that answers the request `seq` of a stream with a prefix reply. -/
def repFlit (s : State) (part chip lane seq : Nat) (pay : List Byte) : State :=
  routeFlit s 144 { dchip := chip, schip := s.chip, partition := part, cls := 1, kslot := 0, type := 0x0B,
                    length := pay.length, seq := seq, route := BitVec.ofNat 48 lane, payload := pay }

/-- Send a reply to the launching core, here or elsewhere; the filter of the request's stream keeps it (R432). -/
def sendRep (s : State) (part : Nat) (r : PrefixRep) : State :=
  if r.chip = s.chip then takeRep s r
  else repFlit (noteReply s r.chip r.lane r.seq 0x0B 0 (repPayload r)) part r.chip r.lane r.seq (repPayload r)

/-- The acknowledgement of a cow token: the reply leaves once the token is visible at every port (R294). -/
def cowAcked (s : State) (part serial : Nat) : State :=
  match (findEngine s part).bind fun g => g.waiting.find? fun w => w.1 == serial with
  | none => s
  | some (_, n, r) =>
    let s := modEngine s part fun g =>
      { g with waiting := (g.waiting.filter fun w => w.1 != serial) ++ (if n ≤ 1 then [] else [(serial, n - 1, r)]) }
    if n ≤ 1 then sendRep s part r else s

/-- The engine may serve its next request (R307, R310), behind the tokens that a roll-back has it send again (R311). -/
def mayServe (g : PrefixEngine) : Bool :=
  !g.queue.isEmpty && g.ports.all (fun c => c.credits != 0 && c.due.isEmpty && !c.held) && decide (g.log.length < 65536)

/-- Serve the oldest request (R271). DESIGN CHOICE, R306 gives no number: the engine's first request has serial number 1, and a
roll-back does not turn the count back (log entry 146). -/
def serveNext (s : State) (g : PrefixEngine) : State :=
  match g.queue with
  | [] => s
  | q :: rest =>
    let r := serveTree g q
    let serial := g.serial + 1
    let rep : PrefixRep := ⟨q.chip, q.core, q.job, q.lane, q.seq, r.err, BitVec.ofNat 64 r.result, r.writes⟩
    let ports := if r.cow.isSome then g.ports else []
    let entry : TreeLog := { wave := q.wave, region := q.region, before := g.tree, after := r.tree,
                             cow := r.cow.map fun c => (c.1, c.2, serial), seqs := ports.map fun c => (c.port, c.sent) }
    let s := modEngine s g.part fun g => { g with queue := rest, serial := serial, tree := r.tree, log := g.log ++ [entry] }
    match r.cow with
    | none => sendRep s g.part rep
    | some (old, new) =>
      if ports.isEmpty then sendRep s g.part rep
      else
        let s := modEngine s g.part fun g => { g with waiting := g.waiting ++ [(serial, ports.length, rep)] }
        ports.foldl (emitCow g.part old new serial) s

/-- A prefix request arrives from another package: the tree home takes it into its queue (R271). -/
def enqueueReq (s : State) (f : Flit) : State :=
  match Config.readPrefixReq f.payload with
  | none => s
  | some q => modEngine s f.partition fun g =>
      { g with queue := g.queue ++ [{ q with
          f := (List.range 5).map (fun i => leNat ((f.payload.drop (4 * i)).take 4)), chip := f.schip, lane := flitLane f, seq := f.seq, part := f.partition }] }

/-- A request that comes again: its reply is sent again, once there is one (R432). -/
def repeatRep (s : State) (f : Flit) (type code : Nat) (payload : List Byte) : State :=
  if type = 0x0B then repFlit s f.partition f.schip (flitLane f) f.seq payload else serveAgain s f type code payload

/-- An arrived prefix request, in the order of its stream (R432). One for the host tier, or for a partition without its tree
home here, is refused (R450, R435). -/
def takePrefixFlit (s : State) : Option State :=
  match takeFlit s [0x0A] with
  | none => none
  | some (f, s) =>
    if partHere s f = false then some (discardFlit s f) else
    let r := findRx s f.schip (flitLane f)
    match rxAct r f.seq with
    | .hold => some (putRx s { r with held := if r.held.any fun g => g.seq == f.seq then r.held else r.held ++ [f] })
    | .again type code payload => some (repeatRep s f type code payload)
    | .drop => some (discardFlit s f)
    | .perform =>
      let s := if f.dchip ≠ hostChip ∧ (findEngine s f.partition).isSome = true then enqueueReq (rxDone s f 0 0 []) f
        else answerFlit (rxDone s f 9 5 []) f 9 5 []
      some (rxNext s f.schip (flitLane f))

/-- PREFIX_REQUEST (R271): a request arrives, or the oldest one is served. -/
def execPrefixRequest (s : State) : Out :=
  .next (
    match takePrefixFlit s with
    | some s => s
    | none =>
      match s.engines.find? mayServe with
      | none => s
      | some g => serveNext s g)

/-! ### Roll-back and waves (R309 to R311) -/

/-- The record of an LPID after the change from `b` to `a` is taken back: its count changes by the difference, since requests
of other regions stay. One that such a request has freed stands at count 0 outside the tree. -/
def undoRec (b a t : Option LpidRec) : Option LpidRec :=
  match b, a with
  | some rb, some ra =>
    let rt := t.getD ⟨0, false⟩
    let r : LpidRec := ⟨rt.count + rb.count - ra.count, if rb.inTree = ra.inTree then rt.inTree else rb.inTree⟩
    if r.count = 0 ∧ r.inTree = false then none else some r
  | _, _ => b

/-- An LPID that is held again is free no more. -/
def unfree (t : TreeState) (l : Nat) : TreeState :=
  if (lpidRec t l).isSome then
    { t with back := t.back.filter (· != l), freed := t.freed.filter fun x => x.1 != l }
  else t

/-- One freeing of one LPID, whether its wave is complete or not. -/
def sameFreeing (x y : Nat × Nat × Nat × Bool) : Bool := x.1 == y.1 && x.2.1 == y.2.1 && x.2.2.1 == y.2.2.1

/-- Take back one request's changes. -/
def undoEntry (t : TreeState) (e : TreeLog) : TreeState :=
  let b := e.before
  let a := e.after
  let ls := distinct ((b.counts ++ a.counts).map (·.1))
  let t := ls.foldl (fun t l =>
    if lpidRec b l = lpidRec a l then t else putRec t l (undoRec (lpidRec b l) (lpidRec a l) (lpidRec t l))) t
  let gone := ls.filter fun l => (lpidRec b l).isNone && (lpidRec a l).isSome
  let kept := t.nodes.filter fun n => (b.nodes.any fun m => m.lpid == n.lpid) || !(a.nodes.any fun m => m.lpid == n.lpid)
  let lost := b.nodes.filter fun n => !(a.nodes.any fun m => m.lpid == n.lpid)
  let restamp : TreeNode → TreeNode := fun n =>
    match b.nodes.find? fun m => m.lpid == n.lpid with
    | some m => if n.stamp = a.stamp then { n with stamp := m.stamp } else n
    | none => n
  let t := { t with nodes := (kept ++ lost).map restamp, back := gone ++ t.back,
                    freed := t.freed.filter fun x => b.freed.any (sameFreeing x) || !a.freed.any (sameFreeing x) }
  ls.foldl unfree t

/-- The undo of a region's requests of wave `w` or later, newest first (R309). -/
def undoTree (g : PrefixEngine) (region w : Nat) : PrefixEngine :=
  let mine : TreeLog → Bool := fun e => e.region == region && decide (w ≤ e.wave)
  { g with tree := (g.log.reverse.filter mine).foldl undoEntry g.tree, log := g.log.filter fun e => !mine e }

/-- The popped count of a cow port at its snapshot of wave `w`. -/
def popsAt (c : CowPort) (w : Nat) : Nat := ((c.pops.find? fun p => p.1 == w).map (·.2)).getD 0

/-- The surviving cow tokens that a port of the region has not popped at its snapshot of wave `w`, in serial order (R311). -/
def survivors (g : PrefixEngine) (c : CowPort) (w : Nat) : List (Nat × Nat × Nat) :=
  g.log.filterMap fun e => e.cow.bind fun t => match e.seqs.find? fun q => q.1 == c.port with
    | some q => if popsAt c w ≤ q.2 then some t else none
    | none => none

/-- A port of the region starts again from its snapshot of wave `w`: its ring is empty, and the survivors are to be sent
with sequence numbers counted anew. -/
def resetPort (g : PrefixEngine) (region w : Nat) (c : CowPort) : CowPort :=
  if c.region = region then { c with credits := c.entries, sent := popsAt c w, due := survivors g c w, held := true } else c

/-- The log with the sequence numbers that the survivors take. -/
def renumber (region w : Nat) (g : PrefixEngine) (e : TreeLog) : TreeLog :=
  { e with seqs := e.seqs.map fun q =>
      match g.ports.find? fun c => c.port == q.1 && c.region == region, e.cow with
      | some c, some t =>
        match (survivors g c w).findIdx? fun u => u == t with
        | some i => (q.1, popsAt c w + i)
        | none => q
      | _, _ => q }

/-- The cow tokens of a serial number that have not been acknowledged. -/
def cowsOut (s : State) (part serial : Nat) : Nat :=
  (s.router.tx.map fun t => ((t.opens ++ t.queue).filter fun o => o.who == .cow part serial).length).foldl (· + ·) 0

/-- The replies that still wait for the visibility of a cow token: those of other regions' requests, for the tokens on the
way and those to be sent again. -/
def stillWaiting (s : State) (part : Nat) (g : PrefixEngine) (region : Nat) : List (Nat × Nat × PrefixRep) :=
  (g.waiting.filter fun w => g.log.any fun e => e.region != region && e.cow.map (·.2.2) == some w.1).map fun w =>
    (w.1, cowsOut s part w.1 + (g.ports.filter fun c => c.due.any fun d => d.2.2 == w.1).length, w.2.2)

/-- Popped counts of waves that a roll-back to wave `w` discards are reported anew (R311). -/
def keepPops (region w : Nat) (c : CowPort) : CowPort :=
  if c.region = region then { c with pops := c.pops.filter fun p => decide (p.1 ≤ w) } else c

/-- A region rolls back to complete wave `w` at the tree home: the undo, then the cow tokens of the survivors are due. -/
def rollTree (s : State) (part region w : Nat) : State :=
  match findEngine s part with
  | none => s
  | some g =>
    let g := undoTree { g with ports := g.ports.map (keepPops region w) } region w
    let g := { g with ports := g.ports.map (resetPort g region w), log := g.log.map (renumber region w g) }
    let l := stillWaiting s part g region
    let s := modEngine s part fun _ => { g with waiting := l.filter fun w => w.2.1 != 0 }
    (l.filter fun w => w.2.1 == 0).foldl (fun s w => sendRep s part w.2.2) s

/-- The region goes on after its roll-back: every ring is empty, so the due tokens may be sent. -/
def releaseCows (s : State) (part region : Nat) : State :=
  modEngine s part fun g => { g with ports := g.ports.map fun c => if c.region = region then { c with held := false } else c }

/-- A port that may send a token again. -/
def dueCow (g : PrefixEngine) : Option CowPort := g.ports.find? fun c => !c.due.isEmpty && !c.held && c.credits != 0

/-- Send the next token again, as its port has a credit (R311). -/
def sendDue (s : State) (part : Nat) : State :=
  match (findEngine s part).bind dueCow with
  | none => s
  | some c =>
    match c.due with
    | [] => s
    | (old, new, serial) :: rest =>
      emitCow part old new serial (modEngine s part fun g => { g with ports := g.ports.map fun d =>
        if d.port = c.port then { d with due := rest } else d }) c

/-- Wave `w` of a region is complete at the tree home: the log is trimmed, but for cow tokens that some port has not
popped, and LPIDs whose freeing it covers may be allocated (R310, R311). -/
def waveTree (s : State) (part region w : Nat) : State :=
  modEngine s part fun g =>
    let uncovered : TreeLog → Bool := fun e => e.cow.isSome && g.ports.any fun c =>
      c.region == region && match e.seqs.find? fun q => q.1 == c.port with
      | some (_, q) => decide (popsAt c w ≤ q)
      | none => false
    { g with log := g.log.filter fun e => e.region != region || decide (w ≤ e.wave) || uncovered e,
             ports := g.ports.map fun c =>
               if c.region = region then { c with pops := c.pops.filter fun p => decide (w ≤ p.1) } else c,
             tree := { g.tree with freed := g.tree.freed.map fun x =>
               if x.2.1 = region ∧ x.2.2.1 < w then (x.1, x.2.1, x.2.2.1, true) else x } }

/-- A popped count reaches the tree home (R311). -/
def takePops (s : State) (port : PortAddr) (wave n : Nat) : State :=
  { s with engines := s.engines.map fun g => { g with ports := g.ports.map fun c =>
      if c.port = port then { c with pops := c.pops ++ [(wave, n)] } else c } }

/-- An attention stage's cow port is bound to the engine of its partition (R306). A port whose context a restore has given a
popped count (R415) goes on from it. -/
def bindCow (s : State) (part region : Nat) (port : PortAddr) (entries popped : Nat) : State :=
  modEngine s part fun g =>
    { g with ports := (g.ports.filter fun c => c.port != port) ++ [⟨port, region, entries, entries, popped, [], [], false⟩] }

/-- Chip `x` becomes `y` in a port address. -/
def moveAddr (x y : Nat) (p : PortAddr) : PortAddr := if p.chip = x then { p with chip := y } else p

/-- The cow ports of a region on chip `x` are those of its replacement `y` (R460): the engine goes on with the counts that
they reported. -/
def moveCows (s : State) (part region x y : Nat) : State :=
  modEngine s part fun g =>
    let old := (g.ports.filter fun c => c.region == region && c.port.chip == x).map (·.port)
    let mv : PortAddr → PortAddr := fun p => if old.contains p then moveAddr x y p else p
    let rest := g.ports.filter fun c => !(old.map (moveAddr x y)).contains c.port
    { g with ports := rest.map fun c => { c with port := mv c.port },
             log := g.log.map fun e => { e with seqs := e.seqs.map fun q => (mv q.1, q.2) } }

/-- The tree home knows the port, which its stage may count on when it arms (R306, R327). -/
def cowKnown (s : State) (p : PortAddr) : State :=
  modCtxAt s p.core p.ctx fun x => modIn x p.port fun i => { i with bound := true }

end Sys2Proof.Machine
end

