-- ==== Sys2Proof/Machine/Access.lean ====
section
/-!
DEFINITION. Memory accesses of the host port (20 R447) and the host tier's answers (R450).
-/
namespace Sys2Proof.Machine

/-! ### Messages to and from the host -/

/-- ERROR (R448). -/
def errorHost (s : State) (asker : Nat × Nat) (reason : Nat) (v : Nat) : State :=
  replyHost s asker (.error reason (BitVec.ofNat 64 v))

/-- RESULT (R448). -/
def resultHost (s : State) (asker : Nat × Nat) (status : Nat) : State := replyHost s asker (.result status 0 [])

def msgFrom (m : HostMsg) : Nat × Nat := (m.channel, m.tag)

/-- Messages of one channel are acted on in their order (R445): the message is the first of its channel. -/
def firstIn (s : State) (m : HostMsg) : Bool := (s.hostIn.find? fun q => q.channel == m.channel) == some m

/-- A VWRITE of the channel has not been answered. -/
def writing (s : State) (ch : Nat) : Bool := s.accs.any (fun a => a.write && a.reply.1 == ch) || s.fwd.any fun e => e.1 == ch

/-- The message may be acted on now: a VWRITE or INJECT follows every earlier VWRITE of its channel (R283, R293). -/
def mayAct (s : State) (m : HostMsg) : Bool :=
  firstIn s m && (match m.req with
    | .vwrite _ _ => !writing s m.channel
    | .inject _ _ _ _ _ => !writing s m.channel
    | _ => true)

/-- The oldest message of the host that may be acted on and whose request `p` admits. -/
def takeMsg (s : State) (p : HostReq → Bool) : Option (HostMsg × State) :=
  match s.hostIn.find? fun m => p m.req && mayAct s m with
  | none => none
  | some m => some (m, { s with hostIn := s.hostIn.erase m })

/-- Run `body` on the oldest waiting message that `p` admits; with none nothing happens. -/
def onMsg (s : State) (p : HostReq → Bool) (body : State → HostMsg → State) : State :=
  match takeMsg s p with
  | none => s
  | some (m, s) => body s m

/-- A message for another package is forwarded to it, in partition 0 (R447). -/
def orForward (s : State) (m : HostMsg) (body : State → State) : State :=
  if m.chip = s.chip then body s else sendCtl s m.chip (.host m)

/-! ### VREAD and VWRITE (R447) -/

def modAcc (s : State) (id : Nat) (f : HostAcc → HostAcc) : State :=
  { s with accs := s.accs.map fun a => if a.id = id then f a else a }

/-- The answer to a refusal code of the fabric. -/
def refusedAcc (s : State) (a : HostAcc) (code : Nat) : State :=
  if code = 6 then failAcc s a 0x02 0 else if code = 8 then badAcc s a else failAcc s a 0x0B 0

def accAddr (a : HostAcc) : BitVec 80 := a.va + BitVec.ofNat 80 a.done

/-- The length of the next piece. -/
def accPiece (a : HostAcc) : Nat := pieceLen 3 (accAddr a).toNat (a.len - a.done)

/-- The bytes of the next piece of a write. -/
def accBytes (a : HostAcc) : List Byte := (a.data.drop a.done).take (accPiece a)

/-- A piece has been read or written. -/
def accDone (bs : List Byte) (n : Nat) (a : HostAcc) : HostAcc :=
  { a with data := if a.write then a.data else a.data ++ bs, done := a.done + n, walk := none, wait := false }

/-- The piece is translated: its bytes are read or written here, or asked of their package. -/
def accAt (s : State) (a : HostAcc) (pa : Nat) : State :=
  let n := accPiece a
  let r := faRegion pa
  let o := faOff pa
  if 6 ≤ r ∨ modeReaches false a.part r a.write = false ∨ (faChip pa ≠ hostChip ∧ inExtent r o n = false) then failAcc s a 0x0B 0
  else if faChip pa = s.chip then
    let t := targetErr s a.part r o n false
    if t ≠ 0 then refusedAcc (noteMismatch s (if a.write then 3 else 4) a.part pa t) a t
    else if !a.write && fabBad s r o n then badAcc s a
    else if a.write then modAcc (fabWrite s r o (accBytes a)) a.id (accDone [] n)
    else modAcc (countFixed s (fabKey r o) n) a.id (accDone (fabRead s r o n) n)
  else
    let pay := if a.write then accBytes a else natLe 4 n
    let ty := if a.write then 3 else 4
    if routable s (mkReq s ty a.part 0 pa pay) = false then failAcc s a 0x0A 0
    else sendReq (modAcc s a.id fun a => { a with wait := true }) ty a.part 0 16 0 pa pay (.host a.id 0)

def asidOf (s : State) (part : Nat) : BitVec 16 := (getPart s part).params.asid

/-- The walk of a piece has come this far. -/
def accWalk (a : HostAcc) (r : WalkRes) : State :=
  let w := r.2.1
  let s := r.2.2
  let ask := fun (ty pa : Nat) (pay : List Byte) =>
    if routable s (mkReq s ty a.part 0 pa pay) = false then failAcc s a 0x0A 0
    else sendReq (modAcc s a.id fun a => { a with walk := some w, wait := true }) ty a.part 0 16 0 pa pay (.host a.id 1)
  match r.1 with
  | .leaf e => accAt (mergeWalks s (asidOf s a.part) w) { a with walk := none } (leafAddr w.lvl e w.va.toNat)
  | .fault code => shareFault (failAcc s a 0x06 code) (asidOf s a.part) w code
  | .bad => shareBad (badAcc s a) (asidOf s a.part) w
  | .farRead pa => ask 4 pa (natLe 4 8)
  | .farSwap pa old new => ask 6 pa (atomPayload 5 0 0 new old)

/-- The walk that an access needs for its next piece. -/
def pieceWalk (s : State) (a : HostAcc) : Walk :=
  a.walk.getD (startWalk s a.part (accAddr a) (if a.write then 2 else 1) 0 false)

/-- The access moves on until it awaits an answer or its walk has to wait (R381), or ends; at most `n` pieces. -/
def runAcc (id : Nat) : Nat → State → State
  | 0, s => s
  | n + 1, s =>
    match s.accs.find? fun a => a.id == id with
    | none => s
    | some a =>
      if a.wait then s
      else if a.len ≤ a.done then endAcc s a (if a.write then .result 0 0 [] else .vdata a.data)
      else
        let w := pieceWalk s a
        if mayWalk s (asidOf s a.part) w = false then modAcc s id fun a => { a with walk := some w }
        else runAcc id n (accWalk a (walkOn a.part (asidOf s a.part) walkFuel (modAcc s id fun a => { a with walk := none }) w))

/-- The access moves on as far as it can: it has no more pieces than bytes. -/
def goAcc (id : Nat) (s : State) : State := runAcc id ((s.accs.map (·.len)).foldl (· + ·) 2) s

/-- Begin a host access: a read of 8 to 9120 bytes, or a write. -/
def startAcc (s : State) (m : HostMsg) (write : Bool) (va : BitVec 80) (len : Nat) (data : List Byte) : State :=
  if write = false ∧ (len < 8 ∨ 9120 < len) then errorHost s (msgFrom m) 0x01 0
  else if (findPart s m.partition).isNone then errorHost s (msgFrom m) 0x02 0
  else
    let a : HostAcc := ⟨s.counter, msgFrom m, m.partition, write, va, len, data, 0, none, false⟩
    goAcc a.id { s with accs := s.accs ++ [a], counter := s.counter + 1 }

/-- VREAD (R447). -/
def execVread (s : State) : Out :=
  .next (onMsg s (fun r => match r with
    | .vread _ _ => true
    | _ => false) fun s m => orForward s m fun s =>
      match m.req with
      | .vread va len => startAcc s m false va len []
      | _ => s)

/-- VWRITE (R447). -/
def execVwrite (s : State) : Out :=
  .next (onMsg s (fun r => match r with
    | .vwrite _ _ => true
    | _ => false) fun s m =>
      let s := if m.chip = s.chip then s else { s with fwd := s.fwd ++ [msgFrom m] }
      orForward s m fun s =>
      match m.req with
      | .vwrite va data => startAcc s m true va data.length data
      | _ => s)

/-- An answer for a host access: under place 0 of the piece itself, under place 1 of its walk. -/
def accAnswer (s : State) (id idx : Nat) (x : Answer) : State :=
  match s.accs.find? fun a => a.id == id with
  | none => s
  | some a =>
    let s := modAcc s id fun a => { a with wait := false }
    let a := { a with wait := false }
    match x, a.walk with
    | .lost, _ => failAcc s a 0x0A 0
    | .refused 8, some w => shareBad (badAcc s a) (asidOf s a.part) w
    | .refused 8, none => badAcc s a
    | .refused _, some w => shareFault (failAcc s a 0x06 5) (asidOf s a.part) w 5
    | .refused code, none => refusedAcc s a code
    | .data bs, some w => goAcc id (accWalk a (walkGot s a.part (asidOf s a.part) w (leNat bs)))
    | .value v, some w => goAcc id (accWalk a (walkGot s a.part (asidOf s a.part) w v))
    | .data bs, none => if idx = 0 then goAcc id (modAcc s id (accDone bs bs.length)) else s
    | .value _, none => s
    | .done, _ => goAcc id (modAcc s id (accDone [] (accPiece a)))

/-! ### The host tier (R450) -/

/-- The page request that a message of the host answers. -/
def findPage (s : State) (m : HostMsg) : Option PageReq :=
  s.pages.find? fun p => p.tag == m.tag && (getPart s p.flit.partition).params.channel == m.channel

def dropPage (s : State) (p : PageReq) : State := { s with pages := s.pages.filter fun q => q.tag != p.tag }

/-- The host tier's answer to a flit, which the filter of its stream keeps (R432). -/
def answerPage (s : State) (f : Flit) (type code : Nat) (payload : List Byte) : State :=
  answerFlit (noteReply s f.schip (flitLane f) f.seq type code payload) f type code payload

/-- PAGEDATA (R450): the read reply of the flit. -/
def execPagedata (s : State) : Out :=
  .next (onMsg s (fun r => match r with
    | .pagedata _ => true
    | _ => false) fun s m =>
      match m.req, findPage s m with
      | .pagedata bs, some p =>
        if p.flit.type ≠ 4 ∨ bs.length ≠ reqLen p.flit then errorHost s (msgFrom m) 0x01 0
        else answerPage (dropPage s p) p.flit 5 0 bs
      | _, _ => errorHost s (msgFrom m) 0x01 0)

/-- RESULT (R450): the acknowledgement of a write flit; a failure becomes a refusal. -/
def execResult (s : State) : Out :=
  .next (onMsg s (fun r => match r with
    | .result _ => true
    | _ => false) fun s m =>
      match m.req, findPage s m with
      | .result st, some p =>
        if st = 0 ∧ p.flit.type = 3 then answerPage (dropPage s p) p.flit 8 0 []
        else if st = 0 then errorHost s (msgFrom m) 0x01 0
        else answerPage (dropPage s p) p.flit 9 0x05 []
      | _, _ => s)

end Sys2Proof.Machine
end

