-- ==== Sys2Proof/Machine/Crypto.lean ====
section
/-!
DEFINITION. The ciphers and digests that the spec names by their standards: AES-256-GCM (19 R436, 20 R444: NIST SP
800-38D), SHA-384 (20 R455: FIPS 180-4), and HMAC with it.
-/
namespace Sys2Proof.Machine

/-! ### AES-256 -/

/-- Multiply by x in GF(2^8). -/
def gfDouble (a : Nat) : Nat := if a < 128 then 2 * a else Nat.xor (2 * a - 256) 0x1B

/-- Multiply in GF(2^8). -/
def gfMul : Nat → Nat → Nat → Nat
  | 0, _, _ => 0
  | n + 1, a, b => Nat.xor (if b % 2 = 1 then a else 0) (gfMul n (gfDouble a) (b / 2))

/-- a^254, the inverse. -/
def gfInv (a : Nat) : Nat :=
  let m := gfMul 8
  let a2 := m a a
  let a3 := m a2 a
  let a12 := m (m a3 a3) (m a3 a3)
  let a15 := m a12 a3
  let a30 := m a15 a15
  let a60 := m a30 a30
  let a120 := m a60 a60
  let a240 := m a120 a120
  m (m a240 a12) a2

/-- The S-box by its definition: the inverse, then the affine map. -/
def sbox (a : Nat) : Nat :=
  let b := gfInv a
  let rot := fun n => b * 2 ^ n % 256 + b / 2 ^ (8 - n)
  Nat.xor (Nat.xor (Nat.xor b (rot 1)) (Nat.xor (rot 2) (rot 3))) (Nat.xor (rot 4) 0x63)

/-- Exclusive or of two byte strings of one length. -/
def xorBytes (a b : List Nat) : List Nat := (a.zip b).map fun e => Nat.xor e.1 e.2

/-- Words 8 to 59 of the key schedule; `l` holds the words so far, latest first, `i` the next index. -/
def keyWords : Nat → Nat → Nat → List (List Nat) → List (List Nat)
  | 0, _, _, l => l
  | n + 1, i, rc, l =>
    let t := l.headD []
    let t := if i % 8 = 0 then xorBytes ((t.drop 1 ++ t.take 1).map sbox) [rc, 0, 0, 0]
      else if i % 8 = 4 then t.map sbox else t
    keyWords n (i + 1) (if i % 8 = 0 then gfDouble rc else rc) (xorBytes (l.getD 7 []) t :: l)

/-- Pieces of `k` elements, `n` of them. -/
def pieces {α : Type} (k : Nat) : Nat → List α → List (List α)
  | 0, _ => []
  | n + 1, l => l.take k :: pieces k n (l.drop k)

/-- The fifteen round keys of 16 bytes. -/
def roundKeys (key : List Nat) : List (List Nat) :=
  pieces 16 15 ((keyWords 52 8 1 ((pieces 4 8 key).reverse)).reverse.flatMap id)

/-- ShiftRows on the column-major state. -/
def shiftRows (s : List Nat) : List Nat := (List.range 16).map fun i => s.getD ((i + 4 * (i % 4)) % 16) 0

/-- MixColumns. -/
def mixColumns (s : List Nat) : List Nat :=
  (List.range 16).map fun i =>
    let c := i / 4 * 4
    let a := fun k => s.getD (c + (i + k) % 4) 0
    let two := gfDouble (a 0)
    let three := Nat.xor (gfDouble (a 1)) (a 1)
    Nat.xor (Nat.xor two three) (Nat.xor (a 2) (a 3))

/-- One block. -/
def aesBlock (ks : List (List Nat)) (b : List Nat) : List Nat :=
  let s := xorBytes b (ks.headD [])
  let s := ((ks.drop 1).take 13).foldl (fun s k => xorBytes (mixColumns (shiftRows (s.map sbox))) k) s
  xorBytes (shiftRows (s.map sbox)) (ks.getD 14 [])

/-! ### GCM -/

/-- The number that bytes spell, most significant first. -/
def beNat (l : List Nat) : Nat := l.foldl (fun a b => a * 256 + b) 0

/-- The `n` bytes of a number, most significant first. -/
def natBe (n v : Nat) : List Nat := (List.range n).map fun i => v / 256 ^ (n - 1 - i) % 256

/-- Multiplication in GF(2^128), most significant bit first: `z` gathers, `v` halves. -/
def ghashMul : Nat → Nat → Nat → Nat → Nat
  | 0, _, _, z => z
  | n + 1, x, v, z =>
    ghashMul n x (if v % 2 = 1 then Nat.xor (v / 2) (0xE1 * 2 ^ 120) else v / 2) (if x / 2 ^ n % 2 = 1 then Nat.xor z v else z)

/-- Whole blocks, the last padded with zeros. -/
def padBlocks (l : List Nat) : List (List Nat) :=
  let n := (l.length + 15) / 16
  pieces 16 n (l ++ List.replicate (16 * n - l.length) 0)

def ghash (h : Nat) (blocks : List (List Nat)) : Nat :=
  blocks.foldl (fun y b => ghashMul 128 (Nat.xor y (beNat b)) h 0) 0

/-- Encrypt or decrypt in counter mode from counter `c`. -/
def ctrMode (ks : List (List Nat)) (iv : List Nat) (c : Nat) : List (List Nat) → List Nat
  | [] => []
  | b :: bs => xorBytes b (aesBlock ks (iv ++ natBe 4 c)) ++ ctrMode ks iv (c + 1) bs

/-- The tag of a ciphertext. -/
def gcmTag (ks : List (List Nat)) (iv aad ct : List Nat) : Nat :=
  let h := beNat (aesBlock ks (List.replicate 16 0))
  let s := ghash h (padBlocks aad ++ padBlocks ct ++ [natBe 8 (8 * aad.length) ++ natBe 8 (8 * ct.length)])
  Nat.xor s (beNat (aesBlock ks (iv ++ natBe 4 1)))

def byteNats (l : List Byte) : List Nat := l.map BitVec.toNat

/-- A 256-bit key as it stands in storage: its 32 bytes in order. -/
def keyBytes (k : BitVec 256) : List Nat := byteNats (natLe 32 k.toNat)

/-- Sixteen bytes, the first in [7:0], from a tag. -/
def tagBits (t : Nat) : BitVec 128 := BitVec.ofNat 128 (leNat ((natBe 16 t).map fun b => BitVec.ofNat 8 b))

/-- AES-256-GCM encryption: ciphertext and tag. -/
def gcmSeal (k : BitVec 256) (iv : List Nat) (aad pt : List Byte) : List Byte × BitVec 128 :=
  let ks := roundKeys (keyBytes k)
  let p := byteNats pt
  let ct := (ctrMode ks iv 2 (pieces 16 ((p.length + 15) / 16) p)).take p.length
  (ct.map fun b => BitVec.ofNat 8 b, tagBits (gcmTag ks iv (byteNats aad) ct))

/-- AES-256-GCM decryption: the plaintext, when the tag is right. -/
def gcmOpen (k : BitVec 256) (iv : List Nat) (aad ct : List Byte) (tag : BitVec 128) : Option (List Byte) :=
  let ks := roundKeys (keyBytes k)
  let c := byteNats ct
  if tagBits (gcmTag ks iv (byteNats aad) c) = tag then
    some (((ctrMode ks iv 2 (pieces 16 ((c.length + 15) / 16) c)).take c.length).map fun b => BitVec.ofNat 8 b)
  else none

/-! ### SHA-384 -/

/-- The integer part of the root of order `r` of `n`, found bit by bit from `2^b` down. -/
def rootFrom (r n : Nat) : Nat → Nat → Nat
  | 0, a => a
  | b + 1, a => rootFrom r n b (if (a + 2 ^ b) ^ r ≤ n then a + 2 ^ b else a)

/-- The first eighty primes. -/
def primes80 : List Nat :=
  (List.range 410).filter fun n => decide (2 ≤ n) && !((List.range n).any fun d => decide (2 ≤ d) && n % d == 0)

/-- The first 64 bits of the fractional part of the root of order `r` of `p`. -/
def fracRoot (r p : Nat) : Nat := rootFrom r (p * 2 ^ (64 * r)) 70 0 % 2 ^ 64

/-- The round constants, and the initial value of SHA-384 (the ninth to sixteenth primes). -/
def shaK : List Nat := primes80.map (fracRoot 3)
def shaH : List Nat := ((primes80.drop 8).take 8).map (fracRoot 2)

def rotr64 (x n : Nat) : Nat := x / 2 ^ n + x % 2 ^ n * 2 ^ (64 - n)
def xor3 (a b c : Nat) : Nat := Nat.xor (Nat.xor a b) c

/-- Words 16 to 79 of the message schedule, latest first. -/
def shaWords : Nat → List Nat → List Nat
  | 0, l => l
  | n + 1, l =>
    let w := fun i => l.getD (i - 1) 0
    let s0 := xor3 (rotr64 (w 15) 1) (rotr64 (w 15) 8) (w 15 / 2 ^ 7)
    let s1 := xor3 (rotr64 (w 2) 19) (rotr64 (w 2) 61) (w 2 / 2 ^ 6)
    shaWords n ((w 16 + s0 + w 7 + s1) % 2 ^ 64 :: l)

/-- One round on the eight working words. -/
def shaRound (v : List Nat) (kw : Nat × Nat) : List Nat :=
  let g := fun i => v.getD i 0
  let s1 := xor3 (rotr64 (g 4) 14) (rotr64 (g 4) 18) (rotr64 (g 4) 41)
  let ch := Nat.xor (Nat.land (g 4) (g 5)) (Nat.land (2 ^ 64 - 1 - g 4) (g 6))
  let t1 := g 7 + s1 + ch + kw.1 + kw.2
  let s0 := xor3 (rotr64 (g 0) 28) (rotr64 (g 0) 34) (rotr64 (g 0) 39)
  let maj := xor3 (Nat.land (g 0) (g 1)) (Nat.land (g 0) (g 2)) (Nat.land (g 1) (g 2))
  [(t1 + s0 + maj) % 2 ^ 64, g 0, g 1, g 2, (g 3 + t1) % 2 ^ 64, g 4, g 5, g 6]

def shaBlock (h : List Nat) (b : List Nat) : List Nat :=
  let ws := (shaWords 64 ((pieces 8 16 b).map beNat).reverse).reverse
  let v := (shaK.zip ws).foldl shaRound h
  (h.zip v).map fun e => (e.1 + e.2) % 2 ^ 64

/-- SHA-384. -/
def sha384 (m : List Byte) : List Byte :=
  let n := m.length
  let k := (n + 17 + 127) / 128
  let p := byteNats m ++ [0x80] ++ List.replicate (128 * k - n - 17) 0 ++ natBe 16 (8 * n)
  let h := (pieces 128 k p).foldl shaBlock shaH
  ((h.take 6).flatMap (natBe 8)).map fun b => BitVec.ofNat 8 b

/-- HMAC-SHA-384. -/
def hmac384 (key m : List Byte) : List Byte :=
  let k := if 128 < key.length then sha384 key else key
  let k := k ++ List.replicate (128 - k.length) 0
  let pad := fun (c : Byte) => k.map fun b => b ^^^ c
  sha384 (pad 0x5C ++ sha384 (pad 0x36 ++ m))

end Sys2Proof.Machine
end

