-- ==== Sys2Proof/Machine/Launch.lean ====
section
/-!
DEFINITION. Launch in two phases (16 R354 to R363, 01 R24) with the restore of a drained region (18 R414, R415), and
tokens from the host (16 R361, 20 R447, R448).
-/
namespace Sys2Proof.Machine

/-- The oldest control message that `p` admits, with the neighbour it came from. -/
def takeCtl (s : State) (p : CtlMsg → Bool) : Option ((Nat × CtlMsg) × State) :=
  match s.ctlIn.find? fun e => p e.2 with
  | none => none
  | some e => some (e, { s with ctlIn := s.ctlIn.erase e })

/-- Run `body` on the oldest control message that `p` admits, once it has been relayed along the tree. -/
def onRelay (s : State) (p : CtlMsg → Bool) (body : State → Nat → CtlMsg → State) : State :=
  match takeCtl s p with
  | none => s
  | some ((from_, m), s) => body (relayCtl s from_ m) from_ m

/-- Run `body` on the oldest control message that `p` admits. -/
def onCtl (s : State) (p : CtlMsg → Bool) (body : State → Nat → CtlMsg → State) : State :=
  match takeCtl s p with
  | none => s
  | some ((from_, m), s) => body s from_ m

/-! ### Handles (R356) -/

def handleImage (h : BitVec 128) : Nat := bitsOf h.toNat 0 32
def handleRegion (h : BitVec 128) : Nat := bitsOf h.toNat 32 16
def handlePart (h : BitVec 128) : Nat := bitsOf h.toNat 48 8
def handleCheck (h : BitVec 128) : Nat := bitsOf h.toNat 64 64

def findLaunch (s : State) (h : BitVec 128) : Option Launch := s.launches.find? fun l => l.handle == h

def modLaunch (s : State) (h : BitVec 128) (f : Launch → Launch) : State :=
  { s with launches := s.launches.map fun l => if l.handle = h then f l else l }

/-! ### The save area (R414, R415) -/

/-- A context record of a save area: stage, core, context, and what follows its head. -/
abbrev SaveRec := Nat × Nat × Bool × List Byte

/-- The records that follow the header, at most `n`. -/
def parseRecs : Nat → List Byte → List SaveRec
  | 0, _ => []
  | n + 1, bs =>
    let h := leNat (bs.take 8)
    let len := bitsOf h 32 32
    if bs.length < 32 ∨ len < 32 then []
    else (bitsOf h 20 12, bitsOf h 12 4, bitOf h 16, (bs.take len).drop 32) :: parseRecs n (bs.drop len)

/-- The records of a valid save area of the region and image. -/
def saveRecs (area : List Byte) (region image : Nat) : List SaveRec :=
  let h := leNat (area.take 64)
  if bitOf h 0 && bitsOf h 8 8 == 1 && bitsOf h 16 16 == region && bitsOf h 32 32 == image then
    parseRecs (bitsOf h 96 32) (area.drop 64)
  else []

/-- The record of a context: that of its stage, of its own place when there are several. -/
def findRec (rs : List SaveRec) (g : StageCfg) : Option SaveRec :=
  match rs.find? fun r => r.1 == g.stage && r.2.1 == g.core && r.2.2.1 == g.ctx with
  | some r => some r
  | none => rs.find? fun r => r.1 == g.stage

/-- A stream's position in 16 bytes (R414). -/
def streamPos (st : Stream) : List Byte :=
  (st.idx.take 6).flatMap (fun i => natLe 2 i) ++ natLe 4 (b01 st.miss)

/-- The body of a context's record: stream positions, port counts, state-map windows. -/
def recBody (s : State) (k : Nat) (b : Bool) : List Byte :=
  let x := ctxAt s k b
  (x.live.st.toList.flatMap streamPos)
    ++ ((List.range 8).flatMap fun p => natLe 4 (getIn x p).seqs)
    ++ ((List.range 8).flatMap fun p => natLe 4 (getOut x p).seq)
    ++ (winBytes s k x.cfg).flatMap id

/-- A context's record with its head. -/
def recBytes (s : State) (k : Nat) (b : Bool) : List Byte :=
  let body := recBody s k b
  natLe 32 (s.chip % 2 ^ 12 + k % 16 * 2 ^ 12 + b01 b * 2 ^ 16 + (ctxAt s k b).cfg.stage % 2 ^ 12 * 2 ^ 20
    + (32 + body.length) * 2 ^ 32) ++ body

/-- Load windows from the bytes that hold them in order. -/
def loadWins (k : Nat) : List Window → List Byte → State → State
  | [], _, s => s
  | w :: ws, bs, s => loadWins k ws (bs.drop w.len) (spWrite s k w.space w.base (bs.take w.len))

/-- A context takes its windows, port counts and stream positions from its record (R415). -/
def restoreCtx (s : State) (k : Nat) (b : Bool) (bs : List Byte) : State :=
  let pos := (List.range 16).map fun n =>
    let e := leNat ((bs.drop (16 * n)).take 16)
    (n, (List.range 6).map (fun i => bitsOf e (16 * i) 16), bitOf e 96)
  let count : Nat → Nat := fun i => leNat ((bs.drop (256 + 4 * i)).take 4)
  let s := loadWins k (ctxAt s k b).cfg.stateMap (bs.drop 320) s
  modCtxAt s k b fun x =>
    let x := (List.range 8).foldl (fun x p => modIn x p fun i => { i with seqs := count p }) x
    let x := (List.range 8).foldl (fun x p => modOut x p fun o => { o with seq := count (8 + p) }) x
    { x with restored := pos }

/-! ### Prepare (R357, R358) -/

/-- The target slots of a part on this package. -/
def targets (p : ImagePart) : List (Nat × Bool) := p.contexts.map fun g => (g.core, g.ctx)

/-- The parts that other prepares have reserved resources for. -/
def reservedParts (s : State) (h : BitVec 128) : List ImagePart :=
  (s.launches.filter fun l => l.handle != h && l.verdict == some 0).filterMap fun l => l.part

/-- A bundle that an array context holds: MX-slot words other than zero, ACLD or ACST (R355). -/
def arrayWord (w : BitVec 256) : Bool :=
  bitsOf w.toNat 160 32 != 0 || (match decodeSlot 6 (bitsOf w.toNat 192 32) with
    | .ok (.acld _ _ _ _ _) => true
    | .ok (.acst _ _ _ _ _) => true
    | _ => false)

/-- The context that an entry loads is an array context (R355): its share says so. -/
def usesArray (g : StageCfg) : Bool := (g.program.take g.size).any arrayWord

/-- A limit of an input ring (R14); a cow ring is FIFO, and its only producer is the prefix engine (R306). -/
def badRing (e : Nat × RingCfg) : Bool :=
  let c := e.2
  decide (8 ≤ e.1) || decide (12 < c.n) || c.base % 64 != 0 || decide (c.maxlen < 64) || decide (4096 < c.maxlen)
    || c.maxlen % 16 != 0 || c.es != roundUp (16 + c.maxlen) 64 || decide (2 ^ 23 < lenArray c + lenBytes c)
    || (c.cow && (c.reorder || !c.producers.isEmpty))
    || (!c.reorder && !c.cow && c.producers.length != 1) || (c.reorder && c.producers.isEmpty)

def winOk (w : Window) : Bool := decide (w.base + w.len ≤ spaceSize w.space)

/-- A state-map window: a scratchpad window (R10). -/
def mapOk (w : Window) : Bool := w.space == .spad && winOk w

/-- The members of a gang: 2 to 16 distinct cores, the entry's own among them (R10, R22). -/
def badGang (g : StageCfg) : Bool :=
  decide (16 < g.gang.length) || (distinct g.gang).length != g.gang.length || g.gang.any (fun k => decide (16 ≤ k))
    || (!g.gang.isEmpty && !g.gang.contains g.core) || (decide (1 < g.gang.length) && g.staged)

/-- The range source (R22): a port named stands in the stage's trigger mask, that of any of its members (R369), and the
grain is 1 to 2^32 − 1. -/
def badRange (p : ImagePart) (g : StageCfg) : Bool :=
  match g.range with
  | .none => false
  | .port n => !(p.contexts.any fun h => h.stage == g.stage && h.trig.any fun t => t.1 == n) || g.grain == 0 || decide (2 ^ 32 ≤ g.grain)
  | .const _ => g.grain == 0 || decide (2 ^ 32 ≤ g.grain)

/-- The snapshot area (R406): 64-aligned, of 2S bytes, in the scratchpad or the arena; an entry of a region with a marker
period names one (R115). -/
def badSnap (p : ImagePart) (g : StageCfg) : Bool :=
  match g.snap with
  | none => p.period != 0
  | some w => w.base % 64 != 0 || decide (w.len < 2 * snapSize g) || !winOk w
      || (w.space == .win && match g.arena with
        | some a => decide (w.base < a)
        | none => true)

/-- The bases that an entry sets: the arena at a multiple of 1 MiB of the window (R67), the event queue in the scratchpad
at a multiple of 4096 (R66, R77). -/
def badBases (g : StageCfg) : Bool :=
  (match g.arena with
    | some a => a % 2 ^ 20 != 0 || decide (2 ^ 27 ≤ a)
    | none => false)
  || (match g.evq with
    | some a => a % 4096 != 0 || decide (2 ^ 23 < a + 4096)
    | none => false)

/-- An output port: its number, and an egress port exactly when its peer is the host (R476), whose endpoint takes tokens in
order. -/
def badOut (e : Nat × OutCfg) : Bool :=
  decide (8 ≤ e.1) || e.2.egress != (e.2.peer.chip == hostChip) || (e.2.egress && e.2.reorder)

/-- A limit of R10, R14, R340 or R406 that a context entry exceeds, or a range that another rule gives a setting of it (log
entry 114). -/
def badEntry (s : State) (p : ImagePart) (g : StageCfg) : Bool :=
  let q := getPart s p.partition
  let entries : Nat → Nat := fun p => ((g.ins.find? fun e => e.1 == p).map fun e => 2 ^ e.2.n).getD 0
  let free : Nat → Nat := fun p => ((g.outs.find? fun e => e.1 == p).map fun e => 2 ^ e.2.n).getD 0
  decide (16 ≤ g.core) || ((findPart s p.partition).isSome && !q.params.cores.contains g.core) || decide (4095 < g.stage)
    || decide (7 < g.prio) || decide (8192 < g.first + g.size)
    || decide (g.size < g.program.length) || decide (g.entry < g.first) || decide (g.first + g.size ≤ g.entry)
    || g.ins.any badRing
    || g.outs.any badOut
    || (distinct (g.ins.map (·.1))).length != g.ins.length || (distinct (g.outs.map (·.1))).length != g.outs.length
    || g.trig.any (fun t => t.2 == 0 || decide (entries t.1 < t.2))
    || g.need.any (fun t => t.2 == 0 || decide (free t.1 < t.2))
    || decide (16 < g.stateMap.length) || !g.stateMap.all mapOk
    || g.weights.any (fun w => w.2 == 0 || decide (65535 < w.2))
    || badGang g || badRange p g || badSnap p g || badBases g

/-- Entries that other prepares have reserved slots of core `k` for. -/
def reservedEntries (s : State) (h : BitVec 128) (k : Nat) : List StageCfg :=
  (reservedParts s h).flatMap fun q => q.contexts.filter fun g => g.core == k

/-- A slot that the part leaves as it is, and that no other prepare has reserved, holds a context. -/
def stays (s : State) (p : ImagePart) (k : Nat) (b : Bool) : Bool :=
  let x := ctxAt s k b
  !(targets p).contains (k, b) && occupied x && x.status != .reserved

/-- Two settings that do not agree (R115, R11): arena bases of the contexts of one core, two staged contexts of one core,
among those of the part, those that stay, and those that other prepares have reserved slots for. -/
def badCores (s : State) (h : BitVec 128) (p : ImagePart) (k : Nat) : Bool :=
  let c := getCore s k
  let stay := [false, true].filter (stays s p k)
  let mine := p.contexts.filter fun g => g.core == k
  let others := reservedEntries s h k
  let bases := (mine.map fun g => g.arena) ++ (others.map fun g => g.arena) ++ (stay.map fun b => (getCtx c b).cfg.arena)
    ++ [c.shadow0.bind (·.saved.cfg.arena), c.shadow1.bind (·.saved.cfg.arena)]
  let held := stay.filter fun b =>
    let x := getCtx c b
    x.status == .staged || (x.status == .configured && x.cfg.staged)
  (mine.any fun g => g.arena.isSome) && decide (1 < (distinct (bases.filterMap id)).length)
    || (mine.any fun g => g.staged) && decide (1 < ((mine ++ others).filter fun g => g.staged).length + held.length)

/-- The ports of a stage over all its members: at most eight of either kind, no number twice (R10, R22). -/
def badPorts (p : ImagePart) (n : Nat) : Bool :=
  let gs := p.contexts.filter fun g => g.stage == n
  let ins := gs.flatMap fun g => g.ins.map (·.1)
  let outs := gs.flatMap fun g => g.outs.map (·.1)
  decide (8 < ins.length) || decide (8 < outs.length) || (distinct ins).length != ins.length
    || (distinct outs).length != outs.length

/-- A limit of R8, R10 or R11 that a part exceeds as a whole. -/
def badPart (s : State) (h : BitVec 128) (p : ImagePart) : Bool :=
  decide (4096 < p.stages) || p.chips.any (fun c => decide (4094 < c)) || decide (4095 < p.chips.length)
    || (distinct (targets p |>.map fun e => 2 * e.1 + b01 e.2)).length != p.contexts.length
    || (p.contexts.any fun g => badPorts p g.stage)
    || (List.range 16).any (badCores s h p)

/-- A part that some limit makes invalid (R10, R358 reason 0x05). -/
def invalidPart (s : State) (h : BitVec 128) (p : ImagePart) : Bool := p.contexts.any (badEntry s p) || badPart s h p

/-- The share of an entry overlaps a live or reserved share of its core, or the curator share. -/
def shareTaken (s : State) (h : BitVec 128) (p : ImagePart) (g : StageCfg) : Bool :=
  let c := getCore s g.core
  let live := [false, true].any fun b =>
    let x := getCtx c b
    occupied x && !(targets p).contains (g.core, b) && shareClash g.first g.size x.cfg.first x.cfg.size
  let others := ((reservedParts s h).flatMap fun q => q.contexts) ++ p.contexts.filter fun e => e != g
  live || others.any (fun e => e.core == g.core && shareClash g.first g.size e.first e.size)
    || shareClash g.first g.size (kvecBase c) (kvecSize c)

/-- A slot-table entry outside the partition's share, or reserved by another prepare (R358). -/
def slotTaken (s : State) (h : BitVec 128) (q : Partition) (e : SlotEntry) : Bool :=
  let first := bitsOf q.sltctl.toNat 0 8
  let count := bitsOf q.sltctl.toNat 8 9
  decide (e.slot < first) || decide (first + count ≤ e.slot)
    || (reservedParts s h).any fun p => p.slots.any fun d => d.slot == e.slot && d.out == e.out && d.keyed.isNone

/-- The stages of a part that take a range cell (R369). -/
def cellStages (p : ImagePart) : List Nat :=
  distinct ((p.contexts.filter fun g => g.range != .none).map fun g => g.stage)

/-- The range cells that are taken on this package once a part's drained contexts are gone (R359, R369). -/
def cellsHeld (s : State) (p : ImagePart) : Nat :=
  (dropCells ((targets p).foldl (fun s e => modCore s e.1 fun c => emptySlot c e.2) s)).cells.length

/-- Array contexts that a core would hold armed (R355): those that stay and are not staged, placed staged or drained, and
those of the part and of other prepares that are not placed staged. -/
def armedArrays (s : State) (h : BitVec 128) (p : ImagePart) (k : Nat) : Nat :=
  let old := [false, true].filter fun b =>
    let x := ctxAt s k b
    stays s p k b && x.status != .drained && x.cfg.arrayUse && !stagedArray x
  let new := (p.contexts.filter fun g => g.core == k) ++ reservedEntries s h k
  old.length + (new.filter fun g => usesArray g && !g.staged).length

/-- The reason for which a prepare rejects a part, the lowest that applies; 0 accepts (R358). `recs`: the records of the
save area of a restore. -/
def rejectReason (s : State) (h : BitVec 128) (base : Nat) (recs : Option (List SaveRec)) (part : Option ImagePart) : Nat :=
  match part with
  | none => 0x01
  | some p =>
    let missing := (match recs with
      | some rs => p.contexts.any fun g => (findRec rs g).isNone
      | none => false) || p.contexts.any fun g => s.boot.unloaded.contains g.core
    let check := leNat ((sha384 (headBytes s base)).take 8)
    if missing then 0x01
    else if check ≠ handleCheck h ∨ p.region ≠ handleRegion h ∨ p.partition ≠ handlePart h then 0x02
    else if p.contexts.any (fun g =>
        let x := ctxAt s g.core g.ctx
        x.status != .empty && x.status != .drained) then 0x03
    else if p.contexts.any (shareTaken s h p) then 0x04
    else if invalidPart s h p then 0x05
    else if (p.slots.filter fun e => e.keyed.isNone).any (slotTaken s h (getPart s p.partition)) then 0x06
    else if 32 < cellsHeld s p + (cellStages p).length
        + ((reservedParts s h).map fun r => (cellStages r).length).foldl (· + ·) 0 then 0x07
    else if (match findRegion s p.partition p.region with
      | some r => r.phase != .drained
      | none => false) || (reservedParts s h).any (fun r => r.partition == p.partition && r.region == p.region) then 0x08
    else if ((List.range 16).any fun k => decide (1 < armedArrays s h p k))
        || ((getPart s p.partition).params.tree.isNone && p.contexts.any fun g => g.ins.any fun e => e.2.cow) then 0x09
    else if (findPart s p.partition).isNone then 0x0A
    else 0

/-- The rejection that a report carries: that of the lowest chip. -/
def lowestReject : List (Nat × Nat) → Option (Nat × Nat)
  | [] => none
  | e :: l => match lowestReject l with
    | none => some e
    | some f => if e.1 ≤ f.1 then some e else some f

/-- Once the package's own verdict and every neighbour's report are in, the report goes on, or the entry package decides
(R357). -/
def settleLaunch (s : State) (h : BitVec 128) : State :=
  match findLaunch s h with
  | none => s
  | some l =>
    match l.verdict, l.kids with
    | some _, [] =>
      match l.entry, lowestReject l.rejects with
      | some _, none => sendAll s (.apply h)
      | some asker, some (chip, reason) =>
        replyHost (sendAll s (.abort h)) asker (.launch (handleImage h) (handleRegion h) 1 [] chip reason)
      | none, none => sendCtl s l.via (.report h s.chip 0)
      | none, some (chip, reason) => sendCtl s l.via (.report h chip reason)
    | _, _ => s

/-- The package's verdict: what it accepts it reserves (R357, R363). -/
def judge (s : State) (h : BitVec 128) : State :=
  match findLaunch s h with
  | none => s
  | some l =>
    match findBase s (handleImage h) false with
    | none => settleLaunch (modLaunch s h fun l => { l with verdict := some 0 }) h
    | some a =>
      let part := partAt s a
      let recs := l.save.map fun _ => saveRecs l.area (handleRegion h) (handleImage h)
      let r := rejectReason s h a recs part
      let s := modLaunch s h fun l =>
        { l with verdict := some r, part := if r = 0 then part else none,
                 rejects := if r = 0 then l.rejects else l.rejects ++ [(s.chip, r)] }
      let s := match part with
        | some p => if r = 0 then
            (targets p).foldl (fun s e => modCtxAt s e.1 e.2 fun x => { x with status := .reserved }) s
          else s
        | none => s
      settleLaunch s h

/-- Read on in a save area (R415): its bytes lie on this package, or are asked of theirs; what cannot be read is missing
(R358, reason 0x01). -/
def readSave (s : State) (h : BitVec 128) (addr : BitVec 56) (len : Nat) : State :=
  match findLaunch s h with
  | none => s
  | some l =>
    let a := addr.toNat + l.area.length
    let n := pieceLen 3 a (len - l.area.length)
    if len ≤ l.area.length then judge s h
    else if faChip addr.toNat = s.chip then
      let r := faRegion addr.toNat
      let o := faOff addr.toNat
      let e := targetErr s (handlePart h) r o len false
      if e = 0 then judge (modLaunch s h fun l => { l with area := fabRead s r o len }) h
      else judge (modLaunch (noteMismatch s 4 (handlePart h) addr.toNat e) h fun l => { l with area := [] }) h
    else if routable s (mkReq s 4 (handlePart h) 0 a (natLe 4 n)) then
      sendReq s 4 (handlePart h) (handleRegion h) 16 0 a (natLe 4 n) (.save h)
    else judge (modLaunch s h fun l => { l with area := [] }) h

/-- An answer to a read of a save area. -/
def saveAnswer (s : State) (h : BitVec 128) (x : Answer) : State :=
  match findLaunch s h with
  | none => s
  | some l =>
    match x, l.save with
    | .data bs, some (a, len) => readSave (modLaunch s h fun l => { l with area := l.area ++ bs }) h a len
    | _, _ => judge (modLaunch s h fun l => { l with area := [] }) h

/-- HANDLE (R357): the package that receives it from the host is the entry package. -/
def execHandle (s : State) : Out :=
  .next (onMsg s (fun r => match r with
    | .handle _ _ => true
    | _ => false) fun s m => orForward s m fun s =>
      match m.req with
      | .handle h save =>
        if bitsOf h.toNat 56 8 ≠ 0 ∨ handlePart h = 0 then errorHost s (msgFrom m) 0x01 0
        else if m.partition ≠ 0 ∧ m.partition ≠ handlePart h then errorHost s (msgFrom m) 0x02 0
        else if (findLaunch s h).isSome then errorHost s (msgFrom m) 0x07 0
        else
          sendAll { s with launches := s.launches ++
            [⟨h, save, [], some (msgFrom m), s.chip, treeNext s, none, none, []⟩] } (.prepare h save)
      | _ => s)

/-- LAUNCH_PREPARE (R357). -/
def execLaunchPrepare (s : State) : Out :=
  .next (onRelay s (fun m => match m with
    | .prepare _ _ => true
    | _ => false) fun s from_ m =>
      match m with
      | .prepare h save =>
        let s := if (findLaunch s h).isSome then s
          else { s with launches := s.launches ++
            [⟨h, save, [], none, from_, (treeNext s).filter (· != from_), none, none, []⟩] }
        match save, findBase s (handleImage h) false with
        | some (a, len), some _ => readSave s h a len
        | _, _ => judge s h
      | _ => s)

/-- PREPARE_REPORT (R357). -/
def execPrepareReport (s : State) : Out :=
  .next (onCtl s (fun m => match m with
    | .report _ _ _ => true
    | _ => false) fun s from_ m =>
      match m with
      | .report h chip reason =>
        settleLaunch (modLaunch s h fun l =>
          { l with kids := l.kids.filter (· != from_),
                   rejects := if reason = 0 then l.rejects else l.rejects ++ [(chip, reason)] }) h
      | _ => s)

/-! ### Apply (R359) -/

/-- The entries of a ring or of an egress port (R15, R476). -/
def initCredits (c : OutCfg) : Nat := if c.egress then 64 else if c.reorder then 0 else 2 ^ c.n

/-- A context as apply loads it. -/
def newCtx (p : ImagePart) (g : StageCfg) : Context :=
  let r := { Regs.reset with xbp := g.xbp, next := .openFiring }
  let x := { Context.reset with status := .configured, cfg := { g with arrayUse := usesArray g, data := [] }, image := p.image, region := p.region, live := r, copy := r,
                                kcpc := g.entry }
  g.outs.foldl (fun x e => modOut x e.1 fun o => { o with credits := initCredits e.2 }) x

/-- Step 4 on one context. -/
def loadEntry (p : ImagePart) (s : State) (g : StageCfg) : State :=
  modCore s g.core fun c =>
    let c := setCtx (loadShare c g.first g.size g.program) g.ctx (newCtx p g)
    let c := if usesArray g = false then c
      else if g.staged then { c with stagedAcc := [] }
      else { c with acc := [], plane0 := [], plane1 := [], mwld := none }
    { c with arena := if g.arena.isSome then g.arena else coreArena c !g.ctx }

/-- The range cells that a part's stages take (R369), each with the grain of its stage. -/
def takeCells (s : State) (p : ImagePart) : State :=
  { s with cells := s.cells ++ (cellStages p).map fun n =>
      ⟨p.partition, p.region, n, ((p.contexts.find? fun g => g.stage == n && g.range != .none).map (·.grain)).getD 1, 0, false, []⟩ }

/-- The region that a part brings to this package. -/
def newRegion (s : State) (p : ImagePart) (entry : Option (Nat × Nat)) : Region :=
  let entriesOf : PortAddr → Nat := fun a =>
    ((ringCfg (ctxAt s a.core a.ctx) a.port).map fun c => 2 ^ c.n).getD 0
  { part := p.partition, num := p.region, image := p.image, cfg := p, phase := .running, source := 0, issuer := none,
    closed := false, ready := false, readyTo := entry, sinks := [], wave := 0, waving := false, asked := 0, sinkWave := [],
    reports := [], said := false, errors := [], recover := false, rolled := false, again := (0, 0), replaced := [], replacing := [],
    reinject := false,
    ingress := (p.ingress.filter fun i => i.port.chip == s.chip).map fun i => ⟨i.port, entriesOf i.port, 0, i.capacity, []⟩,
    replay := [], egress := [], sent := 0, recv := 0, totals := none, used := (0, 0), abort := none, quiet := s.clock,
    lost := [], answer := none, stray := false, gone := false, stopOn := false, least := 0, drains := false, drainer := none,
    wasDrained := false }

/-- The endpoint places a control token in an ingress port, or owes it until a credit is there (R476, R403). -/
def ingressCtl (s : State) (r : Region) (i : Ingress) (type tag : Nat) : State :=
  let put : (Ingress → Ingress) → State → State := fun f s => modRegion s r.part r.num fun r =>
    { r with ingress := r.ingress.map fun j => if j.port = i.port then f j else j }
  let reorder := ((ringCfg (ctxAt s i.port.core i.port.ctx) i.port.port).map (·.reorder)).getD false
  if i.owed ≠ [] ∨ (i.credits = 0 ∧ reorder = false) ∨ (r.replay.any fun e => e.port == i.port && e.due) = true then put (fun j => { j with owed := j.owed ++ [(type, tag)] }) s
  else
    let s := put (fun j => { j with credits := if reorder then j.credits else j.credits - 1 }) s
    let s := if type = 2 then
        (modRegion s r.part r.num fun r => { r with replay := r.replay ++ [⟨i.port, i.count, none, tag, false⟩] })
      else s
    arriveToken s i.port.core i.port.ctx i.port.port hostChip none (bareToken i.count type 0 (BitVec.ofNat 64 tag))

/-- The region's sources inject drains (R20): the endpoint at every ingress port here, and for the stages without input
ports the region itself. No rule says what calls for them (log entry 115). -/
def injectDrains (s : State) (part num : Nat) : State :=
  match findRegion s part num with
  | none => s
  | some r =>
    if r.drains then s
    else r.ingress.foldl (fun s i => ingressCtl s r i 3 0) (modRegion s part num fun r => { r with drains := true })

/-- A stage with no input port but a cow port arms with the apply, once the tree home knows its cow ports (R359, R24,
R306). -/
def armIfPortless (s : State) (k : Nat) (b : Bool) : State :=
  let ms := membersOf s k b
  if portless s ms ∧ ms.all (fun e => (ctxAt s e.1 e.2).status == .configured && cowsBound (ctxAt s e.1 e.2)) = true then
    armStage s ms
  else s

/-- The cow ports of a part are made known to the tree home (R306). -/
def bindCows (s : State) (p : ImagePart) : State :=
  match (findPart s p.partition).bind fun q => q.params.tree with
  | none => s
  | some (chip, _) =>
    (p.contexts.flatMap fun g => (g.ins.filter fun e => e.2.cow).map fun e =>
      ((⟨s.chip, g.core, g.ctx, e.1⟩ : PortAddr), 2 ^ e.2.n)).foldl (fun s e =>
        let n := (getIn (ctxAt s e.1.core e.1.ctx) e.1.port).seqs
        if chip = s.chip then cowKnown (bindCow s p.partition p.region e.1 e.2 n) e.1
        else sendCtl s chip (.cowBind p.partition p.region e.1 e.2 n)) s

/-- The slot-table entries of a part enter the pending table and commit at the next table cycle (R359). -/
def writeSlots (s : State) (part : Nat) (es : List SlotEntry) : State :=
  let s := es.foldl (fun s e => writePending s e.slot e.out e.inp) s
  let q := getPart s part
  if es.isEmpty then s
  else { s with router := { s.router with commit := s.router.commit ++
    [(bitsOf q.sltctl.toNat 0 8, bitsOf q.sltctl.toNat 8 9)] } }

/-- Every target slot that a drained context still holds may be retired (R359, R352). -/
def mayApply (s : State) (p : ImagePart) : Bool := (targets p).all fun e => retireReady s e.1 e.2

/-- Step 3 on one entry: its data in their order, so that of overlapping bytes the later stand (R468). -/
def loadData (s : State) (g : StageCfg) : State := g.data.foldl (fun s d => spWrite s g.core d.space d.addr d.bytes) s

/-- Steps 2 to 4: tables, data, contexts, the records of a restore, the region. -/
def installPart (s : State) (p : ImagePart) (entry : Option (Nat × Nat)) (recs : List SaveRec) : State :=
  let s := writeSlots s p.partition (p.slots.filter fun e => e.keyed.isNone)
  let s := p.contexts.foldl loadData s
  let s := p.contexts.foldl (loadEntry p) s
  let s := p.contexts.foldl (fun s g => match findRec recs g with
    | some r => restoreCtx s g.core g.ctx r.2.2.2
    | none => s) s
  let rest := s.regions.filter fun r => !(r.part == p.partition && r.num == p.region)
  takeCells { s with regions := rest ++ [newRegion s p entry] } p

/-- Steps 2 to 4, and its cow ports made known to the tree home. -/
def loadPart (s : State) (p : ImagePart) (entry : Option (Nat × Nat)) (recs : List SaveRec) : State :=
  bindCows (installPart s p entry recs) p

/-- Step 5: wave-0 snapshots (R403), the contexts that arm at once, and a cfgdone at every ingress port (R476). -/
def armPart (s : State) (p : ImagePart) : State :=
  let s := p.contexts.foldl (fun s g => writeSnap s g.core g.ctx 0) s
  let s := p.contexts.foldl (fun s g => armIfPortless s g.core g.ctx) s
  match findRegion s p.partition p.region with
  | none => s
  | some r => r.ingress.foldl (fun s i => ingressCtl s r i 4 0) s

/-! ### The end of configuration (R24, R361) -/

/-- The lowest open channel of a partition. -/
def partChannel (s : State) (part : Nat) : Nat :=
  (((s.channels.filter fun c => c.part == part).map (·.num)).foldl (fun m c => match m with
    | none => some c
    | some d => some (Nat.min c d)) none).getD 0

/-- The contexts of a region on this package. -/
def regionCtxs (s : State) (part num : Nat) : List (Nat × Bool) := allCtx.filter fun e => inRegionCtx s part num e.1 e.2

/-- The low-water record of a window (R391): `c` tokens popped at the snapshot of the wave. -/
def lowWater (w : PortWindow) (c wave : Nat) : List Byte :=
  natLe 16 ((w.vbase.toNat + w.step * c) % 2 ^ 80 + wave % 2 ^ 32 * 2 ^ 96)

/-- The windows of a context publish their records for a complete wave (R391). -/
def publishWindows (part wave : Nat) (s : State) (x : Context) : State :=
  match x.snaps.find? fun n => n.2.wave == wave with
  | none => s
  | some (_, n) =>
    x.cfg.windows.foldl (fun s w =>
      storeFabric s part x.region w.pub.toNat (lowWater w (n.ins.getD w.port .reset).seqs wave)) s

/-- The contexts of a region that lie in shadow storage on this package. -/
def savedCtxs (s : State) (part num : Nat) : List Context :=
  (shadowSlots s).filterMap fun o => match o with
    | some h => if h.part = part ∧ h.saved.region = num then some h.saved else none
    | none => none

/-- Every context of a region on this package, resident or saved, publishes a complete wave (R391). -/
def publishWave (s : State) (part num wave : Nat) : State :=
  ((regionCtxs s part num).map (fun e => ctxAt s e.1 e.2) ++ savedCtxs s part num).foldl (publishWindows part wave) s

/-- Every sink that the image names has reported: wave 0 is complete (R403), whose records the windows publish (R391), and an
ingress package reports ready to the host (R24). A region that names no sink is ready once it has been applied. -/
def reportReady (s : State) (part num : Nat) : State :=
  match findRegion s part num with
  | none => s
  | some r =>
    if r.ready = false ∧ r.cfg.sinks.all (fun e => r.sinks.contains e.2) = true then
      let s := publishWave (modRegion s part num fun r => { r with ready := true }) part num 0
      let ports := r.ingress.map fun i =>
        (i.port, ((ringCfg (ctxAt s i.port.core i.port.ctx) i.port.port).map fun c => 2 ^ c.n).getD 0)
      if r.ingress.isEmpty then s
      else replyHost s (r.readyTo.getD (partChannel s part, 0)) (.launch r.image num 0 ports s.chip 0)
    else s

/-- Apply a part on this package: drained contexts are retired, then steps 2 to 5. A region that names no sink has nothing to
wait for (R24). -/
def applyPart (s : State) (p : ImagePart) (entry : Option (Nat × Nat)) (recs : List SaveRec) : State :=
  let s := (targets p).foldl (fun s e => retireCtx s e.1 e.2) s
  let s := armPart (loadPart s p entry recs) p
  if p.sinks.isEmpty then reportReady s p.partition p.region else s

/-- LAUNCH_APPLY (R359). While a job holds a drained context, its suspended jobs have been killed and the apply waits. -/
def execLaunchApply (s : State) : Out :=
  .next (
    match s.ctlIn.find? fun e => match e.2 with
      | .apply _ => true
      | _ => false with
    | some (from_, .apply h) =>
      match (findLaunch s h).bind fun l => l.part with
      | some p =>
        let s := (targets p).foldl (fun s e => modCore s e.1 fun c => killSuspended c e.2) s
        if mayApply s p then
          let s := { s with ctlIn := s.ctlIn.erase (from_, .apply h) }
          let s := relayCtl s from_ (.apply h)
          let recs := ((findLaunch s h).map fun l => saveRecs l.area (handleRegion h) (handleImage h)).getD []
          let entry := (findLaunch s h).bind fun l => l.entry
          applyPart { s with launches := s.launches.filter fun l => l.handle != h } p entry recs
        else s
      | none =>
        let s := relayCtl { s with ctlIn := s.ctlIn.erase (from_, .apply h) } from_ (.apply h)
        { s with launches := s.launches.filter fun l => l.handle != h }
    | _ => s)

/-- A prepare of the handle has arrived and has not been taken: an abort that came behind it follows it. -/
def preparing (s : State) (h : BitVec 128) : Bool :=
  s.ctlIn.any fun e => match e.2 with
    | .prepare g _ => g == h
    | _ => false

/-- LAUNCH_ABORT (R357): every reservation is released. -/
def execLaunchAbort (s : State) : Out :=
  .next (onRelay s (fun m => match m with
    | .abort h => !preparing s h
    | _ => false) fun s _ m =>
      match m with
      | .abort h =>
        let slots := (((findLaunch s h).bind fun l => l.part).map targets).getD []
        let s := slots.foldl (fun s e => modCore s e.1 fun c => emptySlot c e.2) s
        { s with launches := s.launches.filter fun l => l.handle != h }
      | _ => s)

/-! ### Ready (R24, R361) -/

/-- A launch of the region is accepted here and not yet applied: reports of its sinks wait for the apply. -/
def launching (s : State) (part num : Nat) : Bool :=
  s.launches.any fun l => handlePart l.handle == part && handleRegion l.handle == num

/-- READY_REPORT (R24): a sink has armed. -/
def execReadyReport (s : State) : Out :=
  .next (onRelay s (fun m => match m with
    | .sinkReady part num _ => !launching s part num
    | _ => false) fun s _ m =>
      match m with
      | .sinkReady part num stage =>
        reportReady (modRegion s part num fun r =>
          { r with sinks := if r.sinks.contains stage then r.sinks else r.sinks ++ [stage] }) part num
      | _ => s)

/-! ### INJECT (R361, R408, R448) -/

/-- The region and ingress port of an address, if any. -/
def findIngress (s : State) (part : Nat) (a : PortAddr) : Option (Region × Ingress) :=
  s.regions.findSome? fun r => if r.part = part then (r.ingress.find? fun i => i.port == a).map fun i => (r, i) else none

/-- The kept tokens of an ingress port. -/
def keptTokens (r : Region) (a : PortAddr) : Nat := (r.replay.filter fun e => e.port == a && e.tok.isSome).length

/-- The region accepts no inject: stopping, stopped, draining or drained. -/
def closedRegion (r : Region) : Bool := r.closed || r.phase != .running

/-- Why an inject is refused, 0 for none. -/
def injectReason (s : State) (part : Nat) (a : PortAddr) (replay : Bool) (h : BitVec 128) (payload : List Byte) : Nat :=
  match findIngress s part a with
  | none => if (s.regions.any fun r => r.ingress.any fun i => i.port == a) then 0x02 else 0x03
  | some (r, i) =>
    let type := bitsOf h.toNat 48 8
    let max := ((ringCfg (ctxAt s a.core a.ctx) a.port).map (·.maxlen)).getD 0
    if payload.length < 64 ∨ 4096 < payload.length ∨ payload.length % 16 ≠ 0 ∨ max < payload.length ∨ type ≠ 1 then 0x01
    else if r.ready = false then 0x03
    else if replay ∧ r.reinject = false then 0x07
    else if closedRegion r ∨ i.cap ≤ keptTokens r a then 0x05
    else if i.credits = 0 ∨ i.owed ≠ [] ∨ (r.replay.any fun e => e.port == a && e.due) = true then 0x04
    else 0

/-- A kept token lies in the replay area that the header names (R408): header and payload as in a ring, an entry of 4112
bytes for each token of the capacity, by its sequence number (log entry 116). -/
def keepBytes (s : State) (r : Region) (a : PortAddr) (n : Nat) (t : Token) : State :=
  match r.cfg.ingress.find? fun i => i.port == a with
  | none => s
  | some i => storeFabric s r.part r.num (i.area + n % Nat.max 1 i.capacity * 4112) (headerBytes t ++ t.payload)

/-- INJECT (R361): the token enters the ring, with the port's count as its sequence number, and the replay area. -/
def execInject (s : State) : Out :=
  .next (onMsg s (fun r => match r with
    | .inject _ _ _ _ _ => true
    | _ => false) fun s m => orForward s m fun s =>
      match m.req with
      | .inject a replay seq h payload =>
        let why := injectReason s m.partition a replay h payload
        if why ≠ 0 then errorHost s (msgFrom m) why 0
        else match findIngress s m.partition a with
          | none => s
          | some (r, i) =>
            let n := if replay then seq else i.count
            let t := { tokenOf h.toNat payload with seq := n % 2 ^ 32 }
            let s := modRegion s r.part r.num fun r =>
              { r with ingress := r.ingress.map fun j =>
                         if j.port = a then { j with credits := j.credits - 1, count := (n + 1) % 2 ^ 32 } else j,
                       replay := r.replay ++ [⟨a, n, some t, 0, false⟩] }
            arriveToken (keepBytes s r a n t) a.core a.ctx a.port hostChip none t
      | _ => s)

end Sys2Proof.Machine
end

