-- ==== Sys2Proof/Machine/Answers.lean ====
section
/-!
DEFINITION. The answers to the requests and token flits that this package has sent (19 R431 to R433).
-/
namespace Sys2Proof.Machine

/-! ### Answers (R431 to R433) -/

/-- A control message is lost: the host's request that it carried has found no package (R448 reason 0x0A), and a package that
was to replace another has not (R460). -/
def firmLost (s : State) (m : CtlMsg) : State :=
  match m with
  | .host q =>
    let s := { s with fwd := s.fwd.filter fun e => e != msgFrom q }
    match q.req with
    | .mgmt _ => resultHost s (msgFrom q) 0x0A
    | _ => errorHost s (msgFrom q) 0x0A 0
  | .replace part num lost new _ => sendCtl s s.chip (.replaced part num lost new false)
  | _ => s

/-- A flit of a control message is answered or lost. The message is over with its last flit, or with the first one lost. -/
def firmAnswer (s : State) (id : Nat) (x : Answer) : State :=
  let open_ : Bool := s.router.tx.any fun t => (t.opens ++ t.queue).any fun o => o.who == .firm id
  match s.ctlSent.find? fun e => e.1 == id with
  | none => s
  | some e =>
    match x with
    | .lost => firmLost { s with ctlSent := s.ctlSent.erase e } e.2
    | _ => if open_ then s else { s with ctlSent := s.ctlSent.erase e }

/-- An answer reaches whatever sent the request. -/
def giveAnswer (s : State) (o : OpenFlit) (x : Answer) : State :=
  match o.who with
  | .job k id idx => jobAnswer s k id idx o.flit x
  | .host id idx => accAnswer s id idx x
  | .bara k addr _ =>
    match x with
    | .refused code =>
      postFault s k (refusedRecord k o.region 0 code (bitsOf addr.toNat 0 56))
    | _ => s
  | .cow part serial => cowAcked s part serial
  | .save h => saveAnswer s h x
  | .firm id => firmAnswer s id x
  | _ => s

/-- The lane that an answer names. -/
def ansLane (f : Flit) : Nat := bitsOf f.route.toNat 0 5

/-- An answer of type `type` closes its flit; a second one finds nothing (R432). -/
def answerIn (s : State) (type : Nat) (x : Flit → Answer) : State :=
  match takeFlit s [type] with
  | none => s
  | some (f, s) =>
    match closeFlit s f.schip (ansLane f) f.seq with
    | (none, s) => s
    | (some o, s) => giveAnswer s o (x f)

/-- READ_REPLY (R431). -/
def execReadReply (s : State) : Out := .next (answerIn s 5 fun f => .data f.payload)

/-- ATOMIC_REPLY (R431). -/
def execAtomicReply (s : State) : Out := .next (answerIn s 7 fun f => .value (leNat (f.payload.take 8)))

/-- ACKNOWLEDGEMENT (R431). -/
def execAcknowledgement (s : State) : Out := .next (answerIn s 8 fun _ => .done)

/-- REFUSAL (R431). -/
def execRefusal (s : State) : Out := .next (answerIn s 9 fun f => .refused (bitsOf f.route.toNat 8 8))

/-- PREFIX_REPLY (R420, R272). -/
def execPrefixReply (s : State) : Out :=
  .next (
    match takeFlit s [0x0B] with
    | none => s
    | some (f, s) =>
      match closeFlit s f.schip (ansLane f) f.seq with
      | (none, s) => s
      | (some o, s) =>
        match o.who, repOf f.payload with
        | .job k id _, some r => takeRep s { r with core := k, job := id }
        | _, _ => s)

/-- A request that is given up: its source hears of it (R433). -/
def loseFlit (s : State) (dchip lane seq : Nat) : State :=
  match closeFlit s dchip lane seq with
  | (none, s) => s
  | (some o, s) => giveAnswer s o .lost

/-- Token flits, and the mirror copies of a snapshot, are resent without limit (R433). -/
def endless (lane : Nat) (o : OpenFlit) : Bool :=
  lane == tokenLane || (match o.who with
    | .mirror _ _ => true
    | _ => false)

/-- A flit of the stream that its source router could not send, and that is given up (R433). -/
def unsentFlit (t : TxStream) : Option OpenFlit := t.opens.find? fun o => o.tries == 9 && !endless t.lane o

/-- The first of the stream's waiting flits has no way: it is not sent, and takes no number (R431, R433). -/
def blockedHead (s : State) (t : TxStream) : Option OpenFlit :=
  match t.queue with
  | o :: _ => if endless t.lane o || routable s o.flit then none else some o
  | [] => none

/-- What a stream cannot send ends with error 0x09 at once (R433). -/
def dropUnsent (s : State) (dchip lane : Nat) : State :=
  let t := findTx s dchip lane
  match unsentFlit t, blockedHead s t with
  | some o, _ => loseFlit s dchip lane o.seq
  | none, some o => giveAnswer (putTx s { t with queue := t.queue.drop 1 }) o .lost
  | none, none => s

/-- E2E_RESEND_TIMEOUT (R433): 65536 cc without a reply. A request is given up after its eighth resend. -/
def execE2eResendTimeout (dchip : Nat) (lane : Nat) (seq : Nat) (s : State) : Out :=
  .next (
    let t := findTx s dchip lane
    match t.opens.find? fun o => o.seq == seq with
    | none => s
    | some o =>
      if 8 ≤ o.tries ∧ endless lane o = false then loseFlit s dchip lane seq
      else
        let s := putTx s { t with opens := t.opens.map fun u => if u.seq = seq then { u with tries := u.tries + 1 } else u }
        routeFlit s (128 + o.core) o.flit)

end Sys2Proof.Machine
end

