-- ==== Sys2Proof/Machine/Curve.lean ====
section
/-!
DEFINITION. The signatures and the key agreement that the spec names by their standards: ECDSA P-384 and ECDHE over secp384r1
(20 R449, R462, R463: FIPS 186-5), LMS_SHA256_M32_H20 with LMOTS_SHA256_N32_W8 (R462: RFC 8554), and the key derivation of
DSP0277 (R449). The constants and layouts are those of the standards (log entry 152).
-/
namespace Sys2Proof.Machine

/-! ### P-384 -/

def p384 : Nat := 2 ^ 384 - 2 ^ 128 - 2 ^ 96 + 2 ^ 32 - 1

/-- The order of the group. -/
def p384Order : Nat := 0xFFFFFFFFFFFFFFFFFFFFFFFFFFFFFFFFFFFFFFFFFFFFFFFFC7634D81F4372DDF581A0DB248B0A77AECEC196ACCC52973

def p384B : Nat := 0xB3312FA7E23EE7E4988E056BE3F82D19181D9C6EFE8141120314088F5013875AC656398D8A2ED19D2A85C8EDD3EC2AEF

/-- A point of the curve; none is the one at infinity. -/
abbrev CurvePoint := Option (Nat × Nat)

def p384Base : CurvePoint :=
  some (0xAA87CA22BE8B05378EB1C71EF320AD746E1D3B628BA79B9859F741E082542A385502F25DBF55296C3A545E3872760AB7,
    0x3617DE4A96262C6F5D9E98BF9292DC29F8F41DBD289A147CE9DA3113B5F0B8C00A60B1CE1D7E819D7A431D7C90EA0E5F)

/-- Powers modulo `m`, of exponents below 2^n. -/
def powMod (m : Nat) : Nat → Nat → Nat → Nat
  | 0, _, _ => 1 % m
  | n + 1, a, e => (if e % 2 = 1 then a else 1) * powMod m n (a * a % m) (e / 2) % m

/-- The inverse modulo a prime of 384 bits. -/
def invMod (m a : Nat) : Nat := powMod m 384 (a % m) (m - 2)

/-- The point lies on the curve. -/
def onCurve (x y : Nat) : Bool :=
  decide (x < p384) && decide (y < p384) && y * y % p384 == (x * x * x + (p384 - 3) * x + p384B) % p384

/-- The sum of two points. -/
def curveAdd (a b : CurvePoint) : CurvePoint :=
  match a, b with
  | none, b => b
  | a, none => a
  | some (x1, y1), some (x2, y2) =>
    if x1 = x2 ∧ (y1 + y2) % p384 = 0 then none
    else
      let l := if x1 = x2 then (3 * x1 * x1 + (p384 - 3)) * invMod p384 (2 * y1)
        else (y2 + p384 - y1) * invMod p384 (x2 + p384 - x1)
      let l := l % p384
      let x3 := (l * l + 2 * p384 - x1 - x2) % p384
      some (x3, (l * (x1 + p384 - x3) + p384 - y1) % p384)

/-- A multiple of a point, by a number below 2^n. -/
def curveMul : Nat → Nat → CurvePoint → CurvePoint
  | 0, _, _ => none
  | n + 1, k, a => curveAdd (if k % 2 = 1 then a else none) (curveMul n (k / 2) (curveAdd a a))

/-- Bytes, most significant first. -/
def beBytes (n v : Nat) : List Byte := (natBe n v).map fun b => BitVec.ofNat 8 b

def beVal (bs : List Byte) : Nat := beNat (byteNats bs)

/-- A public key or exchange data: x and y, 48 bytes each. -/
def pointBytes : CurvePoint → List Byte
  | some (x, y) => beBytes 48 x ++ beBytes 48 y
  | none => []

def readPoint (bs : List Byte) : CurvePoint :=
  let x := beVal (bs.take 48)
  let y := beVal (bs.drop 48)
  if bs.length = 96 ∧ onCurve x y = true then some (x, y) else none

def publicKey (d : Nat) : List Byte := pointBytes (curveMul 384 d p384Base)

/-- A signature, r and s, of a digest by the private key `d` with the number `k`. -/
def ecdsaSign (d k : Nat) (digest : List Byte) : List Byte :=
  let r := ((curveMul 384 k p384Base).map fun q => q.1 % p384Order).getD 0
  let v := invMod p384Order k * (beVal digest + r * d) % p384Order
  beBytes 48 r ++ beBytes 48 v

/-- The signature of the digest verifies under the public key. -/
def ecdsaVerify (pub digest sig : List Byte) : Bool :=
  let r := beVal (sig.take 48)
  let v := beVal (sig.drop 48)
  match readPoint pub with
  | none => false
  | some q =>
    if sig.length ≠ 96 ∨ r = 0 ∨ p384Order ≤ r ∨ v = 0 ∨ p384Order ≤ v then false
    else
      let w := invMod p384Order v
      let t := curveAdd (curveMul 384 (beVal digest * w % p384Order) p384Base) (curveMul 384 (r * w % p384Order) (some q))
      t.map (fun q => q.1 % p384Order) == some r

/-- The shared secret of a key agreement: the x coordinate. -/
def ecdhSecret (d : Nat) (peer : CurvePoint) : List Byte := (pointBytes (curveMul 384 d peer)).take 48

/-! ### SHA-256 and LMS -/

def rotr32 (x n : Nat) : Nat := x / 2 ^ n + x % 2 ^ n * 2 ^ (32 - n)

/-- The round constants and the initial value of SHA-256: 32 bits where SHA-512 has 64. -/
def sha256K : List Nat := (primes80.take 64).map fun p => fracRoot 3 p / 2 ^ 32
def sha256H : List Nat := (primes80.take 8).map fun p => fracRoot 2 p / 2 ^ 32

/-- Words 16 to 63 of the message schedule, latest first. -/
def sha256Words : Nat → List Nat → List Nat
  | 0, l => l
  | n + 1, l =>
    let w := fun i => l.getD (i - 1) 0
    let s0 := xor3 (rotr32 (w 15) 7) (rotr32 (w 15) 18) (w 15 / 2 ^ 3)
    let s1 := xor3 (rotr32 (w 2) 17) (rotr32 (w 2) 19) (w 2 / 2 ^ 10)
    sha256Words n ((w 16 + s0 + w 7 + s1) % 2 ^ 32 :: l)

def sha256Round (v : List Nat) (kw : Nat × Nat) : List Nat :=
  let g := fun i => v.getD i 0
  let s1 := xor3 (rotr32 (g 4) 6) (rotr32 (g 4) 11) (rotr32 (g 4) 25)
  let ch := Nat.xor (Nat.land (g 4) (g 5)) (Nat.land (2 ^ 32 - 1 - g 4) (g 6))
  let t1 := g 7 + s1 + ch + kw.1 + kw.2
  let s0 := xor3 (rotr32 (g 0) 2) (rotr32 (g 0) 13) (rotr32 (g 0) 22)
  let maj := xor3 (Nat.land (g 0) (g 1)) (Nat.land (g 0) (g 2)) (Nat.land (g 1) (g 2))
  [(t1 + s0 + maj) % 2 ^ 32, g 0, g 1, g 2, (g 3 + t1) % 2 ^ 32, g 4, g 5, g 6]

def sha256Block (h : List Nat) (b : List Nat) : List Nat :=
  let ws := (sha256Words 48 ((pieces 4 16 b).map beNat).reverse).reverse
  let v := (sha256K.zip ws).foldl sha256Round h
  (h.zip v).map fun e => (e.1 + e.2) % 2 ^ 32

/-- SHA-256. -/
def sha256 (m : List Byte) : List Byte :=
  let n := m.length
  let k := (n + 9 + 63) / 64
  let p := byteNats m ++ [0x80] ++ List.replicate (64 * k - n - 9) 0 ++ natBe 8 (8 * n)
  let h := (pieces 64 k p).foldl sha256Block sha256H
  (h.flatMap (natBe 4)).map fun b => BitVec.ofNat 8 b

/-- A hash chain of LM-OTS: steps `j` to `j + n - 1` of chain `i`. -/
def otsChain (pre : List Byte) (i : Nat) : Nat → Nat → List Byte → List Byte
  | 0, _, t => t
  | n + 1, j, t => otsChain pre i n (j + 1) (sha256 (pre ++ beBytes 2 i ++ beBytes 1 j ++ t))

/-- The LM-OTS public key that a one-time signature yields: 34 chains of 8-bit digits, the last two of them the checksum. -/
def otsCandidate (id : List Byte) (q : Nat) (msg sig : List Byte) : List Byte :=
  let pre := id ++ beBytes 4 q
  let h := sha256 (pre ++ beBytes 2 0x8181 ++ (sig.drop 4).take 32 ++ msg)
  let sum := (h.map fun b => 255 - b.toNat).foldl (· + ·) 0
  let digits := byteNats (h ++ beBytes 2 sum)
  let z := (List.range 34).flatMap fun i =>
    let a := digits.getD i 0
    otsChain pre i (255 - a) a ((sig.drop (36 + 32 * i)).take 32)
  sha256 (pre ++ beBytes 2 0x8080 ++ z)

/-- The root that a path of `n` siblings leads to from tree node `r`. -/
def lmsRoot (id : List Byte) : Nat → Nat → List Byte → List Byte → List Byte
  | 0, _, t, _ => t
  | n + 1, r, t, path =>
    let pre := id ++ beBytes 4 (r / 2) ++ beBytes 2 0x8383
    lmsRoot id n (r / 2) (sha256 (if r % 2 = 1 then pre ++ path.take 32 ++ t else pre ++ t ++ path.take 32)) (path.drop 32)

/-- The one-time-key index of a signature. -/
def lmsIndex (sig : List Byte) : Nat := beVal (sig.take 4)

/-- The LMS signature of the message verifies: types 4 and 8, 1124 bytes of one-time signature, 20 siblings. -/
def lmsVerify (pub msg sig : List Byte) : Bool :=
  let id := (pub.drop 8).take 16
  let q := lmsIndex sig
  let ots := (sig.drop 4).take 1124
  let leaf := sha256 (id ++ beBytes 4 (2 ^ 20 + q) ++ beBytes 2 0x8282 ++ otsCandidate id q msg ots)
  pub.length == 56 && sig.length == 1772 && beVal (pub.take 4) == 8 && beVal ((pub.drop 4).take 4) == 4
    && beVal (ots.take 4) == 4 && beVal ((sig.drop 1128).take 4) == 8 && decide (q < 2 ^ 20)
    && lmsRoot id 20 (2 ^ 20 + q) leaf (sig.drop 1132) == pub.drop 24

/-! ### Key derivation (DSP0274, DSP0277) -/

def asciiBytes (t : String) : List Byte := t.toList.map fun c => BitVec.ofNat 8 c.toNat

/-- The text that names a derived value of `n` bytes. -/
def binConcat (n : Nat) (label : String) (context : List Byte) : List Byte :=
  natLe 2 n ++ asciiBytes "spdm1.3 " ++ asciiBytes label ++ context

/-- HKDF-Expand to `n` bytes, at most 48. -/
def hkdfExpand (key : List Byte) (n : Nat) (label : String) (context : List Byte) : List Byte :=
  (hmac384 key (binConcat n label context ++ [1])).take n

/-- HKDF-Extract. -/
def hkdfExtract (salt key : List Byte) : List Byte := hmac384 salt key

def zeros48 : List Byte := List.replicate 48 0

/-- The handshake secret of a key agreement. -/
def handshakeSecret (shared : List Byte) : List Byte := hkdfExtract zeros48 shared

/-- The key of the HMAC that FINISH carries; `th`: the transcript's hash after KEY_EXCHANGE. -/
def finishedKey (shared th : List Byte) : List Byte :=
  hkdfExpand (hkdfExpand (handshakeSecret shared) 48 "req hs data" th) 48 "finished" []

def masterSecret (shared : List Byte) : List Byte :=
  hkdfExtract (hkdfExpand (handshakeSecret shared) 48 "derived" []) zeros48

/-- The data secret of a direction; `th`: the transcript's hash after FINISH. -/
def dataSecret (shared : List Byte) (label : String) (th : List Byte) : List Byte := hkdfExpand (masterSecret shared) 48 label th

/-- The encryption key under a data secret. -/
def dataKey (secret : List Byte) : List Byte := hkdfExpand secret 32 "key" []

/-- The data secret after KEY_UPDATE. -/
def nextSecret (secret : List Byte) : List Byte := hkdfExpand secret 48 "traffic upd" []

end Sys2Proof.Machine
end

