-- ==== Sys2Proof/Machine/Link.lean ====
section
/-!
DEFINITION. The links (19 R417, R418, R425 to R430, R436 to R442): frames and their protection, sending and receiving
them, keys, training and loss.
-/
namespace Sys2Proof.Config

/-- The keys that firmware generates (R437, log entry 22). -/
opaque firmKey : Nat → BitVec 256

end Sys2Proof.Config

namespace Sys2Proof.Machine

/-! ### The header (R419) -/

/-- The 16 header bytes of a flit as a number. -/
def flitHeader (f : Flit) : BitVec 128 :=
  BitVec.ofNat 128 (f.dchip % 2 ^ 12 + f.schip % 2 ^ 12 * 2 ^ 12 + f.partition % 2 ^ 8 * 2 ^ 24 + f.cls % 4 * 2 ^ 32
    + f.kslot % 2 * 2 ^ 34 + f.type % 32 * 2 ^ 35 + f.length % 2 ^ 8 * 2 ^ 40 + f.seq % 2 ^ 32 * 2 ^ 48 + f.route.toNat * 2 ^ 80)

/-- The flit that a header and a payload make. -/
def headerFlit (h : BitVec 128) (payload : List Byte) : Flit :=
  let v := h.toNat
  { dchip := bitsOf v 0 12, schip := bitsOf v 12 12, partition := bitsOf v 24 8, cls := bitsOf v 32 2,
    kslot := bitsOf v 34 1, type := bitsOf v 35 5, length := bitsOf v 40 8, seq := bitsOf v 48 32,
    route := BitVec.ofNat 48 (bitsOf v 80 48), payload := payload }

/-- The type is defined and permitted in its class, and for its partition (R420). -/
def typeOk (f : Flit) : Bool :=
  if f.type = 0x10 then f.cls == 3
  else if f.type = 1 ∨ f.type = 2 then decide (f.cls ≤ 2)
  else if (3 ≤ f.type ∧ f.type ≤ 0x0B) ∨ f.type = 0x14 then f.cls == 1 || f.cls == 2
  else f.type == 0x15 && (f.cls == 1 || f.cls == 2) && f.partition == 0

/-! ### Protection (R436 to R438) -/

/-- The initialisation vector: the fixed field, then the invocation counter. `low`: the transmitter's chip number is the
lower one. -/
def hopIv (link : Nat) (low : Bool) (kslot counter : Nat) : List Nat :=
  natBe 4 (link % 128 + b01 (!low) * 2 ^ 7 + kslot % 2 * 2 ^ 8) ++ natBe 8 counter

def headerBytesOf (h : BitVec 128) : List Byte := natLe 16 h.toNat

/-- The key row of a partition on this package (R437). -/
def krowOf (s : State) (part : Nat) : Option Nat :=
  if part = 0 then some 16 else (findPart s part).map fun p => p.params.krow

/-- The largest invocation count, kept for the switch-over marker (R438). -/
def lastCount : Nat := 2 ^ 48 - 1

/-- The package at the far end of a link holds the partition, as far as this one knows (R437). -/
def farHolds (s : State) (l part : Nat) : Bool := part == 0 || s.tree.holders.contains (part, (getLink s l).farChip)

/-- The active transmit slot under which a link may carry a flit of a partition now (R437, R438). -/
def txSlot (s : State) (l part : Nat) (marker : Bool) : Option (Nat × Nat) :=
  match krowOf s part with
  | none => none
  | some row =>
    if farHolds s l part = false then none else
    let k := (getLink s l).tx
    match activeSlot k row with
    | none => none
    | some n =>
      if (getKey k row n).counter < lastCount ∨ (marker = true ∧ (getKey k row n).counter = lastCount) then some (row, n)
      else none

/-- The trailer's bytes 0 to 5 (R428). -/
def trailerBytes (f : Frame) : List Byte :=
  natLe 6 (f.lseq % 2 ^ 16 + f.ack % 2 ^ 16 * 2 ^ 16 + b01 f.nack * 2 ^ 32 + b01 f.fv * 2 ^ 33 + f.cclass % 4 * 2 ^ 34
    + f.credits % 16 * 2 ^ 36)

/-- The CRC of a frame: over the 256 flit bytes and the trailer's bytes 0 to 5. -/
def frameCrc (f : Frame) : BitVec 32 :=
  crc32c (natLe 16 f.header.toNat ++ f.body ++ natLe 16 f.tag.toNat ++ trailerBytes f)

/-- A frame without a flit. -/
def nullFrame (lseq : Nat) : Frame := ⟨0, List.replicate 224 0, 0, lseq, 0, false, false, 0, 0, 0⟩

/-- The credits that the next trailer returns: their class and number, and those that then remain. -/
def takeRet (r : Nat × Nat × Nat) : (Nat × Nat) × (Nat × Nat × Nat) :=
  let n := fun k => Nat.min k 15
  if r.2.2 ≠ 0 then ((3, n r.2.2), (r.1, r.2.1, r.2.2 - n r.2.2))
  else if r.2.1 ≠ 0 then ((2, n r.2.1), (r.1, r.2.1 - n r.2.1, r.2.2))
  else if r.1 ≠ 0 then ((1, n r.1), (r.1 - n r.1, r.2.1, r.2.2))
  else ((0, 0), r)

/-- Put a frame on link `l` with its trailer as it now stands; the slot ends. -/
def putFrame (s : State) (l : Nat) (f : Frame) : State :=
  let k := getLink s l
  let (c, rest) := takeRet k.ret
  let f := { f with ack := k.rxNext, nack := k.nack, cclass := c.1, credits := c.2 }
  let f := { f with crc := frameCrc f }
  let s := setLink s l { k with ret := rest, nack := false, owed := false, slot := (k.slot + 1) % 256 }
  { s with router := { s.router with out := s.router.out ++ [(l, f)] } }

/-- A record about a link's key or loss (R339): link, direction (0 transmit) and slot in addr. -/
def linkRecord (kind core l kslot detail : Nat) : BitVec 256 := faultRecord kind core 0 (l % 128 + kslot * 2 ^ 8) detail

/-- The record of a warning or of exhaustion after a counter has advanced to `n` (R438). -/
def warnCount (s : State) (l part kslot n : Nat) : State :=
  let lc := (getPart s part).linkctl.toNat
  let k := ecoreOf s part
  if n = lastCount ∨ (bitOf lc 48 = true ∧ n = bitsOf lc 0 48) then postFault s k (linkRecord 0x14 k l kslot n) else s

/-- The first transmission of a flit on link `l` under row `row`, slot `n`: it takes the next lseq and the slot's counter
(R430, R438); a marker switches the slots over (R351). -/
def sendFirst (s : State) (l row n : Nat) (f : Flit) : State :=
  let k := getLink s l
  let q := getKey k.tx row n
  let f := { f with kslot := n }
  let h := flitHeader f
  let (ct, tag) := gcmSeal q.key (hopIv l (decide (s.chip < k.farChip)) n q.counter) (headerBytesOf h) (fitBytes 224 f.payload)
  let fr : Frame := ⟨h, ct, tag, k.txNext, 0, false, true, 0, 0, 0⟩
  let tx := if f.type = 0x10 then
      setKey (setKey k.tx row n .reset) row (1 - n) { getKey k.tx row (1 - n) with state := .active }
    else setKey k.tx row n { q with counter := q.counter + 1 }
  let s := setLink s l { k with tx := tx, txNext := (k.txNext + 1) % 2 ^ 16, unacked := k.unacked ++ [(f, fr)] }
  warnCount (putFrame s l fr) l f.partition n (q.counter + 1)

/-! ### What a slot carries (R423, R425) -/

/-- Link `l` is a candidate for the flit, with a usable row (R437). -/
def mayLeave (s : State) (l : Nat) (f : Flit) : Bool :=
  (candidates s (routeChip s f.partition f.dchip)).contains l && (txSlot s l f.partition false).isSome

/-- A switch-over marker of the flit's partition waits for link `l` ahead of the flit (R351). -/
def behindMarker (s : State) (l : Nat) (w : Waiting) : Bool :=
  (s.router.waiting.dropWhile fun v => !(v.inp == markInput l && v.flit.partition == w.flit.partition)).contains w

/-- The oldest circuit flit that link `l` takes from its live entry in this slot. -/
def circuitFlit (s : State) (l : Nat) : Option Waiting :=
  match slotInput s l (getLink s l).slot with
  | none => none
  | some i => s.router.waiting.find? fun w => w.inp == i && w.flit.cls == 0 && mayLeave s l w.flit && !behindMarker s l w

/-- The candidate that a best-effort flit takes: up, free in this slot, with a credit; the most credits, the lowest
candidate index among equals. -/
def bestLink (s : State) (w : Waiting) : Option Nat :=
  let f := w.flit
  let ls := (candidates s (routeChip s f.partition f.dchip)).filter fun t =>
    (txSlot s t f.partition false).isSome && !behindMarker s t w && (circuitFlit s t).isNone && (getLink s t).cred.1 != 0
  ls.foldl (fun b t => match b with
    | none => some t
    | some u => if (getLink s u).cred.1 < (getLink s t).cred.1 then some t else some u) none

/-- A marker leaves behind every flit of its partition queued before it for the link (R472), unless the old slot is
exhausted, under which none of them can leave (R438). -/
def markerReady (s : State) (l : Nat) (w : Waiting) : Bool :=
  (getLink s l).cred.2.2 != 0 && (txSlot s l w.flit.partition true).isSome
    && ((txSlot s l w.flit.partition false).isNone || !((s.router.waiting.takeWhile fun v => v != w).any fun v =>
      v.flit.partition == w.flit.partition && v.flit.cls != 3
        && ((candidates s (routeChip s v.flit.partition v.flit.dchip)).contains l
          || (v.flit.cls == 2 && escapeLink s (routeChip s v.flit.partition v.flit.dchip) == some l))))

/-- The flit for a free slot: link control, then escape, then best-effort, the oldest first. -/
def freeFlit (s : State) (l : Nat) : Option Waiting :=
  let ws := s.router.waiting
  match ws.find? fun w => w.inp == markInput l && markerReady s l w with
  | some w => some w
  | none =>
    let esc : Waiting → Bool := fun w => w.flit.cls == 2 && (getLink s l).cred.2.1 != 0
      && escapeLink s (routeChip s w.flit.partition w.flit.dchip) == some l && (txSlot s l w.flit.partition false).isSome
      && !behindMarker s l w
    match ws.find? esc with
    | some w => some w
    | none => ws.find? fun w => w.flit.cls == 1 && bestLink s w == some l

/-- A credit of the flit's class is spent. -/
def spend (c : Nat × Nat × Nat) (cls : Nat) : Nat × Nat × Nat :=
  match cls with
  | 1 => (c.1 - 1, c.2.1, c.2.2)
  | 2 => (c.1, c.2.1 - 1, c.2.2)
  | 3 => (c.1, c.2.1, c.2.2 - 1)
  | _ => c

/-- A new flit leaves for link `l`: at most 64 are unacknowledged (R430). -/
def newFlit (s : State) (l : Nat) : Option Waiting :=
  if 64 ≤ (getLink s l).unacked.length then none
  else match circuitFlit s l with
    | some w => some w
    | none => freeFlit s l

/-- FRAME_TRANSMIT (R418, R423, R425, R430): one slot of link `l`. -/
def execFrameTransmit (l : Nat) (s : State) : Out :=
  .next (
    let k := getLink s l
    if k.up = false ∨ 128 ≤ l then s
    else match k.again with
      | n :: rest =>
        let s := setLink s l { k with again := rest }
        match k.unacked.find? fun u => u.2.lseq == n with
        | some u => putFrame s l u.2
        | none => putFrame s l (nullFrame k.txNext)
      | [] =>
        match newFlit s l with
        | none => putFrame s l (nullFrame k.txNext)
        | some w =>
          match txSlot s l w.flit.partition (w.flit.cls == 3) with
          | none => putFrame s l (nullFrame k.txNext)
          | some (row, n) =>
            let s := freeEntry { s with router := { s.router with waiting := s.router.waiting.erase w } } w
            let s := modLink s l fun k => { k with cred := spend k.cred w.flit.cls }
            sendFirst s l row n w.flit)

/-! ### Keys of partitions (R437) -/

/-- Firmware loads slot 0 of a row in both directions of a link and activates it with counters 0. -/
def loadRow (s : State) (l row : Nat) : State :=
  let k := getLink s l
  let q := fun n => (⟨.active, Config.firmKey n, 0, 0⟩ : KeySlot)
  let s := setLink s l { k with tx := setKey k.tx row 0 (q s.counter), rx := setKey k.rx row 0 (q (s.counter + 1)) }
  { s with counter := s.counter + 2 }

/-- No slot of the row holds a key. -/
def rowEmpty (k : Link) (row : Nat) : Bool :=
  [0, 1].all fun n => (getKey k.tx row n).state == .unloaded && (getKey k.rx row n).state == .unloaded

def upLinks (s : State) : List Nat := (s.router.links.filter fun e => e.2.up).map (·.1)

/-- Keys for a partition on every up link to another package that holds it. -/
def loadPartition (s : State) (part : Nat) : State :=
  match findPart s part with
  | none => s
  | some p =>
    let ls := (upLinks s).filter fun l => s.tree.holders.contains (part, (getLink s l).farChip)
      && rowEmpty (getLink s l) p.params.krow
    ls.foldl (fun s l => loadRow s l p.params.krow) s

/-- A package holds a partition no more; the news goes on. Its links carry no flit of the partition (R437). -/
def loseHolder (s : State) (from_ part chip : Nat) : State :=
  if s.tree.holders.contains (part, chip) then
    relayCtl { s with tree := { s.tree with holders := s.tree.holders.filter fun h => h != (part, chip) } } from_ (.left part chip)
  else s

/-- A package is known to hold a partition; the news goes on, and the links to it receive keys. -/
def gainHolder (s : State) (from_ part chip : Nat) : State :=
  if s.tree.holders.contains (part, chip) then s
  else
    let s := relayCtl { s with tree := { s.tree with holders := s.tree.holders ++ [(part, chip)] } } from_ (.holds part chip)
    match findPart s part with
    | none => s
    | some p => ((upLinks s).filter fun l => (getLink s l).farChip == chip).foldl (fun s l => loadRow s l p.params.krow) s

/-! ### Link loss (R441, R442) -/

/-- The partitions with a loaded row on a link. -/
def loadedParts (s : State) (k : Link) : List Nat :=
  0 :: (s.parts.filter fun p => p.params.num != 0 && !rowEmpty k p.params.krow).map fun p => p.params.num

/-- A waiting flit looks for its way again: a circuit flit that has lost its circuit, a best-effort flit that has none. -/
def rerouted (s : State) (w : Waiting) : State :=
  let f := asRouted s w.inp w.flit
  let s := { s with router := { s.router with waiting := s.router.waiting.erase w } }
  if f.cls ≠ 1 ∨ routable s f = true then { s with router := { s.router with waiting := s.router.waiting ++ [⟨w.inp, f, w.came⟩] } }
  else noWay s ⟨w.inp, f, w.came⟩

/-- The package that an ingress port's replay area lies on. -/
def areaChip (i : IngressCfg) : Nat := bitsOf i.area 44 12

/-- A region with a stage, a replay area or its home on another package. -/
def spansAway (s : State) (r : Region) : Bool :=
  r.cfg.homeChip != s.chip || r.cfg.chips.any (fun c => c != s.chip) || r.cfg.ingress.any fun i => i.port.chip != s.chip || areaChip i != s.chip

/-- With its last link gone the package stops every region that spans others (R459). -/
def isolate (s : State) : State :=
  if (upLinks s).isEmpty then
    { s with regions := s.regions.map fun r =>
        if spansAway s r ∧ r.phase ≠ .stopped then { r with phase := .stopping, closed := true, source := 2, stray := true }
        else { r with stray := r.stray || spansAway s r } }
  else s

/-- Link `l` goes down at this end after `n` failures or timeouts, 0 for loss of signal. Flits that it brought keep no
entry of the buffers that a later training opens (R427). -/
def linkLost (s : State) (l n : Nat) : State :=
  let k := getLink s l
  let back := (k.unacked.map (·.1)).filter fun f => f.type != 0x10
  let parts := loadedParts s k
  let s := setLink s l { Link.reset with farChip := k.farChip, farLink := k.farLink, fails := n }
  let s := parts.foldl (fun s p => postFault s (ecoreOf s p) (linkRecord 0x15 (ecoreOf s p) l 0 n)) s
  let s := postEvent s 0x06 0 0 (l % 128 + n % 256 * 2 ^ 8)
  let old : Waiting → Waiting := fun w => if w.inp = l then { w with came := 4 } else w
  let s := { s with router := { s.router with
      waiting := (s.router.waiting.filter fun w => w.inp != markInput l).map old, arrived := s.router.arrived.map old } }
  let s := back.foldl (fun s f => routeFlit s 145 { f with cls := if f.cls = 0 then 1 else f.cls, kslot := 0 }) s
  let s := s.router.waiting.foldl rerouted s
  isolate (sendCtl s s.tree.root (.linkDown s.chip l))

/-- LOSS_OF_SIGNAL (R441). -/
def execLossOfSignal (l : Nat) (s : State) : Out := .next (if (getLink s l).up then linkLost s l 0 else s)

/-- LINK_RETRY_TIMEOUT (R430): no ack has advanced for 1024 cc; the eighth in a row takes the link down. -/
def execLinkRetryTimeout (l : Nat) (s : State) : Out :=
  .next (
    let k := getLink s l
    if k.up = false ∨ k.unacked = [] then s
    else if 7 ≤ k.tmo then linkLost s l 8
    else setLink s l { k with tmo := k.tmo + 1, again := k.unacked.map fun u => u.2.lseq })

/-! ### Receiving (R429) -/

/-- Credits of a class come back. -/
def gainCredits (c : Nat × Nat × Nat) (cls n : Nat) : Nat × Nat × Nat :=
  match cls with
  | 1 => (c.1 + n, c.2.1, c.2.2)
  | 2 => (c.1, c.2.1 + n, c.2.2)
  | 3 => (c.1, c.2.1, c.2.2 + n)
  | _ => c

/-- The frames that an ack passes. -/
def ackedCount (k : Link) (ack : Nat) : Nat :=
  match k.unacked with
  | [] => 0
  | u :: _ =>
    let n := (ack % 2 ^ 16 + 2 ^ 16 - u.2.lseq % 2 ^ 16) % 2 ^ 16
    if n ≤ k.unacked.length then n else 0

/-- The trailer's ack, nack and credits. -/
def applyTrailer (k : Link) (f : Frame) : Link :=
  let n := ackedCount k f.ack
  let rest := k.unacked.drop n
  let seqs := rest.map fun u => u.2.lseq
  { k with unacked := rest, tmo := if n = 0 then k.tmo else 0, cred := gainCredits k.cred f.cclass f.credits,
           again := if f.nack then seqs else k.again.filter fun q => seqs.contains q }

/-- A failed frame: a NACK for the expected lseq; the eighth failure in a row takes the link down. -/
def frameFails (s : State) (l : Nat) : State :=
  let k := getLink s l
  if 7 ≤ k.fails then linkLost s l 8 else setLink s l { k with fails := k.fails + 1, nack := true }

/-- The slot under which a received flit stands: its row is here, and the slot is active or held. -/
def rxSlot (s : State) (k : Link) (f : Flit) : Option (Nat × KeySlot) :=
  match krowOf s f.partition with
  | none => none
  | some row =>
    let q := getKey k.rx row f.kslot
    if q.state = .active ∨ q.state = .held then some (row, q) else none

/-- The payload of a flit: as many bytes as its length says (R419). -/
def cutPayload (f : Flit) (pt : List Byte) : List Byte := pt.take f.length

/-- The buffer of link input `l` for circuit flits, of 8 flits, is full (R423): a further frame that brings one is not
accepted, and its sender sends it again (log entry 117). -/
def circuitFull (s : State) (l : Nat) : Bool :=
  decide (8 ≤ ((s.router.waiting ++ s.router.arrived).filter fun w => w.inp == l && w.came == 0).length)

/-- A frame's flit, when it authenticates (R436, R420, R439): with its row and slot. -/
def openFrame (s : State) (k : Link) (f : Frame) : Option (Flit × Nat × KeySlot) :=
  let g := headerFlit f.header []
  match rxSlot s k g with
  | none => none
  | some (row, q) =>
    let other := getKey k.rx row (1 - g.kslot)
    if typeOk g = false ∨ 224 < g.length ∨ (g.type = 0x10 ∧ (other.state ≠ .loaded ∨ q.state ≠ .active)) then none
    else match gcmOpen q.key (hopIv k.farLink (decide (k.farChip < s.chip)) g.kslot q.counter) (headerBytesOf f.header) f.body f.tag with
      | none => none
      | some pt => some ({ g with payload := cutPayload g pt }, row, q)

/-- Held slots of the direction count the accepted frame and are released at 64 (R439). -/
def countHeld (q : KeySlot) : KeySlot :=
  if q.state = .held then (if 63 ≤ q.seen then .reset else { q with seen := q.seen + 1 }) else q

/-- An accepted flit: its slot's counter advances; a marker switches the slots over. -/
def acceptFlit (s : State) (l : Nat) (k : Link) (g : Flit) (row : Nat) (q : KeySlot) : State :=
  let rx := setKey k.rx row g.kslot { q with counter := q.counter + 1 }
  let rx := rx.foldl (fun t e => tabSet .reset t e.1 (countHeld e.2)) rx
  let k := { k with rxNext := (k.rxNext + 1) % 2 ^ 16, fails := 0, owed := true }
  if g.type = 0x10 then
    let rx := setKey rx row g.kslot { q with state := .held, counter := q.counter + 1, seen := 0 }
    let rx := setKey rx row (1 - g.kslot) { getKey rx row (1 - g.kslot) with state := .active }
    setLink s l { k with rx := rx, ret := (k.ret.1, k.ret.2.1, k.ret.2.2 + 1) }
  else routeFlit (setLink s l { k with rx := rx }) l { g with kslot := 0 }

/-- LINK_FRAME_RECEIVE (R429). -/
def execLinkFrameReceive (l : Nat) (f : Frame) (s : State) : Out :=
  .next (
    if (getLink s l).up = false then s
    else if frameCrc f ≠ f.crc then frameFails s l
    else
      let k := applyTrailer (getLink s l) f
      let s := setLink s l k
      if f.fv = false ∨ f.lseq ≠ k.rxNext then s
      else if (headerFlit f.header []).cls = 0 ∧ circuitFull s l = true then s
      else match openFrame s k f with
        | none => frameFails s l
        | some (g, row, q) => acceptFlit s l k g row q)

/-- A best-effort flit becomes an escape flit; it keeps the buffer entry that it came into. -/
def escaped (w : Waiting) : Waiting := { w with flit := { w.flit with cls := 2 } }

/-- Element `n` of a list, if it is a best-effort flit, becomes an escape flit. -/
def escapeAt (l : List Waiting) (n : Nat) : Option (List Waiting) :=
  match l[n]? with
  | some w => if w.flit.cls = 1 then some (l.set n (escaped w)) else none
  | none => none

/-- ESCAPE_TIMEOUT (R426): flit `n` of those that wait for a link, and after them those that wait for an output of this
package, has waited more than dltime. -/
def execEscapeTimeout (n : Nat) (s : State) : Out :=
  .next (
    let r := s.router
    match escapeAt r.waiting n with
    | some l => { s with router := { r with waiting := l, moved := r.moved + 1 } }
    | none =>
      match if r.waiting.length ≤ n then escapeAt r.arrived (n - r.waiting.length) else none with
      | some l => { s with router := { r with arrived := l, moved := r.moved + 1 } }
      | none => s)

/-- HELD_SLOT_RELEASE (R439): 4096 cc after the marker. -/
def execHeldSlotRelease (l row : Nat) (s : State) : Out :=
  .next (
    let k := getLink s l
    let drop : Tab KeySlot → Nat → Tab KeySlot := fun t n =>
      if (getKey t row n).state = .held then setKey t row n .reset else t
    if k.up then setLink s l { k with rx := drop (drop k.rx 0) 1 } else s)

/-! ### Training (R417, R422, R453) -/

/-- A link comes up: every key slot unloaded but those of the firmware row, and the rows of partitions that both ends
hold. -/
def bringUp (s : State) (p : TrainedLink) : State :=
  if p.farChip = s.chip then
    (if (getLink s p.link).up then linkLost s p.link 0 else postEvent s 0x06 0 0 (p.link % 128))
  else if (getLink s p.link).up then s
  else
    let slot := match upLinks s with
      | l :: _ => (getLink s l).slot
      | [] => 0
    let s := setLink s p.link { Link.reset with up := true, farChip := p.farChip, farLink := p.farLink, slot := slot }
    let s := loadRow s p.link 16
    s.parts.foldl (fun s q => loadPartition s q.params.num) s

/-- The better parent of two neighbours (R453). -/
def betterParent (p q : TrainedLink) : Bool :=
  decide (p.dist < q.dist) || (p.dist == q.dist && (decide (p.farChip < q.farChip)
    || (p.farChip == q.farChip && decide (p.link < q.link))))

def pickParent : List TrainedLink → Option TrainedLink
  | [] => none
  | p :: l => match pickParent l with
    | none => some p
    | some q => if betterParent p q then some p else some q

/-- The boot spanning tree from what the neighbours report (R453). -/
def buildTree (s : State) (peers : List TrainedLink) : Tree :=
  let ps := peers.filter fun p => (getLink s p.link).up
  let root := ps.foldl (fun r p => Nat.min r p.root) s.chip
  let par := if root = s.chip then none else pickParent (ps.filter fun p => p.root == root)
  let kids := ps.filter fun p => !p.below.isEmpty && par.map (·.farChip) != some p.farChip
  { s.tree with epoch := s.tree.epoch + 1, root := root, dist := (par.map fun p => p.dist + 1).getD 0,
                parent := par.map (·.farChip), up := (par.map (·.link)).getD 0,
                children := kids.map (·.farChip), below := kids.map fun p => (p.link, p.below),
                lost := s.tree.lost.filter fun c => !(ps.any fun p => p.farChip == c) }

/-- Chips with their distances: those of `d`, and what `n` more hops over the links reach. -/
def hopsFrom (ls : List Edge) : Nat → Nat → List (Nat × Nat) → List (Nat × Nat)
  | 0, _, d => d
  | n + 1, lvl, d =>
    let known : Nat → Bool := fun c => d.any fun x => x.1 == c
    let far := distinct ((ls.filter fun e => known e.chip && !known e.far).map (·.far))
    hopsFrom ls n (lvl + 1) (d ++ far.map fun c => (c, lvl + 1))

/-- What the far end of a link reports of itself, in the tree of distances `d`. -/
def edgePeer (root : Nat) (d : List (Nat × Nat)) (e : Edge) : TrainedLink :=
  ⟨e.link, e.far, e.farLink, root, ((d.find? fun x => x.1 == e.far).map (·.2)).getD 0, []⟩

/-- The parent of a chip, and the link to it. -/
def parentOver (ls : List Edge) (root : Nat) (d : List (Nat × Nat)) (c : Nat) : Option TrainedLink :=
  if c = root then none else pickParent ((ls.filter fun e => e.chip == c).map (edgePeer root d))

/-- A chip with those above it. -/
def aboveOver (ls : List Edge) (root : Nat) (d : List (Nat × Nat)) : Nat → Nat → List Nat
  | 0, c => [c]
  | n + 1, c => match parentOver ls root d c with
    | some p => c :: aboveOver ls root d n p.farChip
    | none => [c]

/-- The boot spanning tree over the links `ls` that are up (R453), as every package builds it from them. -/
def treeOver (s : State) (ls : List Edge) : Tree :=
  let root := (hopsFrom ls ls.length 0 [(s.chip, 0)]).foldl (fun r x => Nat.min r x.1) s.chip
  let d := hopsFrom ls ls.length 0 [(root, 0)]
  let mine : Edge → Bool := fun e => match parentOver ls root d e.far with
    | some p => p.farChip == s.chip && p.link == e.farLink
    | none => false
  let peer : Edge → TrainedLink := fun e => { edgePeer root d e with
    below := if mine e then (d.map (·.1)).filter fun c => (aboveOver ls root d ls.length c).contains e.far else [] }
  { buildTree s ((ls.filter fun e => e.chip == s.chip).map peer) with epoch := s.tree.epoch, built := ls, downs := [] }

/-- The tree is rebuilt without chip `x`, over the links `ls` then up, and the escape tables follow it (R453, R459). -/
def rebuildTree (s : State) (x : Nat) (ls : List Edge) : State :=
  let t := treeOver s ls
  { s with tree := { t with lost := if t.lost.contains x then t.lost else t.lost ++ [x] }, router := { s.router with escape := [] } }

/-- A channel as it opens. -/
def newChannel (num part : Nat) (keyed : Bool) (key : BitVec 256) : Channel :=
  ⟨num, part, keyed, key, 0, 0, false, [], [], [], 0, false, false⟩

/-- Steps 5 and 6 of power-on, after step 4: links trained, then the host port with channel 0 (R465). -/
def plinthUp (s : State) : State :=
  if s.power.step = 4 then { s with power := { s.power with step := 6 }, channels := [newChannel 0 0 false 0] } else s

/-- LINK_TRAINING (R453): the links of the peers are up, the slot counters agree, and the tree is built over the links
then up. The root hears of every link; partitions held are made known; regions stopped by isolation go on. Firmware trains
links only once it runs; with the first training step 5 of power-on is done, and Plinth is up with channel 0 (R465). -/
def execLinkTraining (peers : List TrainedLink) (s : State) : Out :=
  .next (if s.power.step < 4 then s else
    let s := plinthUp (peers.foldl bringUp s)
    let gone := s.tree.downs
    let built := s.tree.built.filter fun b => !gone.contains (b.chip, b.link)
    let tree := { buildTree s peers with downs := [], built := built }
    let s := { s with tree := tree, router := { s.router with escape := [] } }
    let s := (upLinks s).foldl (fun s l => sendCtl s s.tree.root (.linkUp ⟨s.chip, l, (getLink s l).farChip, (getLink s l).farLink⟩)) s
    let s := (s.parts.map fun p => (p.params.num, s.chip)).foldl (fun s h =>
      if s.tree.holders.contains h then s else { s with tree := { s.tree with holders := s.tree.holders ++ [h] } }) s
    let s := s.tree.holders.foldl (fun s h => floodCtl s (.holds h.1 h.2)) s
    if (upLinks s).isEmpty then s
    else
      (s.regions.filter fun r => r.stray).foldl (fun s r =>
        modRegion (thawHere s r.part r.num) r.part r.num fun r => { r with stray := false }) s)

end Sys2Proof.Machine
end

