-- ==== Sys2Proof/Machine/Recovery.lean ====
section
/-!
DEFINITION. Whole regions: stop waves (18 R410 to R412), the hang monitor and its maps (16 R371 to R375), drain
pre-emption (18 R413, R414), marker waves (R403, R408), region errors with roll-back and replay (R400 to R402, R408,
R409), the loss and the replacement of a package (20 R458 to R461).
-/
namespace Sys2Proof.Machine

/-! ### Stop waves -/

/-- A stop may take the context now: no Caliper comparison, no marker action past its rate check is under way (R236, R412). -/
def mayTake (x : Context) : Bool := x.mchk.isNone && x.ctlBusy != some 1 && x.ctlBusy != some 2

/-- A stop takes a context at its bundle boundary (R107); a rerun pair is abandoned (R398). -/
def takeCtx (source : Nat) (s : State) (e : Nat × Bool) : State :=
  let x := ctxAt s e.1 e.2
  if x.stopped.isSome ∨ mayTake x = false then s
  else
    let s := if (getCore s e.1).running = some e.2 then abandonRerun s e.1 e.2 else s
    let w := (getCore s e.1).w
    let s := modCtxAt s e.1 e.2 fun x => { x with stopped := some source, wait := 0, took := w }
    modCore s e.1 fun c => if c.running = some e.2 ∧ c.curator = false then { c with running := none } else c

/-- Once a core's contexts of the region are all taken, it enters curator mode with cause 0x0D, or after its TRET
(R411). -/
def stopEntries (part num source : Nat) (old : State) (s : State) (k : Nat) : State :=
  let mine : List Bool := [false, true].filter fun b => inRegionCtx s part num k b
  let taken : State → Bool := fun s => mine.all fun b => (ctxAt s k b).stopped.isSome
  if mine.isEmpty ∨ taken s = false ∨ taken old = true then s
  else
    let b := match mine with
      | [b] => b
      | _ => false
    enterStop (modCore s k fun c => { c with stopEntry := c.stopEntry ++ [(num, source, b)] }) k

/-- Take what can be taken of a stopping region. -/
def takeRegion (s : State) (r : Region) : State :=
  let t := (regionCtxs s r.part r.num).foldl (takeCtx r.source) s
  (List.range 16).foldl (stopEntries r.part r.num r.source s) t

/-- The region's home starts its stop wave, unless one is under way (R410). A drain in progress ends with it (R372, R345). -/
def startStop (s : State) (r : Region) (source : Nat) : State :=
  if r.stopOn ∨ r.phase = .stopped then s
  else
    let s := if r.phase = .draining then sendAll s (.drainEnd r.part r.num false) else s
    sendAll (modRegion s r.part r.num fun r => { r with stopOn := true, reports := [], waving := r.waving, totals := none })
      (.stop r.part r.num source)

/-- STOP_WAVE_PACKAGE (R410): the wave reaches the package, which closes its ingress and takes the region's contexts; or
contexts that could not be taken before now are. -/
def execStopWavePackage (s : State) : Out :=
  .next (
    let s := onRelay s (fun m => match m with
      | .stop _ _ _ => true
      | _ => false) fun s _ m =>
        match m with
        | .stop part num source =>
          modRegion s part num fun r =>
            if r.phase = .stopped then r
            else { r with phase := .stopping, closed := true, source := source, said := false,
                          wasDrained := r.phase == .drained || (r.phase == .stopping && r.wasDrained) }
        | _ => s
    (s.regions.filter fun r => r.phase == .stopping).foldl takeRegion s)

/-- Some committed work of the region is still under way on this package: effects released, jobs that can go on (R410). -/
def regionWorks (s : State) (part num : Nat) : Bool :=
  ((regionCtxs s part num).any fun e => !(ctxAt s e.1 e.2).relq.isEmpty)
    || (List.range 16).any fun k => (getCore s k).jobs.any fun j => j.part == part && j.region == num &&
      (match j.state with
        | .suspended => false
        | .queued => mayStart s k j
        | _ => true)

/-- Flits sent for the region that have not been answered, but for those to lost chips (R410, R477). -/
def regionFlits (s : State) (r : Region) : Bool :=
  s.router.tx.any fun t => !r.lost.contains t.dchip &&
    (t.opens ++ t.queue).any fun o => o.part == r.part && o.region == r.num

/-- Everything that the package's report waits for is over. -/
def stopReady (s : State) (r : Region) : Bool :=
  ((regionCtxs s r.part r.num).all fun e => (ctxAt s e.1 e.2).stopped.isSome) && !regionWorks s r.part r.num && !regionFlits s r

/-- Every package of the region, but for the lost ones, has answered. -/
def allAnswered (r : Region) : Bool := r.cfg.chips.all fun c => r.reports.contains c || r.lost.contains c

/-- The home's stop wave is complete once every package has answered (R410). -/
def stopAnswered (s : State) (r : Region) : State :=
  if r.stopOn ∧ allAnswered r = true then
    sendAll (modRegion s r.part r.num fun r => { r with stopOn := false }) (.stopDone r.part r.num)
  else s

/-- A stopping region's report is due (R410). -/
def reportDue (s : State) (r : Region) : Bool := r.phase == .stopping && !r.said && stopReady s r

/-- STOP_REPORT (R410): this package reports for a region; or a report reaches the home, and with the last one the wave
is complete. -/
def execStopReport (s : State) : Out :=
  .next (
    match s.regions.find? (reportDue s) with
    | some r =>
      let s := modRegion s r.part r.num fun r => { r with said := true }
      if r.stray then modRegion s r.part r.num fun r => { r with phase := .stopped }
      else sendCtl s r.cfg.homeChip (.stopped r.part r.num s.chip)
    | none => onCtl s (fun m => match m with
        | .stopped _ _ _ => true
        | _ => false) fun s _ m =>
          match m with
          | .stopped part num chip =>
            let s := modRegion s part num fun r =>
              { r with reports := if r.reports.contains chip then r.reports else r.reports ++ [chip] }
            match findRegion s part num with
            | some r =>
              stopAnswered s r
            | none => s
          | _ => s)

/-! ### The hang monitor (R371 to R375) -/

/-- What an input port waits for (R374): 8 a frozen pop or wait, 2 a control token, 3 a ticket, 1 its trigger, 0 nothing. -/
def inWait (x : Context) (p : Nat) (c : RingCfg) : Nat :=
  let i := getIn x p
  let min := ((x.cfg.trig.find? fun t => t.1 == p).map (·.2)).getD 0
  if x.why = some (.rpop p) ∨ x.why = some (.waitt p) then 8
  else if (ctlHead c i).isSome then 2
  else if c.reorder ∧ (i.toks.any fun t => t.ticket == liveHead i) = false ∧ (i.toks.any fun t => beyondHead t.ticket (liveHead i) != 0) = true then 3
  else if (visibleToks c i).length < min then 1
  else 0

/-- What an output port waits for (R374): 4 a credit, 5 a ticket window, 6 a grant, 7 its need, 0 nothing. -/
def outWait (x : Context) (p : Nat) (c : OutCfg) : Nat :=
  let min := ((x.cfg.need.find? fun t => t.1 == p).map (·.2)).getD 0
  if x.why = some (.credit p) then 4
  else if x.why = some (.ticket p) then 5
  else if x.producers.any fun q => match q with
    | .tktg _ o _ => o == p
    | _ => false then 6
  else if freeEntries c (getOut x p) < min then 7
  else 0

/-- The record of an input port (R374). -/
def inRecord (s : State) (k : Nat) (b : Bool) (e : Nat × RingCfg) : BitVec 256 :=
  let x := ctxAt s k b
  let i := getIn x e.1
  let head := i.head % 65536
  let tail := if e.2.reorder then
      i.toks.foldl (fun m t => if ticketDist m head < ticketDist (t.ticket + 1) head then (t.ticket + 1) % 65536 else m) head
    else i.tail
  let htype := match (visibleToks e.2 i).head?, ctlHead e.2 i with
    | some t, _ => t.type
    | none, some h => h.1
    | none, none => 0
  BitVec.ofNat 256 (k + b01 b * 2 ^ 4 + e.1 % 8 * 2 ^ 5 + b01 e.2.reorder * 2 ^ 9 + e.2.n % 16 * 2 ^ 10
    + x.cfg.stage % 65536 * 2 ^ 16 + head * 2 ^ 32 + tail % 65536 * 2 ^ 48
    + (visibleToks e.2 i).length % 65536 * 2 ^ 64 + inWait x e.1 e.2 * 2 ^ 96 + htype % 256 * 2 ^ 104
    + i.seqs % 2 ^ 32 * 2 ^ 128 + portBits (e.2.producers.headD ⟨hostChip, 0, false, 0⟩) * 2 ^ 160)

/-- Tokens of a producer that stand in the ring of an input port of this package, sent and not yet visible. -/
def hiddenToks (s : State) (ring sender : PortAddr) : Nat :=
  let x := ctxAt s ring.core ring.ctx
  match ringCfg x ring.port with
  | none => 0
  | some c =>
    let i := getIn x ring.port
    let shown := visibleToks c i
    let rest := if c.reorder then i.toks.filter fun t => decide (ticketDist t.ticket (liveHead i) < 2 ^ 15) else i.toks.drop i.popped
    (rest.filter fun t => t.producer == portBits sender && !isControl t.type && !shown.contains t).length

/-- Tokens of an output port that have been sent and are not yet visible (R374): those on their way, and those that a ring
of this package holds (log entry 68). -/
def inFlightCount (s : State) (k : Nat) (b : Bool) (p : Nat) (c : OutCfg) : Nat :=
  let away : OpenFlit → Bool := fun o => o.flit.dchip != s.chip || (match rxAct (findRx s s.chip (flitLane o.flit)) o.flit.seq with
    | .perform => true
    | .hold => true
    | _ => inFragment s o.flit)
  let mine : OpenFlit → Bool := fun o => o.flit.type == 1 && o.core == k && away o
    && bitsOf o.flit.route.toNat 0 20 == portBits c.peer && bitsOf (leNat (o.flit.payload.take 8)) 56 8 == sourceByte b p
  (s.router.tx.map fun t => ((t.opens ++ t.queue).filter mine).length).foldl (· + ·) 0
    + (if c.egress = false ∧ c.peer.chip = s.chip then hiddenToks s c.peer (portAt s k b p) else 0)

/-- The record of an output port (R374). -/
def outRecord (s : State) (k : Nat) (b : Bool) (e : Nat × OutCfg) : BitVec 256 :=
  let x := ctxAt s k b
  let o := getOut x e.1
  BitVec.ofNat 256 (k + b01 b * 2 ^ 4 + e.1 % 8 * 2 ^ 5 + 2 ^ 8 + b01 e.2.reorder * 2 ^ 9 + e.2.n % 16 * 2 ^ 10
    + x.cfg.stage % 65536 * 2 ^ 16 + inFlightCount s k b e.1 e.2 % 65536 * 2 ^ 64 + freeEntries e.2 o % 65536 * 2 ^ 80
    + outWait x e.1 e.2 * 2 ^ 96 + o.seq % 2 ^ 32 * 2 ^ 128 + portBits e.2.peer * 2 ^ 160)

/-- The code of a context's state (R375). -/
def statusCode : CtxStatus → Nat
  | .empty => 0
  | .reserved => 1
  | .armed => 2
  | .running => 3
  | .preempted => 4
  | .staged => 5
  | .drained => 6
  | .configured => 7

/-- The code of a freeze (R375). -/
def freezeCode : Freeze → Nat
  | .register => 1
  | .credit _ => 3
  | .ticket _ => 3
  | .fetch => 4
  | .engineQueue => 5
  | .footprint => 6
  | .waitb => 7
  | .waitt _ => 8
  | .rpop _ => 9
  | .evpopReg => 10
  | .eventQueue => 11
  | .producers => 12
  | .jobOverlap => 13
  | .array => 14
  | .fence => 15
  | .rngAnswer => 1
  | _ => 0

/-- W of a context (R365): of the one that runs, or that ran when a stop took it; 0 of another. -/
def ctxW (s : State) (k : Nat) (b : Bool) : Nat :=
  let x := ctxAt s k b
  if (getCore s k).running = some b then (getCore s k).w
  else if x.stopped.isSome ∧ x.status = .running then x.took else 0

/-- The record of a context (R375). -/
def ctxRecord (s : State) (k : Nat) (b : Bool) : BitVec 256 :=
  let x := ctxAt s k b
  BitVec.ofNat 256 (k + b01 b * 2 ^ 4 + statusCode x.status * 2 ^ 5 + x.cfg.prio % 8 * 2 ^ 8
    + ((x.why.map freezeCode).getD 0) * 2 ^ 11 + x.cfg.stage % 65536 * 2 ^ 16 + nextIndex x x.live.next % 65536 * 2 ^ 32
    + x.kcpc % 65536 * 2 ^ 48 + ctxW s k b % 2 ^ 64 * 2 ^ 64 + x.e % 2 ^ 64 * 2 ^ 128)

/-- The hang interval of a region: the image's, else the partition's HANGINT (R372). -/
def hangInterval (s : State) (r : Region) : Nat := if r.cfg.hangint ≠ 0 then r.cfg.hangint else (getPart s r.part).hangint.toNat

/-- The hang map of this package, at most `len` bytes (R373): every context of the package. -/
def hangMap (s : State) (r : Region) (len : Nat) : List Byte :=
  let cs := allCtx
  let ports := cs.flatMap fun e =>
    let x := ctxAt s e.1 e.2
    x.cfg.ins.map (inRecord s e.1 e.2) ++ x.cfg.outs.map (outRecord s e.1 e.2)
  let recs := ports ++ cs.map fun e => ctxRecord s e.1 e.2
  let room := (len - 64) / 32
  let cut := decide (room < recs.length)
  let np := Nat.min ports.length room
  let nc := Nat.min (recs.length - ports.length) (room - np)
  let head := 1 + s.chip % 2 ^ 12 * 2 ^ 8 + r.num % 2 ^ 16 * 2 ^ 32 + b01 cut * 2 ^ 48 + s.clock % 2 ^ 64 * 2 ^ 64
    + np % 2 ^ 16 * 2 ^ 128 + nc % 2 ^ 16 * 2 ^ 144 + hangInterval s r % 2 ^ 48 * 2 ^ 160
  (natLe 64 head ++ recs.flatMap fun q => natLe 32 q.toNat).take len

/-- The hang map goes to its area, when the image names one (R372). -/
def dumpMap (s : State) (r : Region) : State :=
  match r.cfg.dump with
  | none => s
  | some (k, w) => spWrite s k w.space w.base (hangMap s r w.len)

/-- Some context of the region on this package is at work or has tokens to take (R371). -/
def regionBusy (s : State) (part num : Nat) : Bool :=
  (regionCtxs s part num).any fun e =>
    let x := ctxAt s e.1 e.2
    x.status == .running || x.status == .preempted || x.ins.any fun i => !i.toks.isEmpty || !i.ctl.isEmpty

/-- HANG_POLL (R372): the monitor home gathers the quiet times and busy states of the region's packages; `others` are
those of the others. -/
def execHangPoll (part region : Nat) (others : List (Nat × Bool)) (s : State) : Out :=
  .next (
    match findRegion s part region with
    | none => s
    | some r =>
      let i := hangInterval s r
      let q := (others.map (·.1)).foldl Nat.min (s.clock - r.quiet)
      let busy := regionBusy s part region || others.any (·.2)
      if isHome s r = true ∧ i ≠ 0 ∧ (r.phase = .running ∨ r.phase = .draining) ∧ r.stopOn = false ∧ i ≤ q ∧ busy = true then
        startStop (modRegion s part region fun r => { r with least := q }) r 1
      else s)

/-! ### Drains (R413, R414) -/

/-- The bytes and the number of this package's context records. -/
def drainSize (s : State) (part num : Nat) : Nat × Nat :=
  let cs := regionCtxs s part num
  ((cs.map fun e => (recBytes s e.1 e.2).length).foldl (· + ·) 0, cs.length)

/-- This package's answer to a drain poll. -/
def drainAnswer (s : State) (r : Region) : DrainAns :=
  let z := drainSize s r.part r.num
  let jobs := (List.range 16).any fun k => (getCore s k).jobs.any fun j => j.part == r.part && j.region == r.num
  ⟨s.chip, regionBusy s r.part r.num || jobs || r.ingress.any fun i => !i.owed.isEmpty, r.sent, r.recv, z.1, z.2⟩

/-- Where each package's records begin in the save area: after the header, in ascending chip order. -/
def drainPlaces (l : List DrainAns) : List (Nat × Nat) :=
  let before : Nat → List Nat := fun c => (l.filter fun a => decide (a.chip < c)).map fun a => a.bytes
  l.map fun a => (a.chip, 64 + (before a.chip).foldl (· + ·) 0)

/-- DRAIN_POLL (R413, R414) at the home: when two polls in a row find the region idle with equal sums, its records are
written. `others` are the answers of the other packages. -/
def execDrainPoll (part region : Nat) (others : List DrainAns) (s : State) : Out :=
  .next (
    match findRegion s part region with
    | none => s
    | some r =>
      if isHome s r = false ∨ r.phase ≠ .draining then s
      else
        let l := drainAnswer s r :: others
        let sum : (DrainAns → Nat) → Nat := fun f => (l.map f).foldl (· + ·) 0
        let t := (sum fun a => a.sent, sum fun a => a.recv)
        if r.waving ∨ (l.any fun a => a.busy) = true ∨ t.1 ≠ t.2 then modRegion s part region fun r => { r with totals := none }
        else if r.totals ≠ some t then modRegion s part region fun r => { r with totals := some t }
        else
          let bytes := 64 + sum fun a => a.bytes
          let room := ((getPart s part).params.save.map (·.2)).getD 0
          if room < bytes then startStop s r 3
          else
            sendAll (modRegion s part region fun r =>
              { r with totals := none, reports := [], used := (sum fun a => a.count, bytes) }) (.drainWrite part region (drainPlaces l)))

/-- This package writes its records at its place. -/
def drainWriteHere (s : State) (part num : Nat) (offs : List (Nat × Nat)) : State :=
  let s := modRegion s part num fun r => { r with said := false }
  match (getPart s part).params.save, offs.find? fun e => e.1 == s.chip with
  | some (a, _), some (_, o) =>
    storeFabric s part num (a.toNat + o) ((regionCtxs s part num).flatMap fun e => recBytes s e.1 e.2)
  | _, _ => s

/-- The home writes the header, last of all, and the drain ends (R414). -/
def drainHeader (s : State) (r : Region) : State :=
  match (getPart s r.part).params.save with
  | none => s
  | some (a, _) =>
    let h := 1 + 1 * 2 ^ 8 + r.num % 2 ^ 16 * 2 ^ 16 + r.image % 2 ^ 32 * 2 ^ 32 + r.wave % 2 ^ 32 * 2 ^ 64
      + r.used.1 % 2 ^ 32 * 2 ^ 96 + r.used.2 % 2 ^ 64 * 2 ^ 128
    sendAll (storeFabric s r.part r.num a.toNat (natLe 64 h)) (.drainEnd r.part r.num true)

/-- The record that tells the issuer of a PSTOP how it ended (R339). -/
def tellStop (s : State) (r : Region) : State :=
  match r.issuer with
  | some k => modRegion (postFault s k (faultRecord 0x10 k r.num 0 0)) r.part r.num fun r => { r with issuer := none }
  | none => s

/-- The record that tells the issuer of a PDRAIN how it ended (R339). -/
def tellDrain (s : State) (r : Region) (kind : Nat) : State :=
  match r.drainer with
  | some k => modRegion (postFault s k (faultRecord kind k r.num 0 0)) r.part r.num fun r => { r with drainer := none }
  | none => s

/-- A drain has ended on this package, complete or aborted. -/
def drainEnds (s : State) (part num : Nat) (ok : Bool) : State :=
  match findRegion s part num with
  | none => s
  | some r =>
    let s := tellDrain s r (if ok then 0x11 else 0x12)
    if ok then
      let s := (regionCtxs s part num).foldl (fun s e => modCtxAt s e.1 e.2 fun x => { x with status := .drained }) s
      modRegion s part num fun r => { r with phase := .drained }
    else s

/-! ### Marker waves (R403, R408) -/

/-- MARKER_WAVE_START (R403, R479): the home starts wave w + 1. -/
def execMarkerWaveStart (part region : Nat) (s : State) : Out :=
  .next (
    match findRegion s part region with
    | none => s
    | some r =>
      if isHome s r = true ∧ r.phase = .running ∧ r.stopOn = false ∧ r.ready = true ∧ r.waving = false ∧ r.cfg.period ≠ 0 then
        sendAll (modRegion s part region fun r => { r with waving := true, sinkWave := [] }) (.waveStart part region (r.wave + 1))
      else s)

/-- The request for a wave reaches the package: a marker goes into each of its ingress ports, but for those whose replay
area holds the wave's marker and places it again (R408). -/
def waveHere (s : State) (part num wave : Nat) : State :=
  match findRegion s part num with
  | none => s
  | some r =>
    let s := modRegion s part num fun r => { r with asked := wave }
    if wave ≤ r.asked then s
    else r.ingress.foldl (fun s i => match findRegion s part num with
      | some r =>
        if r.replay.any fun e => e.port == i.port && e.tok.isNone && e.wave == wave then s
        else ingressCtl s r ((r.ingress.find? fun j => j.port == i.port).getD i) 2 wave
      | none => s) s

/-- SINK_WAVE_REPORT (R404, R408): with the last sink's report the wave is complete, be it one that only markers of the
replay have carried so far. -/
def execSinkWaveReport (s : State) : Out :=
  .next (onCtl s (fun m => match m with
    | .sinkWave _ _ _ _ => true
    | _ => false) fun s _ m =>
      match m with
      | .sinkWave part num stage wave =>
        let s := modRegion s part num fun r =>
          if wave = r.wave + 1 ∧ r.sinkWave.contains stage = false then { r with sinkWave := r.sinkWave ++ [stage] } else r
        match findRegion s part num with
        | some r =>
          if wave = r.wave + 1 ∧ r.cfg.sinks.all (fun e => r.sinkWave.contains e.2) = true then
            sendAll (modRegion s part num fun r => { r with waving := false, sinkWave := [] }) (.waveDone part num (r.wave + 1))
          else s
        | none => s
      | _ => s)

/-- The replay area without what precedes wave `w`'s marker on each port. -/
def freeReplay (w : Nat) (l : List Replay) : List Replay :=
  let passed : Replay → Bool := fun m => m.tok.isNone && decide (m.wave ≤ w)
  l.zipIdx.filterMap fun e =>
    if passed e.1 || (l.zipIdx.any fun m => decide (e.2 < m.2) && passed m.1 && m.1.port == e.1.port) then none else some e.1

/-- The held tokens that a complete wave releases to the host (R407), each with its port. -/
def releaseEgress (s : State) (r : Region) (w : Nat) : State :=
  let out : EgressTok → Bool := fun t => match t.wave with
    | some v => decide (v ≤ w)
    | none => false
  let s := (r.egress.filter out).foldl (fun s t => replyHost s (partChannel s r.part, 0) (.egress t.port t.tok)) s
  modRegion s r.part r.num fun r => { r with egress := r.egress.filter fun t => !out t }

/-- The snapshot halves of waves before `w` are free: of the region's contexts, resident or saved (R408). -/
def trimSnaps (s : State) (part num w : Nat) : State :=
  let trim : Context → Context := fun x => { x with snaps := x.snaps.filter fun n => decide (w ≤ n.2.wave) }
  let saved : Shadow → Shadow := fun h => if h.part = part ∧ h.saved.region = num then { h with saved := trim h.saved } else h
  let s := (regionCtxs s part num).foldl (fun s e => modCtxAt s e.1 e.2 trim) s
  { s with cores := s.cores.map fun c => { c with shadow0 := c.shadow0.map saved, shadow1 := c.shadow1.map saved } }

/-- WAVE_COMPLETION_BROADCAST (R408): replay entries and snapshot halves are freed, the tree home trims its log, windows
publish, egress ports release. -/
def execWaveCompletionBroadcast (s : State) : Out :=
  .next (onRelay s (fun m => match m with
    | .waveDone _ _ _ => true
    | _ => false) fun s _ m =>
      match m with
      | .waveDone part num w =>
        let s := waveTree s part num w
        match findRegion s part num with
        | none => s
        | some r =>
          let s := trimSnaps (publishWave s part num w) part num w
          releaseEgress (modRegion s part num fun r =>
            { r with wave := w, replay := freeReplay w r.replay, reinject := false }) r w
      | _ => s)

/-! ### Region errors (R400, R401) -/

/-- The kept tokens of an ingress port are lost with a chip: the area lies there, or the port that keeps their list. -/
def holdsReplay (x : Nat) (i : IngressCfg) : Bool := i.port.chip == x || areaChip i == x

/-- The value of a region-error event (R452). -/
def errorValue (r : Region) (e : Nat × Nat × Nat) : Nat :=
  let lostReplay := e.1 == 0x23 && r.cfg.ingress.any (holdsReplay e.2.1)
  e.1 % 256 + e.2.1 % 2 ^ 12 * 2 ^ 8 + e.2.2 % 16 * 2 ^ 20 + b01 lostReplay * 2 ^ 24

def postError (r : Region) (s : State) (e : Nat × Nat × Nat) : State := postEvent s 0x04 e.2.2 r.num (errorValue r e)

/-- The error is of a core or package that is lost and has not been replaced yet (R401). -/
def unplaced (r : Region) (e : Nat × Nat × Nat) : Bool := (e.1 == 0x22 || e.1 == 0x23) && !r.replaced.contains e.2.1

/-- Re-placement by the host is needed: of every core and package that is lost (R401). -/
def needsHost (r : Region) : Bool := r.errors.any (unplaced r)

/-- The host itself asks for the roll-back, or for the segment's abort. -/
def byHost (r : Region) : Bool := r.abort.isSome || r.errors.any fun e => e.1 == 0x24

/-- The home, its region stopped with errors pending, goes on with the recovery as far as it can (R401). -/
def recoverStep (s : State) (part num : Nat) : State :=
  match findRegion s part num with
  | none => s
  | some r =>
    if isHome s r = false ∨ r.phase ≠ .stopped ∨ r.errors = [] ∨ r.rolled then s
    else
      let s := if r.recover then s else r.errors.foldl (postError r) s
      let s := modRegion s part num fun r => { r with recover := true }
      let n := if r.again.1 = r.wave then r.again.2 else 0
      if needsHost r || treeLost s part then s
      else if r.cfg.period = 0 ∨ (2 ≤ n ∧ byHost r = false ∧ r.replaced = []) then s
      else
        sendAll (modRegion s part num fun r => { r with rolled := true, reports := [], again := (r.wave, n + 1) })
          (.rollback part num r.wave)

/-- REGION_ERROR (R400, R401) at the recovery home: the region stops, or the error joins those that await its recovery. -/
def execRegionError (s : State) : Out :=
  .next (onCtl s (fun m => match m with
    | .error _ _ _ _ _ => true
    | _ => false) fun s _ m =>
      match m with
      | .error part num cls chip core =>
        match findRegion s part num with
        | none => s
        | some r =>
          if isHome s r = false then s
          else
            let s := modRegion s part num fun r => { r with errors := r.errors ++ [(cls, chip, core)] }
            if r.phase = .stopped then
              recoverStep (if r.recover then postError r s (cls, chip, core) else s) part num
            else
              startStop s r 2
      | _ => s)

/-! ### Roll-back (R402) -/

/-- The credits of an egress port whose EGRESS frames the host has not all acknowledged. -/
def egressCredits (s : State) (p : PortAddr) : Nat :=
  64 - ((s.channels.map fun c => (c.unacked.filter fun u => u.2 == some p).length
    + (c.queue.filter fun f => f.egress == some p).length).foldl (· + ·) 0
    + (s.hostOut.filter fun o => match o.ans with
      | .egress q _ => q == p
      | _ => false).length)

/-- An input port as a roll-back leaves it: an empty ring with the snapshot's indices and counts. -/
def rolledIn (i : PortIn) : PortIn :=
  { i with toks := [], tail := i.head, popped := 0, ctl := [], highest := [], rate := 0, owed := 0,
           notice := false }

/-- An output port as a roll-back leaves it. -/
def rolledOut (s : State) (p : PortAddr) (c : Option OutCfg) (o : PortOut) : PortOut :=
  { o with credits := (c.map fun c => if c.egress then egressCredits s p else initCredits c).getD 0,
           reserved := 0, granted := [], used := [], replay := [], gotEpoch := [], asks := 0, rate := 0 }

/-- A context as its snapshot of wave `w` restores it (R402, R406): registers and port state; it becomes armed, or stays
staged. Counter 6 counts the roll-back (R156). -/
def rolledCtx (w : Nat) (s : State) (k : Nat) (b : Bool) (x : Context) (n : Snap) : Context :=
  let regs := { restoreRegs n.regs with span := .reset, next := .openFiring, flight := [] }
  { Context.reset with
    status := if x.status = .staged then .staged else .armed,
    stopped := x.stopped, cfg := x.cfg, image := x.image, region := x.region, live := regs, copy := regs,
    kcpc := x.cfg.entry, ctol := n.ctol, cyc := x.cyc, fires := x.fires,
    cnt := x.cnt.setIfInBounds 4 (x.cnt.getD 4 0 + 1),
    ins := n.ins.map rolledIn,
    outs := n.outs.zipIdx.map fun o => rolledOut s (portAt s k b o.2) (outCfg x o.2) o.1,
    evHead := n.evHead, evTail := n.evTail,
    restored := x.restored, marker := w, snaps := x.snaps.filter fun m => decide (m.2.wave ≤ w) }

/-- The windows and the event queue that a snapshot restores. -/
def rolledMem (s : State) (k : Nat) (g : StageCfg) (n : Snap) : State :=
  let s := loadWins k g.stateMap (n.wins.flatMap id) s
  match g.evq with
  | some a => spWrite s k .spad a n.evq
  | none => s

/-- A resident context is restored from its snapshot of wave `w`. -/
def rollCtx (w : Nat) (s : State) (e : Nat × Bool) : State :=
  let k := e.1
  let b := e.2
  let x := ctxAt s k b
  match x.snaps.find? fun n => n.2.wave == w with
  | none => s
  | some (_, n) =>
    let s := modCore s k fun c =>
      { c with running := if c.running = some b ∧ c.curator = false then none else c.running,
               jobs := c.jobs.filter fun j => !ownJob b j }
    let s := rolledMem s k x.cfg n
    let s := modCtxAt s k b fun x => rolledCtx w s k b x n
    if x.cfg.arrayUse = false then s
    else if x.status = .staged then modCore s k fun c => { c with stagedAcc := [] }
    else reloadPlanes (modCore s k fun c => { c with acc := [], mwld := none }) k b

/-- A context of the region in a shadow slot is restored there (R402): its array state, of no use to it, is +0. -/
def rollSaved (w part num : Nat) (s : State) (e : Nat × Nat) : State :=
  match getShadow (getCore s e.1) e.2 with
  | none => s
  | some h =>
    if h.part ≠ part ∨ h.saved.region ≠ num then s
    else match h.saved.snaps.find? fun n => n.2.wave == w with
      | none => s
      | some (_, n) =>
        let s := rolledMem s e.1 h.saved.cfg n
        modCore s e.1 fun c => setShadow c e.2 (some { h with saved := rolledCtx w s e.1 h.ctx h.saved n, acc := [] })

/-- The control message is about the port state of a context of the region here, which a roll-back rebuilds, or about the
wave that it ends (R402). -/
def ofPorts (s : State) (part num : Nat) (m : CtlMsg) : Bool :=
  let mine : PortAddr → Bool := fun p => p.chip == s.chip && inRegionCtx s part num p.core p.ctx
  match m with
  | .ticketAsk p q => mine p || mine q
  | .ticket p _ => mine p
  | .credit p _ => mine p
  | .head p _ => mine p
  | .waveStart q n _ => q == part && n == num
  | .sinkWave q n _ _ => q == part && n == num
  | _ => false

/-- A token flit of a lost package for a port of the region. -/
def fromLostPort (s : State) (r : Region) (chip : Nat) (p : PortAddr) : Bool :=
  r.lost.contains chip && inRegionCtx s r.part r.num p.core p.ctx

/-- Flits of the region to lost chips, and their resends, are discarded wherever they wait; so are flits of its tokens that a
lost chip has sent (R459, R477, R480). -/
def dropFlits (s : State) (r : Region) : State :=
  let mine : OpenFlit → Bool := fun o => o.part == r.part && o.region == r.num && r.lost.contains o.flit.dchip
  let out := s.router.waiting.filter fun w => w.flit.partition == r.part && r.lost.contains w.flit.dchip
  let dead := s.router.arrived.filter fun w => (w.flit.type == 1 || w.flit.type == 2) && w.flit.partition == r.part
    && fromLostPort s r w.flit.schip (tokenPort w.flit)
  let s := (out ++ dead).foldl freeEntry s
  { s with router := { s.router with
      tx := s.router.tx.map fun t => { t with opens := t.opens.filter fun o => !mine o, queue := t.queue.filter fun o => !mine o },
      waiting := s.router.waiting.filter fun w => !out.contains w,
      arrived := s.router.arrived.filter fun w => !dead.contains w,
      frags := s.router.frags.filter fun g => !fromLostPort s r g.schip g.port } }

/-- Jobs of the region on this package end without a trace (R402). -/
def dropJobs (s : State) (part num : Nat) : State :=
  { s with cores := s.cores.map fun c => { c with jobs := c.jobs.filter fun j => !(j.part == part && j.region == num) } }

/-- Ingress after a roll-back: full credits, and every kept token and marker after wave `w` to be placed again. -/
def rolledIngress (s : State) (r : Region) (w : Nat) (i : Ingress) : Ingress :=
  let n := ((ringCfg (ctxAt s i.port.core i.port.ctx) i.port.port).map fun c => 2 ^ c.n).getD 0
  let kept := r.replay.filter fun e => e.port == i.port && (e.tok.isSome || decide (w < e.wave))
  { i with credits := n, owed := [], count := match kept with
      | e :: _ => e.seq
      | [] => i.count }

/-- The package rolls a region back to wave `w`. -/
def rollHere (s : State) (part num w : Nat) : State :=
  match findRegion s part num with
  | none => s
  | some r =>
    let s := dropFlits (dropJobs s part num) r
    let s := { s with ctlIn := s.ctlIn.filter fun e => !ofPorts s part num e.2,
                      ctlOut := s.ctlOut.filter fun e => !ofPorts s part num e.2 }
    let s := (regionCtxs s part num).foldl (rollCtx w) s
    let s := ((List.range 16).flatMap fun k => [(k, 0), (k, 1)]).foldl (rollSaved w part num) s
    let s := { s with cells := s.cells.map fun c =>
                 if c.part = part ∧ c.region = num then { c with taken := false, held := [] } else c }
    let ing := r.ingress.map (rolledIngress s r w)
    modRegion s part num fun r =>
      { r with ingress := ing, replay := r.replay.map fun e => { e with due := true }, egress := [], sent := 0, recv := 0,
               asked := w, waving := false, sinkWave := [] }

/-- REGION_ROLLBACK (R402): on every package of the region, and at the tree home of its partition (R309). -/
def execRegionRollback (s : State) : Out :=
  .next (onRelay s (fun m => match m with
    | .rollback _ _ _ => true
    | _ => false) fun s _ m =>
      match m with
      | .rollback part num w =>
        let s := rollHere s part num w
        let s := rollTree s part num w
        match findRegion s part num with
        | some r => sendCtl s r.cfg.homeChip (.rolledBack part num s.chip)
        | none => s
      | _ => s)

/-- The error token that stands for a kept token of an aborted segment (R409). -/
def errorToken (r : Region) (cls chip : Nat) (t : Token) : Token :=
  let h := leNat (headerBytes t)
  { t with type := 6, payload := natLe 64 (cls % 2 ^ 8 + r.num % 2 ^ 16 * 2 ^ 16 + r.wave % 2 ^ 32 * 2 ^ 32
      + chip % 2 ^ 12 * 2 ^ 64 + h * 2 ^ 128) }

/-- The next entry of a port's replay area enters its ring, as far as there is a credit. -/
def pumpReplay (s : State) (part num : Nat) (i : Ingress) : State :=
  match findRegion s part num with
  | none => s
  | some r =>
    match r.replay.find? fun e => e.port == i.port && e.due, r.ingress.find? fun j => j.port == i.port with
    | some e, some j =>
      if j.credits = 0 then s
      else
        let s := modRegion s part num fun r =>
          { r with replay := r.replay.map fun f => if f = e then { f with due := false } else f,
                   ingress := r.ingress.map fun j => if j.port = i.port then
                     { j with credits := j.credits - 1, count := if e.tok.isSome then (e.seq + 1) % 2 ^ 32 else j.count } else j }
        let t := e.tok.getD (bareToken e.seq 2 0 (BitVec.ofNat 64 e.wave))
        arriveToken s i.port.core i.port.ctx i.port.port hostChip none t
    | none, some j =>
      match j.owed with
      | (ty, tag) :: rest =>
        if j.credits = 0 then s
        else
          let s := modRegion s part num fun r =>
            { r with ingress := r.ingress.map fun j => if j.port = i.port then { j with owed := rest } else j }
          match findRegion s part num with
          | some r => ingressCtl s r { j with owed := [] } ty tag
          | none => s
      | [] => s
    | _, none => s

/-- Replay and thaw on this package (R401, R408, R409). -/
def resumeHere (s : State) (part num : Nat) (abort : Option (Nat × Nat)) (reinject : Bool) : State :=
  let s := modRegion s part num fun r =>
    { r with replay := match abort with
        | some (cls, chip) => r.replay.map fun e => { e with tok := e.tok.map (errorToken r cls chip) }
        | none => r.replay,
             reinject := reinject }
  releaseCows (thawHere s part num) part num

/-! ### The loss of a package (R459) -/

/-- Every link of a chip that was up at the last build has been reported down. -/
def chipGone (t : Tree) (x : Nat) : Bool :=
  let ls := t.built.filter fun b => b.far == x
  !ls.isEmpty && ls.all fun b => t.downs.contains (b.chip, b.link)

/-- The links that are up once chip `x` is lost. -/
def linksLeft (t : Tree) (x : Nat) : List Edge :=
  t.built.filter fun e => e.chip != x && e.far != x && !t.downs.contains (e.chip, e.link) && !t.downs.contains (e.far, e.farLink)

/-- LINK_DOWN_REPORT (R459) at the root: a chip all of whose links are down is declared lost. The tree is rebuilt, the event
posted, and every package hears of it. -/
def execLinkDownReport (s : State) : Out :=
  .next (onCtl s (fun m => match m with
    | .linkDown _ _ => true
    | _ => false) fun s _ m =>
      match m with
      | .linkDown chip l =>
        let s := { s with tree := { s.tree with downs := s.tree.downs ++ [(chip, l)] } }
        let xs := distinct ((s.tree.built.map (·.far)).filter fun x =>
          x != s.chip && chipGone s.tree x && !s.tree.lost.contains x)
        xs.foldl (fun s x =>
          let ls := linksLeft s.tree x
          sendAll (postEvent (rebuildTree s x ls) 0x07 0 0 x) (.chipLost x ls)) s
      | _ => s)

/-- The home has every answer to a roll-back: the region is to go on. Errors of cores and packages that are still to be
replaced stay (R401). -/
def rollAnswered (s : State) (r : Region) : State :=
  if r.rolled ∧ allAnswered r = true then
    let s := sendAll s (.resume r.part r.num r.wave r.abort (!r.replaced.isEmpty))
    modRegion s r.part r.num fun r =>
      { r with recover := false, rolled := false, replaced := [], abort := none, errors := r.errors.filter (unplaced r) }
  else s

/-- The region has a stage or a replay area on chip `x`. -/
def liesOn (x : Nat) (r : Region) : Bool := r.cfg.chips.contains x || r.cfg.ingress.any (holdsReplay x)

/-- The region has something on chip `x`: beside these, the fallback of one of its packages. -/
def reaches (x : Nat) (r : Region) : Bool := liesOn x r || r.cfg.fallbacks.any fun e => e.2 == x

/-- News of a lost chip: the homes of its regions raise CHIPLOSS, and the waves and roll-backs that waited for it alone are
answered (R459). -/
def loseChip (s : State) (x : Nat) : State :=
  let s := { s with regions := s.regions.map fun r => if reaches x r ∧ r.lost.contains x = false then { r with lost := r.lost ++ [x] } else r }
  let homes := s.regions.filter fun r => liesOn x r && isHome s r
  let s := homes.foldl (fun s r => sendCtl s s.chip (.error r.part r.num 0x23 x 0)) s
  homes.foldl (fun s r => rollAnswered (stopAnswered s r) r) s

/-! ### Replacement (R460, R461, R477) -/

/-- Why the home refuses a replacement: a check of R460 or R461, or a region without waves, which no replacement thaws (R403,
log entry 151). -/
def replaceBad (s : State) (r : Region) (lost new : Nat) : Bool :=
  !isHome s r || r.phase != .stopped || !r.recover || r.rolled || !r.cfg.fallbacks.contains (lost, new)
    || (getPart s r.part).params.tree.map (·.1) == some lost || r.cfg.period == 0 || r.replacing.any fun e => e.1 == new

/-- The ends of a context's ports on the lost chip are on its replacement. -/
def moveCfg (x y : Nat) (g : StageCfg) : StageCfg :=
  { g with ins := g.ins.map fun e => (e.1, { e.2 with producers := e.2.producers.map (moveAddr x y) }),
           outs := g.outs.map fun e => (e.1, { e.2 with peer := moveAddr x y e.2.peer }) }

/-- Every package of the region commits its replacement entries and rewrites the lost chip at the source; the tree home's cow
ports go with it. -/
def rewire (s : State) (part num x y : Nat) : State :=
  match findRegion s part num with
  | none => s
  | some r =>
    let s := writeSlots s part (r.cfg.slots.filter fun e => e.keyed == some x)
    let s := (regionCtxs s part num).foldl (fun s e => modCtxAt s e.1 e.2 fun c => { c with cfg := moveCfg x y c.cfg }) s
    let s := modRegion s part num fun r =>
      { r with cfg := { r.cfg with chips := r.cfg.chips.map fun c => if c = x then y else c,
                                   sinks := r.cfg.sinks.map fun e => if e.1 = x then (y, e.2) else e } }
    moveCows { s with router := { s.router with rewrites := s.router.rewrites ++ [(part, x, y)] } } part num x y

/-- The new package may take the region's fallback part (R460, steps 1 and 2). -/
def mayReplace (s : State) : Bool :=
  (allCtx.all fun e =>
    let x := ctxAt s e.1 e.2
    x.status == .empty || x.status == .drained) && s.boot.lastOk && !s.boot.opened

/-- A fallback context's snapshot half of wave `w` as the mirror area holds it; the configured state for wave 0. -/
def mirrorSnapOf (s : State) (g : StageCfg) (w : Nat) : Option Snap :=
  match g.fallback with
  | none => none
  | some (_, m) =>
    let z := snapSize g
    let base := m.base + w % 2 * z
    let h := leNat (spRead s g.core m.space base 64)
    if bitOf h 48 = true ∧ bitsOf h 0 32 = w ∧ bitsOf h 32 16 = g.stage then Config.snapRead (spRead s g.core m.space (base + 64) (z - 64))
    else none

/-- The fallback part, whose cow ports the tree home knows as those of the lost package, is applied in the stopped region, its contexts' snapshots of wave `w` in place (R460, step 3). The
Bool says that every one was there. -/
def applyFallback (s : State) (p : ImagePart) (w : Nat) : Bool × State :=
  let s := (targets p).foldl (fun s e => retireCtx s e.1 e.2) s
  let s := installPart s { p with slots := p.slots.map fun e => { e with keyed := none } } none []
  let s := modRegion s p.partition p.region fun r =>
    { r with phase := .stopped, closed := true, ready := true, wave := w, asked := w, source := 2 }
  p.contexts.foldl (fun a g =>
    let s := modCtxAt a.2 g.core g.ctx fun x => { x with stopped := some 2, status := if g.staged then .staged else .armed }
    if w = 0 then (a.1, writeSnap s g.core g.ctx 0)
    else match mirrorSnapOf s g w with
      | some n => (a.1, modCtxAt s g.core g.ctx fun x => { x with snaps := [(w % 2 == 1, { n with wave := w })] })
      | none => (false, s)) (true, s)

/-- The fallback part of a region in the image store. -/
def findFallback (s : State) (part num lost : Nat) : Option ImagePart :=
  s.bases.findSome? fun a => match partAt s a with
    | some p => if p.fallback ∧ p.partition = part ∧ p.region = num ∧ partChip s a = s.chip
        ∧ (p.lostOf = none ∨ p.lostOf = some lost) then some p else none
    | none => none

/-- The order to replace a chip reaches its fallback package, which checks the part as a prepare does (R10, R460). -/
def replaceHere (s : State) (from_ part num lost w : Nat) : State :=
  match findFallback s part num lost with
  | some p =>
    if mayReplace s && mayApply s p && !invalidPart s 0 p then
      let (ok, s) := applyFallback s p w
      sendCtl s from_ (.replaced part num lost s.chip ok)
    else sendCtl s from_ (.replaced part num lost s.chip false)
  | none => sendCtl s from_ (.replaced part num lost s.chip false)

/-- The fallback package has answered the home: with success its entries commit and the recovery goes on, else the host's
request fails (R460). -/
def replacedBy (s : State) (r : Region) (x y : Nat) (ok : Bool) : State :=
  if ok then
    let s := sendAll s (.rewire r.part r.num x y)
    recoverStep (modRegion s r.part r.num fun r => { r with replaced := r.replaced ++ [x] }) r.part r.num
  else
    let s := (r.replacing.filter fun e => e.1 == y).foldl (fun s e => resultHost s e.2 0x07) s
    modRegion s r.part r.num fun r => { r with replacing := r.replacing.filter fun e => e.1 != y }

/-- The home has thawed the region: replacements are answered (R478), and with errors left the region stops again (R401). -/
def resumed (s : State) (part num : Nat) : State :=
  match findRegion s part num with
  | none => s
  | some r =>
    if isHome s r = false then s
    else
      let s := r.replacing.foldl (fun s e => resultHost s e.2 0) s
      let s := modRegion s part num fun r => { r with replacing := [] }
      if r.errors ≠ [] then startStop s r 2 else s

/-! ### Control messages without an event of their own -/

/-- The stop wave is complete (R410): the package's side of what its source asks. -/
def stopEnds (s : State) (part num : Nat) : State :=
  match findRegion s part num with
  | none => s
  | some r =>
    let s := modRegion s part num fun r => { r with phase := .stopped, closed := true }
    let s := if r.source = 1 then dumpMap s r else s
    let s := tellStop s r
    let s := if r.source = 1 ∧ isHome s r = true then postEventIds s 0x03 r.cfg.homeCore num r.least part r.image else s
    recoverStep s part num

/-- Retire every context of an abandoned region once that can be done, and forget the region (R451). -/
def abandonEnds (s : State) (r : Region) : State :=
  let cs := regionCtxs s r.part r.num
  if cs.all fun e => retireReady s e.1 e.2 then
    let s := { s with regions := s.regions.filter fun q => !(q.part == r.part && q.num == r.num),
                      cells := s.cells.filter fun c => !(c.part == r.part && c.region == r.num),
                      engines := s.engines.map fun g => if g.part = r.part then
                        { g with ports := g.ports.filter fun c => c.region != r.num } else g }
    let s := cs.foldl (fun s e => retireCtx s e.1 e.2) s
    match r.answer with
    | some asker => resultHost s asker 0
    | none => s
  else s

/-- An abandoned region: its suspended jobs are killed, and the contexts go when they can. -/
def abandonHere (s : State) (part num : Nat) : State :=
  let s := (regionCtxs s part num).foldl (fun s e => modCore s e.1 fun c => killSuspended c e.2) s
  modRegion s part num fun r => { r with gone := true, closed := true }

/-- Take one control message (R357, R408, R410, R457, R459); those that an event of the table takes are left to it. -/
def takeControl (s : State) (from_ : Nat) (m : CtlMsg) : State :=
  match m with
  | .stopAsk part num source =>
    match findRegion s part num with
    | some r => startStop s r source
    | none => s
  | .stopDone part num => stopEnds (relayCtl s from_ m) part num
  | .thawAsk part num =>
    match findRegion s part num with
    | some r => if isHome s r && mayThaw s r then sendAll s (.thaw part num) else s
    | none => s
  | .thaw part num => thawHere (relayCtl s from_ m) part num
  | .drain part num =>
    match findRegion s part num with
    | some r => if r.phase = .stopped ∨ r.stopOn then sendAll s (.drainEnd part num false) else sendAll s (.drainStart part num)
    | none => s
  | .drainStart part num => modRegion (relayCtl s from_ m) part num fun r => { r with phase := .draining, closed := true, said := true, totals := none }
  | .drainWrite part num offs => drainWriteHere (relayCtl s from_ m) part num offs
  | .drained part num chip =>
    let s := modRegion s part num fun r => { r with reports := r.reports ++ [chip] }
    match findRegion s part num with
    | some r => if allAnswered r ∧ r.phase = .draining then drainHeader s r else s
    | none => s
  | .drainEnd part num ok => drainEnds (relayCtl s from_ m) part num ok
  | .waveStart part num w => waveHere (relayCtl s from_ m) part num w
  | .rolledBack part num chip =>
    let s := modRegion s part num fun r => { r with reports := r.reports ++ [chip] }
    match findRegion s part num with
    | some r => rollAnswered s r
    | none => s
  | .resume part num _ abort re => resumed (resumeHere (relayCtl s from_ m) part num abort re) part num
  | .replace part num lost _ w => replaceHere s from_ part num lost w
  | .replaced part num x y ok =>
    match findRegion s part num with
    | some r => replacedBy s r x y ok
    | none => s
  | .rewire part num x y => rewire (relayCtl s from_ m) part num x y
  | .abandon part num => abandonHere (relayCtl s from_ m) part num
  | .linkUp e =>
    let b := s.tree.built.filter fun d => !(d.chip == e.chip && d.link == e.link)
    { s with tree := { s.tree with built := b ++ [e], downs := s.tree.downs.filter fun d => d != (e.chip, e.link) } }
  | .chipLost x ls => loseChip (relayCtl (rebuildTree s x ls) from_ m) x
  | .holds part chip => gainHolder s from_ part chip
  | .left part chip => loseHolder s from_ part chip
  | .credit p n => creditFrom s p n
  | .head p h => modCtxAt s p.core p.ctx fun x => modOut x p.port fun o => { o with head := h % 65536 }
  | .ticketAsk ring q => grantAsk s ring q
  | .ticket p t => deliverTicket s p t
  | .cowBind part num port n c => sendCtl (bindCow s part num port n c) port.chip (.cowBound port)
  | .cowBound p => armIfPortless (cowKnown s p) p.core p.ctx
  | .cowPops port w n => takePops s port w n
  | .host m => { s with hostIn := s.hostIn ++ [{ m with channel := m.channel + 4096 * (from_ + 1) }] }
  | .answer o => { s with hostOut := s.hostOut ++ [o], fwd := s.fwd.filter fun e => e != (o.channel, o.tag) }
  | _ => s

/-- The messages that an event of the table takes. -/
def hasEvent : CtlMsg → Bool
  | .prepare _ _ => true
  | .report _ _ _ => true
  | .apply _ => true
  | .abort _ => true
  | .sinkReady _ _ _ => true
  | .stop _ _ _ => true
  | .stopped _ _ _ => true
  | .sinkWave _ _ _ _ => true
  | .waveDone _ _ _ => true
  | .error _ _ _ _ _ => true
  | .rollback _ _ _ => true
  | .linkDown _ _ => true
  | .bootStatus _ _ => true
  | _ => false

/-- A drain's package reports that its records have been written (R414). -/
def reportDrained (s : State) (r : Region) : State :=
  if r.phase = .draining ∧ r.said = false ∧ regionFlits s r = false then
    sendCtl (modRegion s r.part r.num fun r => { r with said := true }) r.cfg.homeChip (.drained r.part r.num s.chip)
  else s

end Sys2Proof.Machine
end

