-- ==== Sys2Proof/Machine/Plinth.lean ====
section
/-!
DEFINITION. The host port (20 R443 to R448): Plinth frames, channels with their go-back-N, and the bodies of messages.
-/
namespace Sys2Proof.Config

/-- The request that a body of a kind holds, for the kinds whose layout R447 does not give to the byte (log entry 23). -/
opaque readBody : Nat → List Sys2Proof.Byte → Option Sys2Proof.HostReq

/-- The body of a message to the host, for the kinds whose layout R447 does not give to the byte (log entry 23). -/
opaque writeBody : Sys2Proof.Machine.HostAns → List Sys2Proof.Byte

/-- The key of a channel from a session's encryption keys of either direction, by the channel's number: R444 gives a channel
one key for both directions, DSP0277 a session two (log entry 24). -/
opaque channelKey : List Sys2Proof.Byte → List Sys2Proof.Byte → Nat → BitVec 256

end Sys2Proof.Config

namespace Sys2Proof.Machine

/-! ### Headers (R444) -/

/-- A frame header. -/
def plinthHeader (kind ch : Nat) (ackonly last clear : Bool) (seq ack length chip part tag : Nat) : BitVec 256 :=
  BitVec.ofNat 256 (1 + kind % 2 ^ 8 * 2 ^ 8 + ch % 2 ^ 12 * 2 ^ 16 + b01 ackonly * 2 ^ 28 + b01 last * 2 ^ 29 + b01 clear * 2 ^ 30
    + seq % 2 ^ 32 * 2 ^ 32 + ack % 2 ^ 32 * 2 ^ 64 + length % 2 ^ 16 * 2 ^ 96 + chip % 2 ^ 12 * 2 ^ 112
    + part % 2 ^ 8 * 2 ^ 128 + tag % 2 ^ 32 * 2 ^ 160)

def pKind (f : PlinthFrame) : Nat := bitsOf f.header.toNat 8 8
def pChannel (f : PlinthFrame) : Nat := bitsOf f.header.toNat 16 12
def pAckonly (f : PlinthFrame) : Bool := bitOf f.header.toNat 28
def pLast (f : PlinthFrame) : Bool := bitOf f.header.toNat 29
def pClear (f : PlinthFrame) : Bool := bitOf f.header.toNat 30
def pSeq (f : PlinthFrame) : Nat := bitsOf f.header.toNat 32 32
def pAck (f : PlinthFrame) : Nat := bitsOf f.header.toNat 64 32
def pLength (f : PlinthFrame) : Nat := bitsOf f.header.toNat 96 16
def pChip (f : PlinthFrame) : Nat := bitsOf f.header.toNat 112 12
def pPart (f : PlinthFrame) : Nat := bitsOf f.header.toNat 128 8
def pTag (f : PlinthFrame) : Nat := bitsOf f.header.toNat 160 32

/-- The UDP port of Plinth (R443). -/
def plinthPort : BitVec 16 := 47110

/-- The frame came to Plinth's port, the version is 1, the reserved bits are zero and the length is that of the body. -/
def plinthForm (f : PlinthFrame) : Bool :=
  let h := f.header.toNat
  f.udp == plinthPort && bitsOf h 0 8 == 1 && !bitOf h 31 && bitsOf h 124 4 == 0 && bitsOf h 136 24 == 0 && bitsOf h 192 64 == 0
    && pLength f == f.body.length && decide (f.body.length ≤ 9120)

/-- The initialisation vector of a frame. -/
def plinthIv (ch : Nat) (fromHere : Bool) (seq : Nat) : List Nat := natBe 4 (ch % 2 ^ 12 + b01 fromHere * 2 ^ 31) ++ natBe 8 seq

/-! ### Channels (R445, R446) -/

def findChannel (s : State) (ch : Nat) : Option Channel := s.channels.find? fun c => c.num == ch

def modChannel (s : State) (ch : Nat) (f : Channel → Channel) : State :=
  { s with channels := s.channels.map fun c => if c.num = ch then f c else c }

/-- The key that a channel takes from the open session (R449). -/
def sessionKey (p : Spdm) (ch : Nat) : BitVec 256 := Config.channelKey (dataKey p.req) (dataKey p.rsp) ch

/-- A frame of the channel as it goes out; in the clear on channel 0 before a session. -/
def sealPlinth (s : State) (c : Channel) (o : OutFrame) (ackonly : Bool) : PlinthFrame :=
  let h := plinthHeader o.kind c.num ackonly o.last (!c.keyed) c.txNext c.rxNext o.body.length s.chip c.part o.tag
  if c.keyed then
    let (ct, tag) := gcmSeal c.key (plinthIv c.num true c.txNext) (natLe 32 h.toNat) o.body
    ⟨h, ct, tag, plinthPort⟩
  else ⟨h, o.body, 0, plinthPort⟩

/-- What an unkeyed channel may send: SPDM messages and errors on channel 0. -/
def maySend (c : Channel) (o : OutFrame) : Bool := c.keyed || (c.num == 0 && (o.kind == 0x10 || o.kind == 0x11))

/-- The entry package of a launch has lost its channel: it sends abort, and tells the host by another (R357, R447). -/
def abortLaunch (s : State) (l : Launch) : State :=
  replyHost (sendAll s (.abort l.handle)) (partChannel s (handlePart l.handle), (l.entry.map (·.2)).getD 0)
    (.launch (handleImage l.handle) (handleRegion l.handle) 2 [] s.chip 0)

/-- Requests of a closed channel fail: those not yet acted on go, host-tier requests are refused as unreachable, memory
accesses end, and a launch whose entry it was and that is not yet decided is aborted (R445, R357); another channel of its
partition hears of that (R447, log entry 149). -/
def closeChannel (s : State) (ch : Nat) : State :=
  let s := { s with channels := s.channels.filter fun c => c.num != ch,
                    accs := s.accs.filter fun a => a.reply.1 != ch,
                    hostIn := s.hostIn.filter fun m => m.channel != ch,
                    fwd := s.fwd.filter fun e => e.1 != ch,
                    hostOut := s.hostOut.filter fun o => o.channel != ch || ch == 0 }
  let dead := s.pages.filter fun p => (getPart s p.flit.partition).params.channel == ch
  let s := dead.foldl (fun s p => answerFlit (dropPage s p) p.flit 9 0x09 []) s
  let mine := s.launches.filter fun l => (l.entry.map (·.1)) == some ch && !(l.verdict.isSome && l.kids.isEmpty)
  let s := mine.foldl abortLaunch s
  if ch = 0 then { s with channels := newChannel 0 0 false 0 :: s.channels, spdm := ⟨0, [], [], [], []⟩ } else s

/-- Send the next queued frame of a channel, when it may go and fewer than 128 are unacknowledged. -/
def sendPlinth (s : State) (ch : Nat) : State :=
  match findChannel s ch with
  | none => s
  | some c =>
    if 128 ≤ c.unacked.length then s
    else match c.queue.find? (maySend c) with
      | none => s
      | some o =>
        if 2 ^ 32 ≤ c.txNext + 1 ∧ c.renewed = false then closeChannel s ch
        else
          let f := sealPlinth s c o false
          let s := modChannel s ch fun c =>
            { c with queue := c.queue.erase o, unacked := c.unacked ++ [(f, o.egress)], owed := false,
                     txNext := (c.txNext + 1) % 2 ^ 32, renewed := c.renewed && decide (c.txNext + 1 < 2 ^ 32) }
          { s with wire := s.wire ++ [f] }

/-- PLINTH_RETRANSMIT_TIMEOUT (R445): every unacknowledged frame again, unchanged; the 64th in a row closes the
channel. -/
def execPlinthRetransmitTimeout (ch : Nat) (s : State) : Out :=
  .next (
    match findChannel s ch with
    | none => s
    | some c =>
      if c.unacked = [] then s
      else if 63 ≤ c.tmo then closeChannel s ch
      else { (modChannel s ch fun c => { c with tmo := c.tmo + 1 }) with wire := s.wire ++ c.unacked.map (·.1) })

/-- PLINTH_ACK_TIMER (R445): an ackonly frame, when nothing has carried the acknowledgement. -/
def execPlinthAckTimer (ch : Nat) (s : State) : Out :=
  .next (
    match findChannel s ch with
    | none => s
    | some c =>
      if c.owed then
        let f := sealPlinth s c ⟨0, false, 0, [], none⟩ true
        { (modChannel s ch fun c => { c with owed := false }) with wire := s.wire ++ [f] }
      else s)

/-! ### Messages out (R447) -/

def ansKind : HostAns → Nat
  | .event _ _ _ _ _ _ => 0x09
  | .launch _ _ _ _ _ _ => 0x03
  | .vdata _ => 0x05
  | .egress _ _ => 0x08
  | .pagerd _ _ => 0x0A
  | .pagewr _ _ => 0x0C
  | .telem _ => 0x0F
  | .spdm _ => 0x10
  | .error _ _ => 0x11
  | .result _ _ _ => 0x12

/-- The body: bytes where the message is bytes; else as the firmware lays it out (log entry 23). -/
def ansBody (a : HostAns) : List Byte :=
  match a with
  | .vdata bs => bs
  | .telem bs => bs
  | .spdm bs => bs
  | a => Config.writeBody a

/-- A message split into frames of at most 9120 body bytes, the last one marked. -/
def splitBody (kind tag : Nat) (port : Option PortAddr) : Nat → List Byte → List OutFrame
  | 0, bs => [⟨kind, true, tag, bs, port⟩]
  | n + 1, bs =>
    if bs.length ≤ 9120 then [⟨kind, true, tag, bs, port⟩]
    else ⟨kind, false, tag, bs.take 9120, none⟩ :: splitBody kind tag port n (bs.drop 9120)

def egressOf : HostAns → Option PortAddr
  | .egress p _ => some p
  | _ => none

/-- A message for the host enters its channel's queue; one of another package's channel goes there. A message for
channel 0 waits for it; one for a channel that is not open is dropped. -/
def queueOut (s : State) (o : HostOut) : State :=
  if 4096 ≤ o.channel then sendCtl s (o.channel / 4096 - 1) (.answer { o with channel := o.channel % 4096 })
  else match findChannel s o.channel with
    | some _ =>
      let bs := ansBody o.ans
      modChannel s o.channel fun c =>
        { c with queue := c.queue ++ splitBody (ansKind o.ans) o.tag (egressOf o.ans) (bs.length / 9120) bs }
    | none => if o.channel = 0 then { s with hostOut := s.hostOut ++ [o] } else s

/-! ### Messages in -/

/-- A MGMT body (R451, R478). -/
def readMgmt (bs : List Byte) : Option HostReq :=
  let f := fun lo n => leNat ((bs.drop lo).take n)
  if f 0 1 = 0x0A then
    if bs.length = 8 ∧ f 1 1 ≠ 0 ∧ f 4 2 < 4096 ∧ f 6 2 < 4096 then some (.mgmt (.replacePackage (f 1 1) (f 2 2) (f 4 2) (f 6 2)))
    else none
  else match Config.readBody 0x0E bs with
    | some (.mgmt m) => some (.mgmt m)
    | _ => none

/-- The request that a message of a kind holds: none when its body is malformed. -/
def readReq (kind : Nat) (bs : List Byte) : Option HostReq :=
  let f := fun lo n => leNat ((bs.drop lo).take n)
  match kind with
  | 0x01 => if bs.length < 10 then none else some (.config (f 0 4) (f 4 2) (f 6 4) (bs.drop 10))
  | 0x02 =>
    if f 16 4 = 0 ∧ bs.length = 20 then some (.handle (BitVec.ofNat 128 (f 0 16)) none)
    else if f 16 4 = 1 ∧ bs.length = 36 then some (.handle (BitVec.ofNat 128 (f 0 16)) (some (BitVec.ofNat 56 (f 20 8), f 28 8)))
    else none
  | 0x06 => if bs.length < 10 then none else some (.vwrite (BitVec.ofNat 80 (f 0 10)) (bs.drop 10))
  | 0x0B => some (.pagedata bs)
  | 0x0D =>
    if bs.length < 64 ∨ f 15 2 ≠ bs.length - 64 then none else some (.boot ⟨BitVec.ofNat 512 (f 0 64), bs.drop 64⟩)
  | 0x0E => readMgmt bs
  | 0x04 => match Config.readBody 0x04 bs with
    | some (.vread va n) => some (.vread va n)
    | _ => none
  | 0x07 => match Config.readBody 0x07 bs with
    | some (.inject a r n h p) => some (.inject a r n h p)
    | _ => none
  | 0x10 => match Config.readBody 0x10 bs with
    | some (.spdm m) => some (.spdm m)
    | _ => none
  | 0x12 => match Config.readBody 0x12 bs with
    | some (.result st) => some (.result st)
    | _ => none
  | _ => none

/-- The kinds that the host may send. -/
def fromHost (kind : Nat) : Bool := [0x01, 0x02, 0x04, 0x06, 0x07, 0x0B, 0x0D, 0x0E, 0x10, 0x12].contains kind

/-- A whole message on a channel (R447, R448, R451); a package whose firmware was refused answers only SPDM (R462). -/
def hostMessage (s : State) (c : Channel) (kind chip tag : Nat) (bs : List Byte) : State :=
  let asker := (c.num, tag)
  if s.power.failed ∧ kind ≠ 0x10 then s
  else if fromHost kind = false then errorHost s asker 0x09 0
  else if c.keyed = false ∧ kind ≠ 0x10 then errorHost s asker 0x08 0
  else if (kind = 0x0D ∨ kind = 0x10) ∧ c.num ≠ 0 then errorHost s asker 0x02 0
  else match readReq kind bs with
    | none => errorHost s asker 0x01 0
    | some q => { s with hostIn := s.hostIn ++ [⟨c.num, c.part, chip, tag, q⟩] }

/-- The frame's body, when the frame is authentic. -/
def openPlinth (c : Channel) (f : PlinthFrame) : Option (List Byte) :=
  if pClear f then (if c.num = 0 ∧ c.keyed = false ∧ f.tag = 0 then some f.body else none)
  else if c.keyed then gcmOpen c.key (plinthIv c.num false (pSeq f)) (natLe 32 f.header.toNat) f.body f.tag
  else none

/-- The acknowledged frames leave; a credit returns for each EGRESS frame among them (R476). -/
def applyAck (s : State) (ch ack : Nat) : State :=
  match findChannel s ch with
  | none => s
  | some c =>
    match c.unacked with
    | [] => s
    | u :: _ =>
      let n := (ack + 2 ^ 32 - pSeq u.1) % 2 ^ 32
      if n = 0 ∨ c.unacked.length < n then s
      else
        let s := modChannel s ch fun c => { c with unacked := c.unacked.drop n, tmo := 0 }
        ((c.unacked.take n).filterMap (·.2)).foldl (fun s p =>
          modCtxAt s p.core p.ctx fun x => modOut x p.port fun o => { o with credits := o.credits + 1 }) s

/-- PLINTH_FRAME_RECEIVE (R444 to R446): a frame whose tag fails, or whose partition is not its channel's, is discarded;
of the others the one in sequence is accepted, and every one acknowledged. A channel whose sequence would wrap before its
key was renewed is closed. -/
def execPlinthFrameReceive (f : PlinthFrame) (s : State) : Out :=
  .next (
    match findChannel s (pChannel f) with
    | none => s
    | some c =>
      if plinthForm f = false then s
      else if pPart f ≠ c.part then { s with strays := s.strays + 1 }
      else match openPlinth c f with
        | none => s
        | some bs =>
          let s := applyAck s c.num (pAck f)
          if pAckonly f then s
          else if pSeq f ≠ c.rxNext then modChannel s c.num fun c => { c with owed := true }
          else if 2 ^ 32 ≤ c.rxNext + 1 ∧ c.renewedIn = false then closeChannel s c.num
          else
            let whole := c.asm ++ bs
            let s := modChannel s c.num fun c =>
              { c with rxNext := (c.rxNext + 1) % 2 ^ 32, owed := true, asm := if pLast f then [] else whole,
                       renewedIn := c.renewedIn && decide (c.rxNext + 1 < 2 ^ 32) }
            if pLast f then hostMessage s c (pKind f) (pChip f) (pTag f) whole else s)

/-! ### CONFIG (R447, R484) -/

/-- The base of the part that bytes at an offset belong to: a known part that covers it; else one that begins there. -/
def partBase (s : State) (off : Nat) : Nat :=
  (s.bases.find? fun a => a == off || (decide (a < off) && decide (off < a + partLen s a))).getD off

/-- The image store takes bytes at an offset. -/
def storeImage (s : State) (off : Nat) (bs : List Byte) : State :=
  let base := partBase s off
  let s := memWrite s (bootKey off) bs
  if s.bases.contains base then s else { s with bases := s.bases ++ [base] }

/-- CONFIG (R447). -/
def execConfig (s : State) : Out :=
  .next (onMsg s (fun r => match r with
    | .config _ _ _ _ => true
    | _ => false) fun s m => orForward s m fun s =>
      match m.req with
      | .config _ chip off bs =>
        if chip ≠ s.chip ∨ inExtent 5 off bs.length = false then errorHost s (msgFrom m) 0x01 0
        else storeImage s off bs
      | _ => s)

/-! ### Addresses outside Plinth (R443) -/

/-- The port's own link-local address: fe80::1:0:0:c. -/
def linkLocal (s : State) : BitVec 128 := BitVec.ofNat 128 (0xFE80 * 2 ^ 112 + 2 ^ 48 + s.chip)

/-- ARP (R443): answered for an assigned IPv4 address. -/
def execArp (ip : BitVec 32) (s : State) : Out := .next (if s.ips.contains ip then { s with net := s.net ++ [.arp ip] } else s)

/-- NEIGHBOUR_DISCOVERY (R443): answered for the link-local and the assigned IPv6 addresses, from Plinth up. -/
def execNeighbourDiscovery (ip : BitVec 128) (s : State) : Out :=
  .next (if 6 ≤ s.power.step ∧ (ip = linkLocal s ∨ s.ip6s.contains ip = true) then { s with net := s.net ++ [.neighbour ip] } else s)

end Sys2Proof.Machine
end

