-- ==== Sys2Proof/Machine/Boot.lean ====
section
/-!
DEFINITION. Broadcast boot (20 R454 to R457): packets along the boot spanning tree, a package's share and its digest, and
the statuses of the packages.
-/
namespace Sys2Proof.Machine

/-! ### Packets (R454) -/

def bKind (p : BootPacket) : Nat := bitsOf p.header.toNat 0 8
def bAddressing (p : BootPacket) : Nat := bitsOf p.header.toNat 8 8
def bLo (p : BootPacket) : Nat := bitsOf p.header.toNat 16 12
def bHi (p : BootPacket) : Nat := bitsOf p.header.toNat 28 12
def bRegion (p : BootPacket) : Nat := bitsOf p.header.toNat 40 4
def bSession (p : BootPacket) : Nat := bitsOf p.header.toNat 48 32
def bOffset (p : BootPacket) : Nat := bitsOf p.header.toNat 80 40
def bLength (p : BootPacket) : Nat := bitsOf p.header.toNat 120 16

/-- The payload after the mask that addressing 2 puts before it. -/
def bData (p : BootPacket) : List Byte := if bAddressing p = 2 then p.payload.drop 512 else p.payload

/-- Bit `c` of the mask. -/
def maskBit (p : BootPacket) (c : Nat) : Bool := bitOf ((p.payload.getD (c / 8) 0).toNat) (c % 8)

/-- The packet addresses chip `c`. -/
def addresses (p : BootPacket) (c : Nat) : Bool :=
  match bAddressing p with
  | 0 => true
  | 1 => decide (bLo p ≤ c) && decide (c ≤ bHi p)
  | 2 => maskBit p c
  | _ => false

/-- The packet addresses chip `c` alone. -/
def addressesOnly (p : BootPacket) (c : Nat) : Bool :=
  bAddressing p != 0 && (List.range 4096).all fun d => addresses p d == (d == c)

/-- A reserved bit is set, the region is not one for the kind, or the kind has no such addressing. -/
def badFields (p : BootPacket) : Bool :=
  bitsOf p.header.toNat 44 4 != 0 || bitsOf p.header.toNat 136 376 != 0
    || (match bKind p with
      | 2 => !([0, 1, 2, 5].contains (bRegion p))
      | 3 => bRegion p != 5
      | _ => bRegion p != 0 || bAddressing p != 0)

/-- The bytes of a packet on a link. -/
def packetBytes (p : BootPacket) : List Byte := natLe 64 p.header.toNat ++ p.payload

/-- The flits of a packet: type 0x15, partition 0, class 1 (R454). -/
def bootFlits (s : State) (chip : Nat) (p : BootPacket) : List Flit :=
  (pieces 224 ((64 + p.payload.length + 223) / 224) (packetBytes p)).map fun bs =>
    { dchip := chip, schip := s.chip, partition := 0, cls := 1, kslot := 0, type := 0x15, length := bs.length, seq := 0,
      route := 0, payload := bs }

/-- Forward a packet to every tree neighbour but the one it came from. -/
def floodBoot (s : State) (from_ : Nat) (p : BootPacket) : State :=
  ((treeNext s).filter fun c => c != from_).foldl (fun s c =>
    (bootFlits s c p).foldl (fun s f => sendFlit s 0 ⟨0, f, .none, 0, 0, 0, 0⟩) s) s

/-- The packet that comes next: of a neighbour, else of the host, with its sender and, from the host, its request. -/
def nextBoot (s : State) : Option (Nat × Option (Nat × Nat) × BootPacket × State) :=
  match s.bootIn with
  | (n, p) :: rest => some (n, none, p, { s with bootIn := rest })
  | [] =>
    match takeMsg s fun r => match r with
      | .boot _ => true
      | _ => false with
    | some (m, s) => match m.req with
      | .boot p => some (s.chip, some (msgFrom m), p, s)
      | _ => none
    | none => none

/-- The packet that comes next is of this kind. -/
def bootNext (s : State) (kind : Nat) : Bool :=
  match nextBoot s with
  | some (_, _, p, _) => bKind p == kind
  | none => false

/-- Act on the next packet when it is of this kind, once it has been forwarded. -/
def onBoot (s : State) (kind : Nat) (body : State → Nat → Option (Nat × Nat) → BootPacket → State) : State :=
  match nextBoot s with
  | some (n, asker, p, t) => if bKind p = kind then body (floodBoot t n p) n asker p else s
  | none => s

/-! ### The session (R455, R456) -/

/-- The first nonzero status of a session stands. -/
def bootFail (s : State) (code : Nat) : State :=
  { s with boot := { s.boot with status := if s.boot.status = 0 then code else s.boot.status } }

/-- The packet belongs to the open session. -/
def inSession (s : State) (p : BootPacket) : Bool := s.boot.opened && s.boot.session == bSession p

/-- The digest input that a packet adds: its header with bits [39:8] zero, then its data. -/
def digestInput (p : BootPacket) : List Byte := natLe 64 (setBits p.header.toNat 8 32 0) ++ bData p

/-- The link of the tree to neighbour `c` is up. -/
def neighbourUp (s : State) (c : Nat) : Bool :=
  if s.tree.parent = some c then (getLink s s.tree.up).up
  else s.tree.below.any fun e => (getLink s e.1).farChip == c && (getLink s e.1).up

/-- The chips of the subtree behind neighbour `c`, as far as this package knows them. -/
def subtreeOf (s : State) (c : Nat) : List Nat :=
  match s.tree.below.find? fun e => (getLink s e.1).farChip == c with
  | some e => if e.2.contains c then e.2 else c :: e.2
  | none => [c]

/-- Neighbours whose link is down are reported with status 6 for all their subtree. -/
def deadEnds (s : State) (e : BootEnd) : BootEnd :=
  let dead := e.waitFor.filter fun c => !neighbourUp s c
  { e with waitFor := e.waitFor.filter fun c => neighbourUp s c,
           statuses := e.statuses ++ (dead.flatMap (subtreeOf s)).map fun c => (c, 6) }

/-- The failing chips in ascending order. -/
def failures (sts : List (Nat × Nat)) : List (Nat × Nat) :=
  (List.range 4096).filterMap fun c => sts.find? fun e => e.1 == c && e.2 != 0

/-- The host's answer: the packages with status 0 and the failing chips. R448 has no reason for a boot in which packages
failed, so the RESULT's status is then free (log entry 25). -/
def answerEnd (s : State) (e : BootEnd) (asker : Nat × Nat) : State :=
  let good := (e.statuses.filter fun x => x.2 == 0).length
  let bad := failures e.statuses
  let (st, s) := if bad = [] then (0, s) else freshPick s
  postEvent (replyHost s asker (.result (st % 2 ^ 32) (BitVec.ofNat 64 (good % 2 ^ 32)) (bad.take 64))) 0x08 0 0 e.session

/-- The statuses of every package are known here: they answer the host, or go on towards the entry package. -/
def passEnd (s : State) (e : BootEnd) : State :=
  match e.entry with
  | some asker => answerEnd s e asker
  | none => sendCtl s e.via (.bootStatus e.session e.statuses)

/-- The report of an ended session, when every child's is known, goes to the parent (R457). The root has all of them: they go
back the way the packets came, so that a package which did not receive these from its parent awaits them from there (log entry
150). -/
def reportEnd (s : State) (e : BootEnd) : State :=
  let e := deadEnds s e
  if e.waitFor ≠ [] then { s with ends := s.ends ++ [e] }
  else match s.tree.parent, e.sent with
    | some p, false =>
      let s := sendCtl s p (.bootStatus e.session e.statuses)
      if e.entry.isNone ∧ e.via = p then s else { s with ends := s.ends ++ [{ e with sent := true, waitFor := [p] }] }
    | _, _ => passEnd s e

/-- Look again at every ended session. -/
def settleEnds (s : State) : State := s.ends.foldl reportEnd { s with ends := [] }

/-- An ended session waits for a neighbour whose link is down. -/
def endsDue (s : State) : Bool := s.ends.any fun e => e.waitFor.any fun c => !neighbourUp s c

/-- Erase an image part of the image store. -/
def erasePart (s : State) (base : Nat) : State :=
  { s with mem := tabErase (bootKey base) (bootKey base + partLen s base) s.mem, bases := s.bases.filter fun a => a != base }

/-- The open session ends here with its status. A package that failed erases the parts written and treats the windows
written as unloaded. -/
def endSession (s : State) : State :=
  let b := s.boot
  let ok := b.status == 0
  let s := if ok then s else b.bases.foldl erasePart s
  let un := b.unloaded.filter fun k => !b.windows.contains k
  let s := { s with boot := { b with opened := false, lastOk := ok && b.alone,
                                     unloaded := if ok then un else un ++ b.windows } }
  reportEnd s ⟨b.session, b.entry, b.via, [(s.chip, b.status)], s.tree.children, false⟩

/-- BOOT_BEGIN (R455, R456). -/
def execBootBegin (s : State) : Out :=
  .next (onBoot s 1 fun s n asker p =>
    let s := if s.boot.opened then endSession (bootFail s 4) else s
    let f := fun lo k => (p.payload.drop lo).take k
    let s := { s with boot := { s.boot with
      opened := true, session := bSession p, model := BitVec.ofNat 64 (leNat (f 0 8)), hash := f 8 48,
      manifest := [], mlen := leNat (f 56 4), entries := leNat (f 60 4), input := [], status := 0, bases := [],
      windows := [], alone := true, entry := asker, via := n, lastOk := false } }
    if badFields p ∨ p.payload.length ≠ 64 then bootFail s 5 else s)

/-- BOOT_MANIFEST (R455). -/
def execBootManifest (s : State) : Out :=
  .next (onBoot s 5 fun s _ _ p =>
    if inSession s p = false then s
    else if badFields p ∨ 8128 < p.payload.length ∨ s.boot.mlen < bOffset p + p.payload.length then bootFail s 5
    else
      let t := tabSetMany none s.boot.manifest (bOffset p) (p.payload.map some)
      { s with boot := { s.boot with manifest := t } })

/-- The cores whose storage a run of a DATA packet lies in. -/
def dataCores (p : BootPacket) : List Nat :=
  if bRegion p = 5 ∨ bData p = [] then []
  else
    let a := offCore (bRegion p) (bOffset p)
    rangeFrom a (offCore (bRegion p) (bOffset p + (bData p).length - 1) + 1)

/-- A core of the run has a resident context other than empty or drained. -/
def residentIn (s : State) (ks : List Nat) : Bool :=
  ks.any fun k => [false, true].any fun b =>
    let x := ctxAt s k b
    x.status != .empty && x.status != .drained

/-- A DATA or CFG packet is longer than R454 allows, outside the region's extent, or shorter than its mask. -/
def badLength (s : State) (p : BootPacket) : Bool :=
  decide (8128 < p.payload.length) || (bAddressing p == 2 && decide (p.payload.length < 512)) || !inExtent (bRegion p) (bOffset p) (bData p).length
    || (bRegion p == 2 && (bData p) != [] && !(offInArena s (bOffset p) && offInArena s (bOffset p + (bData p).length - 1)))

/-- The open session has seen a packet of its share. -/
def noteShare (s : State) (p : BootPacket) : State :=
  { s with boot := { s.boot with alone := s.boot.alone && addressesOnly p s.chip } }

/-- The data that enter the running digest. -/
def digestShare (s : State) (p : BootPacket) : State :=
  { s with boot := { s.boot with input := s.boot.input ++ digestInput p } }

/-- BOOT_DATA (R456). A run in the weight store writes windows (R457). -/
def execBootData (s : State) : Out :=
  .next (onBoot s 2 fun s _ _ p =>
    if inSession s p = false then s
    else
      let s := noteShare s p
      if addresses p s.chip = false then s
      else if badFields p || badLength s p then bootFail s 5
      else
        let ks := dataCores p
        if residentIn s ks then bootFail s 3
        else
          let s := digestShare (fabWrite s (bRegion p) (bOffset p) (bData p)) p
          if bRegion p = 0 ∨ bRegion p = 2 then { s with boot := { s.boot with windows := distinct (s.boot.windows ++ ks) } } else s)

/-- BOOT_CFG (R454, R456): image-part bytes for the image store. -/
def execBootCfg (s : State) : Out :=
  .next (onBoot s 3 fun s _ _ p =>
    if inSession s p = false then s
    else
      let s := noteShare s p
      if addresses p s.chip = false then s
      else if badFields p || badLength s p then bootFail s 5
      else
        let base := partBase s (bOffset p)
        let s := digestShare (storeImage s (bOffset p) (bData p)) p
        { s with boot := { s.boot with bases := distinct (s.boot.bases ++ [base]) } })

/-! ### The end (R457) -/

/-- The manifest's bytes received, in order. -/
def manifestBytes (b : Boot) : List Byte := b.manifest.filterMap (·.2)

/-- A run of the manifest, zero where nothing was received. -/
def manifestRun (b : Boot) (off n : Nat) : List Byte := (tabGetMany none b.manifest off n).map fun x => x.getD 0

/-- The share digest that the manifest expects of a chip: of the empty share where it has no entry. -/
def expectedDigest (b : Boot) (chip : Nat) : List Byte :=
  match (List.range b.entries).find? fun i => leNat (manifestRun b (64 + 64 * i) 2) == chip with
  | some i => manifestRun b (64 + 64 * i + 16) 48
  | none => sha384 []

/-- The checks of R457, in order. -/
def checkBoot (b : Boot) (chip : Nat) : Nat :=
  if sha384 (manifestBytes b) ≠ b.hash then 1
  else if sha384 b.input ≠ expectedDigest b chip then 2
  else 0

/-- BOOT_END (R457). -/
def execBootEnd (s : State) : Out :=
  .next (onBoot s 4 fun s _ asker p =>
    if inSession s p = false then s
    else
      let s := if badFields p ∨ p.payload ≠ [] then bootFail s 5 else s
      let b := s.boot
      let b := { b with status := if b.status = 0 then checkBoot b s.chip else b.status, entry := if b.entry.isSome then asker else none }
      endSession { s with boot := b })

/-- BOOT_STATUS_REPORT (R457): a child's statuses arrive, or from the parent those of all. -/
def execBootStatusReport (s : State) : Out :=
  .next (onCtl s (fun m => match m with
    | .bootStatus _ _ => true
    | _ => false) fun s n m =>
      match m with
      | .bootStatus id sts =>
        let add : BootEnd → BootEnd := fun e =>
          if e.session = id ∧ e.waitFor.contains n = true then
            { e with statuses := if e.sent then sts else e.statuses ++ sts, waitFor := e.waitFor.filter fun c => c != n }
          else e
        settleEnds { s with ends := s.ends.map add }
      | _ => s)

end Sys2Proof.Machine
end

