-- ==== Sys2Proof/Machine/Manage.lean ====
section
/-!
DEFINITION. Management requests (20 R451, 15 R340, R352, 22 R474, 23 R478).
-/
namespace Sys2Proof.Config

/-- The bytes that answer a telemetry request for a group whose layout the spec does not give, from what the package
counts: flits moved to escape (R426), discards, errors corrected (R394), and the rest (log entry 26). -/
opaque telemetry : Nat → Nat → Nat → Nat → Nat → List Sys2Proof.Byte

end Sys2Proof.Config

namespace Sys2Proof.Machine

/-! ### The shape of a request -/

/-- Take the oldest management request that `p` admits. It is forwarded to the package that it names; here it is answered
with reason 0x02 when it came on another channel than 0 (R451). -/
def onMgmt (s : State) (p : Mgmt → Bool) (body : State → HostMsg → Mgmt → State) : State :=
  onMsg s (fun r => match r with
    | .mgmt m => p m
    | _ => false) fun s m => orForward s m fun s =>
      match m.req with
      | .mgmt q => if m.channel % 4096 = 0 then body s m q else resultHost s (msgFrom m) 0x02
      | _ => s

/-- A request that changes the state and is answered at once: a RESULT with the reason, or success and the new state. -/
def settleMgmt (s : State) (m : HostMsg) (reason : Nat) (t : State) : State :=
  resultHost (if reason = 0 then t else s) (msgFrom m) reason

/-! ### Partitions (R340, R341) -/

/-- Two half-open ranges share a number. -/
def rangesMeet (a n b m : Nat) : Bool := n != 0 && m != 0 && overlaps a n b m

def curBase (p : PartParams) : Nat := bitsOf p.kvec.toNat 0 13
def curSize (p : PartParams) : Nat := bitsOf p.kvec.toNat 16 13

/-- A parameter is outside its limits (R340, R296, R297, R302). -/
def badParams (s : State) (p : PartParams) : Bool :=
  p.num == 0 || decide (255 < p.num)
    || p.cores.any (fun k => decide (16 ≤ k)) || (distinct p.cores).length != p.cores.length
    || (curSize p != 0 && (decide (curSize p < 264) || curBase p % 8 != 0 || decide (8192 < curBase p + curSize p)))
    || decide (256 < p.first + p.count) || decide (16 ≤ p.krow)
    || decide (p.l < 8) || decide (20 < p.l) || !([8, 16, 32, 64].contains p.p) || decide (2 ^ 20 < p.n)
    || (match p.tree with
      | some (chip, core) => decide (16 ≤ core) || (chip == s.chip && !p.cores.contains core)
      | none => false)

/-- A parameter clashes with what the package holds (R340): its number, a core, a share, a key row; or 16 partitions are
present. -/
def partClash (s : State) (p : PartParams) : Bool :=
  let others := s.parts.filter fun q => q.params.num != 0
  decide (16 ≤ others.length)
    || others.any (fun q => q.params.num == p.num || q.params.krow == p.krow || q.params.asid == p.asid
      || rangesMeet p.first p.count (bitsOf q.sltctl.toNat 0 8) (bitsOf q.sltctl.toNat 8 9))
    || p.cores.any fun k =>
      let c := getCore s k
      partOf c != 0 || [false, true].any fun b =>
        let x := getCtx c b
        occupied x && rangesMeet (curBase p) (curSize p) x.cfg.first x.cfg.size

/-- A core as a partition takes it over: its registers of R338, the reserved bits of KVEC zero, and its curator's register
set reset to zero (R328). -/
def joinCore (p : PartParams) (c : Core) : Core :=
  { c with partid := BitVec.ofNat 28 (p.num % 2 ^ 8 + p.asid.toNat * 2 ^ 8 + p.krow % 16 * 2 ^ 24),
           kvec := BitVec.ofNat 29 (bitsOf p.kvec.toNat 0 13 + bitsOf p.kvec.toNat 16 13 * 2 ^ 16),
           cur := .reset, curProd := [],
           fqctl := BitVec.ofNat 41 (setBits c.fqctl.toNat 11 12 p.fqbase.toNat) }

/-- A partition begins on this package (R340). -/
def createPart (s : State) (p : PartParams) : State :=
  let s := p.cores.foldl (fun s k => modCore s k (joinCore p)) s
  let q : Partition := { partReset p.num with
    params := p, ptbase := BitVec.ofNat 56 (p.ptbase.toNat / 2 ^ 16 * 2 ^ 16),
    sltctl := BitVec.ofNat 17 (p.first % 256 + p.count % 512 * 256) }
  let s := { s with parts := s.parts ++ [q] }
  let s := match p.tree with
    | some (chip, _) =>
      if chip = s.chip then
        let g : PrefixEngine := ⟨p.num, .new, p.l, p.p, p.n, 0, [], [], [], []⟩
        { s with engines := s.engines ++ [g] }
      else s
    | none => s
  let s := { s with tree := { s.tree with holders := s.tree.holders ++ [(p.num, s.chip)] } }
  floodCtl (loadPartition s p.num) (.holds p.num s.chip)

/-- MGMT_CREATE_PARTITION (R340, R451). -/
def execMgmtCreatePartition (s : State) : Out :=
  .next (onMgmt s (fun m => match m with
    | .createPartition _ => true
    | _ => false) fun s m q =>
      match q with
      | .createPartition p =>
        let why := if badParams s p then 0x01 else if partClash s p then 0x07 else 0
        settleMgmt s m why (createPart s p)
      | _ => s)

/-- The key row of a partition empties on every link. -/
def dropRow (s : State) (row : Nat) : State :=
  (s.router.links.map (·.1)).foldl (fun s l => modLink s l fun k =>
    { k with tx := setKey (setKey k.tx row 0 .reset) row 1 .reset, rx := setKey (setKey k.rx row 0 .reset) row 1 .reset }) s

/-- A partition ends on this package: its cores belong to partition 0 again, and the other packages hear of it (R437). -/
def destroyPart (s : State) (p : Partition) : State :=
  let s := p.params.cores.foldl (fun s k => modCore s k fun c =>
    if partOf c = p.params.num then { c with partid := 0, kvec := 0 } else c) s
  let s := dropRow s p.params.krow
  let s := { s with parts := s.parts.filter fun q => q.params.num != p.params.num,
                    engines := s.engines.filter fun g => g.part != p.params.num }
  loseHolder s s.chip p.params.num s.chip

/-- MGMT_DESTROY_PARTITION (R451): refused while any region of it is configured. -/
def execMgmtDestroyPartition (s : State) : Out :=
  .next (onMgmt s (fun m => match m with
    | .destroyPartition _ => true
    | _ => false) fun s m q =>
      match q with
      | .destroyPartition n =>
        match if n = 0 then none else findPart s n with
        | none => resultHost s (msgFrom m) 0x07
        | some p =>
          let why := if s.regions.any fun r => r.part == n && r.phase != .drained then 0x07 else 0
          settleMgmt s m why (destroyPart s p)
      | _ => s)

/-! ### Channels and keys (R446, R449, R450) -/

/-- MGMT_OPEN_CHANNEL (R449, R451): the channel's key comes from the session. -/
def execMgmtOpenChannel (s : State) : Out :=
  .next (onMgmt s (fun m => match m with
    | .openChannel _ _ => true
    | _ => false) fun s m q =>
      match q with
      | .openChannel ch part =>
        let why := if 4096 ≤ ch ∨ 256 ≤ part then 0x01
          else if (findChannel s ch).isSome ∨ (part ≠ 0 ∧ (findPart s part).isNone = true) then 0x07 else 0
        let c := newChannel ch part true (sessionKey s.spdm ch)
        settleMgmt s m why { s with channels := s.channels ++ [c] }
      | _ => s)

/-- MGMT_CLOSE_CHANNEL (R446, R451). -/
def execMgmtCloseChannel (s : State) : Out :=
  .next (onMgmt s (fun m => match m with
    | .closeChannel _ _ => true
    | _ => false) fun s m q =>
      match q with
      | .closeChannel ch part =>
        let why := match findChannel s ch with
          | none => 0x07
          | some c => if c.part ≠ part then 0x02 else 0
        settleMgmt s m why (closeChannel s ch)
      | _ => s)

/-- MGMT_INSTALL_STORAGE_KEY (R450, R451): the host-tier channel takes the key and its sequence numbers start again. -/
def execMgmtInstallStorageKey (s : State) : Out :=
  .next (onMgmt s (fun m => match m with
    | .installStorageKey _ _ => true
    | _ => false) fun s m q =>
      match q with
      | .installStorageKey part key =>
        match findPart s part with
        | none => resultHost s (msgFrom m) 0x07
        | some p =>
          let ch := p.params.channel
          let s := if (findChannel s ch).isSome then s else { s with channels := s.channels ++ [newChannel ch part true key] }
          let s := modChannel s ch fun c =>
            { c with keyed := true, key := key, rxNext := 0, txNext := 0, unacked := [], owed := false, asm := [], tmo := 0,
                     renewed := false, renewedIn := false }
          resultHost s (msgFrom m) 0
      | _ => s)

/-! ### Cores -/

/-- The curator of a core starts again (R451): a running context stays at its boundary, as one preempted. -/
def restartCurator (c : Core) : Core :=
  let c := match c.running with
    | some b => modCtx { c with running := none } b fun (x : Context) =>
        { x with status := if x.status == CtxStatus.running then CtxStatus.preempted else x.status }
    | none => c
  let c := setKstat { c with cur := .reset, curProd := [], faulted := false } false true false true false
  let c := { c with kcause := BitVec.ofNat 12 (0x20 + 2 ^ 11), kval := 0 }
  enterVector c 0x20

/-- MGMT_RESTART_CURATOR (R451). -/
def execMgmtRestartCurator (s : State) : Out :=
  .next (onMgmt s (fun m => match m with
    | .restartCurator _ => true
    | _ => false) fun s m q =>
      match q with
      | .restartCurator k =>
        let why := if 16 ≤ k then 0x01 else if (getCore s k).withdrawn then 0x07 else 0
        settleMgmt s m why (modCore s k restartCurator)
      | _ => s)

/-- Both contexts of a core may be retired. -/
def coreReady (s : State) (k : Nat) : Bool := retireReady s k false && retireReady s k true

/-- Retire a core as RETC with core = 1 does (R352). -/
def retireCore (s : State) (k : Nat) : State :=
  let cur := s.cur
  let s := [false, true].foldl (fun s b => retireCtx s k b) { s with cur := k }
  { (withdraw s k) with cur := cur }

/-- MGMT_RETIRE_CORE (R352, R451). It waits, as RETC does, for the jobs that hold the core's contexts. -/
def execMgmtRetireCore (s : State) : Out :=
  let p : Mgmt → Bool := fun m => match m with
    | .retireCore _ => true
    | _ => false
  .next (match s.hostIn.find? fun m => match m.req with
      | .mgmt q => p q
      | _ => false with
    | some ⟨ch, part, chip, tag, .mgmt (.retireCore k)⟩ =>
      let s := if chip = s.chip ∧ ch % 4096 = 0 then modCore s k fun c => killSuspended (killSuspended c false) true else s
      if chip ≠ s.chip ∨ ch % 4096 ≠ 0 ∨ 16 ≤ k ∨ (getCore s k).withdrawn = true ∨ coreReady s k = true then
        onMgmt s (fun m => m == .retireCore k) fun s _ _ =>
          let why := if 16 ≤ k then 0x01 else if (getCore s k).withdrawn then 0x07 else 0
          settleMgmt s ⟨ch, part, chip, tag, .mgmt (.retireCore k)⟩ why (retireCore s k)
      else s
    | _ => s)

/-! ### Regions (R400, R401, R409, R460) -/

/-- A request that names a region which this package carries. -/
def onRegionReq (s : State) (m : HostMsg) (part num : Nat) (body : State → Region → State) : State :=
  match findRegion s part num with
  | some r => if r.gone ∨ r.phase = .drained then resultHost s (msgFrom m) 0x07 else body s r
  | none => resultHost s (msgFrom m) 0x07

/-- MGMT_ABORT_SEGMENT (R409, R451): once the home has posted an error and before its roll-back has begun. -/
def execMgmtAbortSegment (s : State) : Out :=
  .next (onMgmt s (fun m => match m with
    | .abortSegment _ _ => true
    | _ => false) fun s m q =>
      match q with
      | .abortSegment part num => onRegionReq s m part num fun s r =>
          match r.errors with
          | e :: _ =>
            if isHome s r = true ∧ r.recover = true ∧ r.rolled = false then
              let s := modRegion s part num fun r => { r with abort := some (e.1, e.2.1) }
              resultHost (recoverStep s part num) (msgFrom m) 0
            else resultHost s (msgFrom m) 0x07
          | [] => resultHost s (msgFrom m) 0x07
      | _ => s)

/-- MGMT_ROLL_BACK_REGION (R400, R451): a region error of class HOST. -/
def execMgmtRollBackRegion (s : State) : Out :=
  .next (onMgmt s (fun m => match m with
    | .rollBackRegion _ _ => true
    | _ => false) fun s m q =>
      match q with
      | .rollBackRegion part num => onRegionReq s m part num fun s _ =>
          resultHost (raiseRegion s part num 0x24 0) (msgFrom m) 0
      | _ => s)

/-- MGMT_REPLACE_PACKAGE (R460, R461, R478): the RESULT comes with the thaw, or at once when a check fails. -/
def execMgmtReplacePackage (s : State) : Out :=
  .next (onMgmt s (fun m => match m with
    | .replacePackage _ _ _ _ => true
    | _ => false) fun s m q =>
      match q with
      | .replacePackage part num lost new => onRegionReq s m part num fun s r =>
          if replaceBad s r lost new then resultHost s (msgFrom m) 0x07
          else
            let s := modRegion s part num fun r => { r with replacing := r.replacing ++ [(new, msgFrom m)] }
            sendCtl s new (.replace part num lost new r.wave)
      | _ => s)

/-- MGMT_ABANDON_REGION (R352, R451): on every package of the region. The RESULT comes when this one has let it go. -/
def execMgmtAbandonRegion (s : State) : Out :=
  .next (onMgmt s (fun m => match m with
    | .abandonRegion _ _ => true
    | _ => false) fun s m q =>
      match q with
      | .abandonRegion part num =>
        match findRegion s part num with
        | none => resultHost s (msgFrom m) 0x07
        | some _ => sendAll (modRegion s part num fun r => { r with answer := some (msgFrom m) }) (.abandon part num)
      | _ => s)

/-! ### Routing and telemetry (R424, R426, R474) -/

/-- Write a routing entry: the flits that wait for a link look for their way again (R433). -/
def writeRoute (s : State) (w : RouteWrite) : State :=
  let r := s.router
  let again : Router → State := fun r => r.waiting.foldl rerouted { s with router := r }
  match w with
  | .route d e => again { r with route := tabSet none r.route d (some e) }
  | .escape d e => again { r with escape := tabSet none r.escape d (some e) }
  | .dltime n => { s with router := { r with dltime := n } }

/-- The fields of a routing write are within their limits (R424, R426). -/
def routeOk : RouteWrite → Bool
  | .route d _ => decide (d < 4096)
  | .escape d _ => decide (d < 4096)
  | .dltime n => decide (256 ≤ n) && decide (n ≤ 2 ^ 20)

/-- MGMT_WRITE_ROUTING (R424, R426, R451). -/
def execMgmtWriteRouting (s : State) : Out :=
  .next (onMgmt s (fun m => match m with
    | .writeRouting _ => true
    | _ => false) fun s m q =>
      match q with
      | .writeRouting w => settleMgmt s m (if routeOk w then 0 else 0x01) (writeRoute s w)
      | _ => s)

/-- The code of a slot's state (R474). -/
def keyCode : KeyState → Nat
  | .unloaded => 0
  | .loaded => 1
  | .active => 2
  | .held => 3

/-- The record of one end of a link direction and row; none when both slots are unloaded. -/
def keyRecord (s : State) (l row : Nat) (rx : Bool) : List Byte :=
  let k := getLink s l
  let t := if rx then k.rx else k.tx
  let a := getKey t row 0
  let b := getKey t row 1
  let n : KeySlot → Nat := fun q => if q.state = .unloaded then 0 else q.counter % 2 ^ 48
  if a.state = .unloaded ∧ b.state = .unloaded then []
  else
    natLe 32 (l % 2 ^ 7 + b01 rx * 2 ^ 7 + row % 32 * 2 ^ 8 + keyCode a.state * 2 ^ 16 + keyCode b.state * 2 ^ 18
      + n a * 2 ^ 32 + n b * 2 ^ 80 + (if rx then k.rxNext else k.txNext) % 2 ^ 16 * 2 ^ 128
      + (if rx then k.fails % 256 else 0) * 2 ^ 144)

/-- Counter group 0x03 over the given rows. -/
def keyRecords (s : State) (rows : List Nat) : List Byte :=
  (s.router.links.map (·.1)).flatMap fun l => [false, true].flatMap fun rx => rows.flatMap fun row => keyRecord s l row rx

/-- MGMT_READ_TELEMETRY (R451, R474): on channel 0, or on a channel of a partition for that partition. -/
def execMgmtReadTelemetry (s : State) : Out :=
  .next (onMsg s (fun r => match r with
    | .mgmt (.readTelemetry _) => true
    | _ => false) fun s m => orForward s m fun s =>
      match m.req with
      | .mgmt (.readTelemetry g) =>
        let rows := if m.channel % 4096 = 0 then List.range 17 else (krowOf s m.partition).toList
        if g = 3 then replyHost s (msgFrom m) (.telem (keyRecords s rows))
        else replyHost { s with counter := s.counter + 1 } (msgFrom m) (.telem
          (Config.telemetry g s.router.moved s.router.dropped s.corrected s.counter))
      | _ => s)

end Sys2Proof.Machine
end

