-- ==== Sys2Proof/Machine/Issue.lean ====
section
/-!
DEFINITION. The issue of one bundle (04 R83 to R105): the fetch, the causes in the order of R85, freezes, the slots in
their order, and what the end of the bundle does. It is told how to run one slot instruction.
-/
namespace Sys2Proof.Machine

/-! ### Fetch and decoding (R83 to R86) -/

/-- The key of a bundle's bytes in program store, for memory errors. -/
def progKey (k i : Nat) : Nat := 16 * 2 ^ 40 + k * 2 ^ 18 + 32 * i

/-- The instruction of slot word `n` of bundle `i`; NOP stands for a word that has none. -/
def slotInstr (c : Core) (i n : Nat) : Instr :=
  match decodeSlot n (slotWord c i n) with
  | .ok i => i
  | .error _ => .nop

/-- Slot word `n` of bundle `i` fails decode (R84). -/
def slotBad (c : Core) (i n : Nat) : Bool :=
  match decodeSlot n (slotWord c i n) with
  | .ok _ => false
  | .error _ => true

/-- The eight instructions of a bundle. -/
def bundleInstrs (c : Core) (i : Nat) : List (Nat × Instr) :=
  (List.range 8).map fun n => (n, slotInstr c i n)

def isChainOp : Instr → Bool
  | .vchc _ _ _ _ _ _ _ => true
  | .vch _ _ _ _ _ => true
  | _ => false

/-- Another slot of the bundle names one of this slot's destinations (R86). -/
def dstClash (l : List (Nat × Instr)) (n : Nat) (i : Instr) : Bool :=
  (dstsOf i).any fun d => l.any fun e => e.1 != n && (dstsOf e.2).contains d

/-- ILLEGAL by the branch's own words: a PBR beyond program store (R121). -/
def pbrOut (s : State) : Instr → Bool
  | .pbr _ o => decide (pbrTarget s o < 0) || decide (8191 < pbrTarget s o)
  | _ => false

/-- The control instructions that a delay bundle may not hold (R93). -/
def notInDelay : Instr → Bool
  | .br _ _ _ => true
  | .call _ _ _ _ => true
  | .lbrk _ _ _ => true
  | .loopImm _ _ _ => true
  | .loopReg _ _ _ _ => true
  | .loopKeep _ _ => true
  | .loopsl _ _ _ => true
  | .done _ _ => true
  | _ => false

/-- The decode cause of a slot (R84, R85), those of R86, R93, R121 and R208 with it: ILLEGAL before PRIV, whose code is
higher. -/
def slotCause (s : State) (b : Nat) (l : List (Nat × Instr)) (e : Nat × Instr) : Option Nat :=
  if slotBad (curCore s) b e.1 || dstClash l e.1 e.2 || (isChainOp e.2 && l.any fun q => q.1 != e.1 && isChainOp q.2)
      || pbrOut s e.2 || (notInDelay e.2 && inDelay s) then some 0x01
  else decodeCause (curCore s).curator e.2

/-- EMPTY of a slot whose guard holds (R88). -/
def slotEmpty (s : State) (e : Nat × Instr) : Option RegName :=
  let r := actRegs s
  if guardFull r e.2 && guardTrue r e.2 then emptySrc r e.2 else none

/-- A slot waits for a register: its guard, or a source or destination while its guard holds (R88, R89). -/
def slotWaits (s : State) (e : Nat × Instr) : Bool :=
  let r := actRegs s
  !guardFull r e.2 || (guardTrue r e.2 && waitsReg r e.2)

/-- The registers that a bundle reads. -/
def bundleReads (s : State) (l : List (Nat × Instr)) : List RegName :=
  let r := actRegs s
  l.flatMap fun e => (match guardOf e.2 with
    | some (p, _) => [qReg p]
    | none => []) ++ (if guardTrue r e.2 then (srcsOf e.2).map (·.1) else [])

/-- The bt register that a branch reads. -/
def btRead : Instr → Option Nat
  | .br b _ _ => some b.toNat
  | .call _ b _ _ => some b.toNat
  | _ => none

/-- The parity error that the bundle meets (R394): of a register it reads, of a snapshot register that holds a result,
or of a latch. A mark holds the core, the register set, the file code of R395 (6 for a latch) and the number. -/
def parityHit (s : State) (l : List (Nat × Instr)) : Option (Nat × Nat) :=
  if s.parity.isEmpty then none
  else
    let c := curCore s
    let mine := s.parity.filter fun m => m.1 == s.cur && m.2.1 == actWho c
    let rs := bundleReads s l
    let hit := mine.find? fun m =>
      let f := m.2.2.1
      let n := m.2.2.2
      if f = 6 then true
      else if f = 5 then !(actRegs s).flight.isEmpty
      else if f = 4 then l.any fun e => btRead e.2 == some n
      else rs.any fun r => fileCode r.file == f && r.num == n
    hit.map fun m => (m.2.2.1, m.2.2.2)

/-- KVAL of MEMERR for a parity error (R395). -/
def parityVal (f n : Nat) : Word := if f = 6 then memerrVal 5 0 else memerrVal 2 (n + f * 2 ^ 5)

/-- A register set is written afresh from its copy: its parity marks go. -/
def clearParity (s : State) (k : Nat) (w : Who) : State :=
  if s.parity.isEmpty then s else { s with parity := s.parity.filter fun m => !(m.1 == k && m.2.1 == w) }

/-- A register has been written: its parity is good again. -/
def cleanRegs (s : State) (k : Nat) (w : Who) (rs : List RegName) : State :=
  if s.parity.isEmpty then s
  else { s with parity := s.parity.filter fun m =>
    !(m.1 == k && m.2.1 == w && rs.any fun r => fileCode r.file == m.2.2.1 && r.num == m.2.2.2) }

/-! ### Traps, freezes and reruns -/

/-- A trap of the bundle that is issuing, entered from the state before it: the bundle has no effect (R85). -/
def bundleTrap (s : State) (t : TrapInfo) : State :=
  let w := actWho (curCore s)
  clearParity (trapCore s s.cur t) s.cur w

/-- A PROGBOUND at fetch names no slot (R393). -/
def fetchTrap (s : State) (fpc : Nat) (v : Word) : State :=
  bundleTrap s ⟨0x0F, 0, true, some (BitVec.ofNat 16 fpc), v⟩

/-- Uncorrectable data met by the bundle (R394, R396, R398): persistent, or met in a rerun, MEMERR; transient, a rerun
pair. Curator mode has no checkpoint, so there it is MEMERR as well. -/
def bundleMemerr (s : State) (slot : Nat) (persist : Bool) (v : Word) : State :=
  let c := curCore s
  let x := getCtx c (runCtx c)
  if persist || c.curator || (match x.rerun with
      | .first => true
      | .second _ _ _ => true
      | _ => false) then
    bundleTrap s ⟨0x0A, slot, false, none, v⟩
  else clearParity (startRerun s s.cur (runCtx c)) s.cur (whoCtx (runCtx c))

/-- The core freezes (R91): the bundle has no effect; its context waits. -/
def bundleFreeze (s : State) (f : Freeze) : State :=
  let s := tick s s.cur true
  if (curCore s).curator then s else modActCtx s fun x => { x with why := some f }

/-- The soft errors of a word are gone once it has been read again with success. -/
def rereadWord (s : State) (v : Word) : State :=
  let src := bitsOf v.toNat 56 4
  let loc := bitsOf v.toNat 0 27
  let key := if src = 0 then spaceKey s.cur .spad loc else if src = 1 then spaceKey s.cur .win loc
    else if src = 3 then 3 * 2 ^ 40 + s.cur * 2 ^ 20 + loc else progKey s.cur (loc / 32)
  rereadKey s (key / 8 * 8)

/-! ### The slots -/

/-- Run the slots in their order. The effects that the slots of one bundle withhold enter the pending-effect list, and at a
commit the release order, by ascending slot: DESIGN CHOICE, program order (R104) orders bundles and says nothing within
one (log entry 141). A freeze of one is remembered, and the later slots run on only to see whether the
bundle forces an implicit checkpoint (R103); a trap or an error ends the bundle. -/
def runSlots (run : Instr → State → Out) : List (Nat × Instr) → Option Freeze → State → Option Freeze × State
  | [], f, s => (f, s)
  | e :: l, f, s =>
    if e.2 = .nop then runSlots run l f s
    else match run e.2 (modScr s fun q => { q with slot := e.1 }) with
      | .next t =>
        if t.scr.trapped.isSome || t.scr.memerr.isSome || t.scr.implicit then (f, t)
        else match t.scr.frozen with
          | some w => if t.scr.keep then (some w, t) else runSlots run l (f.orElse fun _ => some w) s
          | none => runSlots run l f t
      | _ => (f, s)

/-! ### The end of a bundle -/

/-- Special-register writes of the bundle (R175, R343): those of a curator bundle act on the context of KSTAT.ctx and on
the control registers. Of two of one register, which no rule forbids or orders, the one in the higher slot stands:
DESIGN CHOICE (log entry 102). -/
def applySregs (s : State) (l : List (Nat × Nat)) : State :=
  l.foldl (fun s e =>
    if 0x1000 ≤ e.1 then writeCreg s s.cur (e.1 - 0x1000) e.2
    else modCtxAt s s.cur (sregCtx (curCore s)) fun x => writeSreg x e.1 e.2) s

/-- The records of special-register writes in a rerun's signature (R397). -/
def sregRecs (x : Context) (l : List (Nat × Nat)) : List Byte :=
  l.flatMap fun e => sregRec e.1 (readSreg (writeSreg x e.1 e.2) e.1)

/-- RPOP frees the head entry (R15). -/
def applyPops (x : Context) (l : List Nat) : Context :=
  l.foldl (fun x p => modIn x p fun i => { i with popped := i.popped + 1 }) x

/-- A long-latency producer claims a register: it is empty (R87), and the fixed-latency results of earlier bundles that
are still on their way to it write nothing, however soon the producer delivers (R89 to R91). -/
def claimReg (r : Regs) (d : RegName) : Regs :=
  setFull { r with flight := r.flight.filter fun f => f.dest != d } d false

/-- The registers after the bundle: claims, stream registers, results one bundle nearer, flags, the sequencer. The flags of
a curator bundle go into a word of its own set, which nothing reads: DEDUCED, R328 gives the curator no
fst (log entry 104). -/
def endRegs (q : Scratch) (i : Nat) (r : Regs) : Regs :=
  let r := q.claims.foldl claimReg r
  let r := q.streams.foldl (fun (r : Regs) e => { r with st := r.st.setIfInBounds e.1 e.2 }) r
  advance (ageFlight (orFst r q.flags)) i q.act

/-- The effects of a bundle that has issued. A special register that both the sequencer and an MTS of the bundle write keeps
what the MTS wrote: DESIGN CHOICE (log entry 103). -/
def endBundle (s : State) (i : Nat) : State :=
  let q := s.scr
  let k := s.cur
  let cur := (curCore s).curator
  let x0 := actCtx s
  let s := tick s k false
  let s := modAct s (endRegs q i)
  let s := modCore s k fun c => setProd c (actWho c) (getProd c (actWho c) ++ q.prods)
  let s := if cur then s else modActCtx s fun x =>
    let x := noteSregs x0 x
    { (applyPops x q.pops) with
      sig := if x.rerun = .none then x.sig else x.sig ++ sregRecs x q.sregs,
      boundary := (match q.act with
        | .ckpt => some .ckpt
        | .done => some .done
        | _ => x.boundary),
      why := none, bundles := x.bundles + 1, cnt := x.cnt.setIfInBounds 0 (x.cnt.getD 0 0 + 1) }
  let s := applySregs s q.sregs
  let s := if q.act = .ret then doReturn s k else s
  { s with scr := .reset }

/-- A launch of a stage waits for room in the footprint table, and holds the EN slot (R80). -/
def enHeld (s : State) : Bool :=
  let c := curCore s
  !c.curator && c.jobs.any fun j => j.state == .queued && tableFull s s.cur j

/-- Run one slot's instruction; the EN slot's freezes while a launch holds the slot. -/
def runHeld (run : Instr → State → Out) (i : Instr) (s : State) : Out :=
  if s.scr.slot = 7 ∧ guardTrue (actRegs s) i = true ∧ enHeld s = true then .next (freeze s .footprint) else run i s

/-- A body's last bundle that is the delay bundle of a taken branch traps LOOP in slot 0 (R98), but for a cause of lower
code that slot 0 itself meets (R85). -/
def loopTrap (run : Instr → State → Out) (s : State) (l : List (Nat × Instr)) (lvl : Nat) : State :=
  let t := (runSlots run (l.filter fun e => e.1 == 0) none s).2
  match t.scr.trapped, t.scr.memerr with
  | some q, _ => if q.cause < 0x0E then bundleTrap s q else bundleTrap s ⟨0x0E, 0, false, none, BitVec.ofNat 64 (lvl + 4 * 2 ^ 8)⟩
  | none, some (p, v) => bundleMemerr (if p then s else rereadWord s v) 0 p v
  | none, none => bundleTrap s ⟨0x0E, 0, false, none, BitVec.ofNat 64 (lvl + 4 * 2 ^ 8)⟩

/-- The bundle at `i`, with its instructions decoded. -/
def issueDecoded (run : Instr → State → Out) (s : State) (i : Nat) (l : List (Nat × Instr)) : State :=
  match l.find? fun e => (slotCause s i l e).isSome with
  | some e => bundleTrap s ⟨(slotCause s i l e).getD 0x01, e.1, false, none, BitVec.ofNat 64 (slotWord (curCore s) i e.1)⟩
  | none =>
    match l.find? fun e => (slotEmpty s e).isSome with
    | some e => bundleTrap s ⟨0x03, e.1, false, none, BitVec.ofNat 64 (((slotEmpty s e).map emptyVal).getD 0)⟩
    | none =>
      if l.any fun e => slotWaits s e then bundleFreeze s .register
      else match parityHit s l with
        | some (f, n) => bundleMemerr s 0 false (parityVal f n)
        | none =>
          let ends := endingAt (actRegs s) i
          if !ends.isEmpty && inTakenDelay s && !(curCore s).curator then
            loopTrap run s l ((ends.head?.map (·.lvl)).getD 0)
          else
            match runSlots (runHeld run) l none (noteSeen s) with
            | (none, t) =>
              match t.scr.trapped, t.scr.memerr with
              | some q, _ => bundleTrap s q
              | none, some (p, v) => bundleMemerr (if p then s else rereadWord s v) t.scr.slot p v
              | none, none =>
                if t.scr.implicit then
                  modActCtx (tick s s.cur true) fun x => { x with boundary := some .implicit, why := some .producers }
                else endBundle t i
            | (some f, t) =>
              if t.scr.keep then { (bundleFreeze t f) with scr := .reset }
              else if t.scr.implicit then
                modActCtx (tick s s.cur true) fun x => { x with boundary := some .implicit, why := some .producers }
              else bundleFreeze s f

/-- Fetch the bundle at `i` and issue it. -/
def fetchIssue (run : Instr → State → Out) (s : State) (i : Nat) : State :=
  match badWord s (progKey s.cur i) 32 with
  | some w =>
    let p := persistent s w
    let v := memerrVal 4 (w % 2 ^ 18)
    bundleMemerr (if p then s else rereadWord s v) 0 p v
  | none => issueDecoded run (countFixed s (progKey s.cur i) 32) i (bundleInstrs (curCore s) i)

/-- A stage context's next bundle, PROGBOUND first (R83, R141). -/
def issueStage (run : Instr → State → Out) (s : State) (b : Bool) : State :=
  let x := getCtx (curCore s) b
  match x.live.next with
  | .badTarget v => fetchTrap s 0xFFFF v
  | n =>
    let i := nextIndex x n
    if i < x.cfg.first ∨ x.cfg.first + x.cfg.size ≤ i then fetchTrap s i (BitVec.ofNat 64 i)
    else fetchIssue run s i

/-- A curator bundle: a fetch outside its share is a curator fault (R331). -/
def issueCurator (run : Instr → State → Out) (s : State) : State :=
  let c := curCore s
  match c.cur.next with
  | .badTarget _ => curatorFault s s.cur 0x0F 0xFFFF
  | _ =>
    let i := issueIndex c
    if inCurShare c i then fetchIssue run s i else curatorFault s s.cur 0x0F i

/-- May core `k` attempt to issue? -/
def mayIssue (s : State) (k : Nat) : Bool :=
  let c := getCore s k
  if c.faulted || c.withdrawn then false
  else if c.curator then true
  else match c.running with
    | some b => !c.halted && (getCtx c b).stopped.isNone && (getCtx c b).status == .running && (dueAt s k).isNone
    | none => false

/-- A committed MARK has not performed: the registers that its snapshot takes stand as they are (R274, log entry 110). -/
def markHeld (x : Context) : Bool := x.relq.any fun r => r.eff == .mark

/-- One attempt of core `k` to issue its next bundle, one clock of the core. At a boundary that has not committed, or
behind an MCHK, it stands frozen (R100, R229). A context whose rerun pair is pending starts it (R398). -/
def issueCore (run : Instr → State → Out) (k : Nat) (s : State) : State :=
  if mayIssue s k = false then s
  else
    let s := { s with cur := k, scr := .reset }
    let c := getCore s k
    let w := actWho c
    let due := ((getRegs c w).flight.filter fun f => f.count == 0).map (·.dest)
    let s := cleanRegs (modCore s k fun c => deliverDue c w) k w due
    if c.curator then issueCurator run s
    else
      let b := runCtx c
      let x := getCtx c b
      if x.rerun = .pending then startRerun s k b
      else if x.mchk.isSome then bundleFreeze s .array
      else if x.boundary.isSome ∨ markHeld x = true then bundleFreeze s .producers
      else issueStage run s b

end Sys2Proof.Machine
end

