-- ==== Sys2Proof/Machine/Spdm.lean ====
section
/-!
DEFINITION. Identity and attestation (20 R449, R463, R464): the SPDM responder on channel 0. The layouts of DSP0274 and
the numbers drawn at random are not in the spec; they are opaque (log entry 27).
-/
namespace Sys2Proof.Config

/-- The fused unique device secret (R463). -/
opaque deviceSecret : List Sys2Proof.Byte

/-- The SHA-384 of the boot ROM (R464). -/
opaque romDigest : List Sys2Proof.Byte

/-- The image digest of the firmware in the flash (R462). -/
opaque firmwareDigest : List Sys2Proof.Byte

/-- The firmware's security version number (R462). -/
opaque securityVersion : Nat

/-- What the boot ROM reports as measurement when it has refused the firmware (R462). -/
opaque failureDigest : List Sys2Proof.Byte

/-- The public keys that come with the firmware, and its two signatures (R462). -/
opaque firmwarePub : List Sys2Proof.Byte
opaque lmsPub : List Sys2Proof.Byte
opaque firmwareSig : List Sys2Proof.Byte
opaque lmsSig : List Sys2Proof.Byte

/-- The fuses: the SHA-384 of each public key, and the security version number (R462). -/
opaque fusedPub : List Sys2Proof.Byte
opaque fusedLms : List Sys2Proof.Byte
opaque fusedVersion : Nat

/-- The one-time-key indexes used so far, each with the version and the digest of its image (R462). -/
opaque lmsHistory : List (Nat × Nat × List Sys2Proof.Byte)

/-- The private key of an ECDSA P-384 pair derived from a secret: R463 names no derivation. -/
opaque deriveKey : List Sys2Proof.Byte → Nat

/-- The DeviceID certificate, signed at manufacture (R463). -/
opaque deviceCert : List Sys2Proof.Byte

/-- What the Alias certificate says of the Alias public key, which its signature covers (R463). -/
opaque aliasBody : List Sys2Proof.Byte → List Sys2Proof.Byte

/-- The number that a signature takes for a private key and a digest. -/
opaque signNonce : Nat → List Sys2Proof.Byte → Nat

/-- The private key of a key exchange, by its number. -/
opaque ephemeral : Nat → Nat

/-- A request as DSP0274 lays it out. -/
opaque spdmRequest : Sys2Proof.SpdmReq → List Sys2Proof.Byte

/-- A response as DSP0274 lays it out: its code and the parts it carries. -/
opaque spdmResponse : Nat → List (List Sys2Proof.Byte) → List Sys2Proof.Byte

/-- Where in the boot region the firmware keeps the margin log (R466). -/
opaque marginBase : Nat

end Sys2Proof.Config

namespace Sys2Proof.Machine

/-! ### Identity (R463) -/

/-- The compound device identifier: HMAC-SHA-384 of the device secret over the firmware measurement. -/
def deviceCdi : List Byte := hmac384 Config.deviceSecret Config.firmwareDigest

def deviceKey : Nat := Config.deriveKey Config.deviceSecret
def aliasKey : Nat := Config.deriveKey deviceCdi

/-- A signature by ECDSA P-384 with SHA-384. -/
def signBytes (d : Nat) (m : List Byte) : List Byte := ecdsaSign d (Config.signNonce d (sha384 m)) (sha384 m)

/-- The Alias certificate, which the DeviceID key signs at each boot. -/
def aliasCert : List Byte :=
  let body := Config.aliasBody (publicKey aliasKey)
  body ++ signBytes deviceKey body

def chainBytes : List Byte := Config.deviceCert ++ aliasCert

/-! ### The firmware (R462) -/

/-- The boot ROM runs the firmware: both keys are the fused ones and both signatures of the image digest verify, its version is
not below the fused one, and no other image of its version has used its one-time key. -/
def firmwareOk : Bool :=
  sha384 Config.firmwarePub == Config.fusedPub && ecdsaVerify Config.firmwarePub Config.firmwareDigest Config.firmwareSig
    && sha384 Config.lmsPub == Config.fusedLms && lmsVerify Config.lmsPub Config.firmwareDigest Config.lmsSig
    && decide (Config.fusedVersion ≤ Config.securityVersion)
    && !(Config.lmsHistory.any fun h => h.1 == Config.securityVersion && h.2.1 == lmsIndex Config.lmsSig
      && h.2.2 != Config.firmwareDigest)

/-! ### Measurements (R464) -/

/-- Image-part bases in ascending image id. -/
def insertBase (s : State) (a : Nat) : List Nat → List Nat
  | [] => [a]
  | b :: l => if partImage s a < partImage s b then a :: b :: l else b :: insertBase s a l

def sortedBases (s : State) : List Nat := s.bases.foldl (fun l a => insertBase s a l) []

/-- The margin log as it stands in the boot region. -/
def marginLog (s : State) : List Byte := memRead s (bootKey Config.marginBase) (64 * s.power.log.length)

/-- Measurement `n`. -/
def measurement (s : State) (n : Nat) : List Byte :=
  match n with
  | 1 => Config.romDigest
  | 2 => if s.power.failed then Config.failureDigest else Config.firmwareDigest
  | 3 => natLe 8 Config.securityVersion
  | 4 => sha384 (marginLog s)
  | 5 => sha384 ((sortedBases s).flatMap (headBytes s))
  | _ => []

/-- The measurements that a request names: one, all (0xFF), or only their number (0). -/
def measured (s : State) (index : Nat) : Option (List (List Byte)) :=
  if index = 0 then some [natLe 1 5]
  else if index = 0xFF then some ([1, 2, 3, 4, 5].map (measurement s))
  else if index ≤ 5 then some [measurement s index]
  else none

/-! ### Requests and responses -/

/-- Send a response; the transcript keeps both messages. -/
def spdmReply (s : State) (asker : Nat × Nat) (q : SpdmReq) (code : Nat) (parts : List (List Byte)) : State :=
  let r := Config.spdmResponse code parts
  let s := { s with spdm := { s.spdm with script := s.spdm.script ++ Config.spdmRequest q ++ r } }
  replyHost s asker (.spdm r)

/-- An error response (code 0x7F): the state of the exchange stays. -/
def spdmError (s : State) (asker : Nat × Nat) (code : Nat) : State :=
  replyHost s asker (.spdm (Config.spdmResponse 0x7F [natLe 1 code]))

/-- Take the oldest SPDM request that `p` admits. Out of its order it is answered as unexpected (0x04). -/
def onSpdm (s : State) (p : SpdmReq → Bool) (phase : Nat → Bool) (body : State → Nat × Nat → SpdmReq → State) : State :=
  onMsg s (fun r => match r with
    | .spdm q => p q
    | _ => false) fun s m =>
      match m.req with
      | .spdm q => if phase s.spdm.phase then body s (msgFrom m) q else spdmError s (msgFrom m) 0x04
      | _ => s

def setPhase (s : State) (n : Nat) : State := { s with spdm := { s.spdm with phase := n } }

/-- SPDM_VERSION (R464): the exchange begins anew. -/
def execSpdmVersion (s : State) : Out :=
  .next (onSpdm s (fun q => q == .version) (fun n => n != 5) fun s asker q =>
    spdmReply { s with spdm := { s.spdm with phase := 1, script := [], secret := [] } } asker q 0x04 [])

/-- SPDM_CAPABILITIES (R464). -/
def execSpdmCapabilities (s : State) : Out :=
  .next (onSpdm s (fun q => q == .capabilities) (fun n => n == 1) fun s asker q => spdmReply (setPhase s 2) asker q 0x61 [])

/-- SPDM_ALGORITHMS (R449, R464). -/
def execSpdmAlgorithms (s : State) : Out :=
  .next (onSpdm s (fun q => q == .algorithms) (fun n => n == 2) fun s asker q => spdmReply (setPhase s 3) asker q 0x63 [])

/-- SPDM_DIGESTS (R464). -/
def execSpdmDigests (s : State) : Out :=
  .next (onSpdm s (fun q => q == .digests) (fun n => n == 3 || n == 5) fun s asker q => spdmReply s asker q 0x01 [sha384 chainBytes])

/-- SPDM_CERTIFICATE (R463, R464). -/
def execSpdmCertificate (s : State) : Out :=
  .next (onSpdm s (fun q => q == .certificate) (fun n => n == 3 || n == 5) fun s asker q => spdmReply s asker q 0x02 [chainBytes])

/-- A signature by the Alias key over the transcript, the request and what the response carries. -/
def signScript (s : State) (q : SpdmReq) (parts : List (List Byte)) : List Byte :=
  signBytes aliasKey (s.spdm.script ++ Config.spdmRequest q ++ parts.flatMap id)

/-- SPDM_CHALLENGE (R464). -/
def execSpdmChallenge (s : State) : Out :=
  .next (onSpdm s (fun q => match q with
    | .challenge _ => true
    | _ => false) (fun n => n == 3) fun s asker q =>
      let parts := [sha384 chainBytes, sha384 ([1, 2, 3, 4, 5].flatMap (measurement s))]
      spdmReply s asker q 0x03 (parts ++ [signScript s q parts]))

/-- SPDM_MEASUREMENTS (R464): signed by the Alias key. -/
def execSpdmMeasurements (s : State) : Out :=
  .next (onSpdm s (fun q => match q with
    | .measurements _ _ => true
    | _ => false) (fun n => n == 3 || n == 5) fun s asker q =>
      match q with
      | .measurements index _ =>
        match measured s index with
        | some parts => spdmReply s asker q 0x60 (parts ++ [signScript s q parts])
        | none => spdmError s asker 0x01
      | _ => s)

/-- SPDM_KEY_EXCHANGE (R449, R464): the shared secret of a session to be, by ECDHE over secp384r1. Exchange data that are no
point of the curve are an invalid request (0x01). -/
def execSpdmKeyExchange (s : State) : Out :=
  .next (onSpdm s (fun q => match q with
    | .keyExchange _ => true
    | _ => false) (fun n => n == 3) fun s asker q =>
      match q with
      | .keyExchange peer =>
        match readPoint peer with
        | none => spdmError s asker 0x01
        | some r =>
          let d := Config.ephemeral s.counter
          let parts := [publicKey d, sha384 ([1, 2, 3, 4, 5].flatMap (measurement s))]
          let sig := signScript s q parts
          let s := { s with counter := s.counter + 1, spdm := { s.spdm with phase := 4, secret := ecdhSecret d (some r) } }
          spdmReply s asker q 0x64 (parts ++ [sig])
      | _ => s)

/-- What FINISH must carry: an HMAC over the transcript. -/
def finishMac (s : State) : BitVec 384 :=
  let th := sha384 s.spdm.script
  BitVec.ofNat 384 (leNat (hmac384 (finishedKey s.spdm.secret th) th))

/-- The session opens with its data secrets, and carries channel 0. -/
def openSession (s : State) : State :=
  let th := sha384 s.spdm.script
  let p := { s.spdm with phase := 5, req := dataSecret s.spdm.secret "req app data" th,
                         rsp := dataSecret s.spdm.secret "rsp app data" th }
  modChannel { s with spdm := p } 0 fun c => { c with keyed := true, key := sessionKey p 0 }

/-- SPDM_FINISH (R449): the session opens and carries channel 0. -/
def execSpdmFinish (s : State) : Out :=
  .next (onSpdm s (fun q => match q with
    | .finish _ => true
    | _ => false) (fun n => n == 4) fun s asker q =>
      match q with
      | .finish v => if v ≠ finishMac s then spdmError (setPhase s 3) asker 0x06 else openSession (spdmReply s asker q 0x65 [])
      | _ => s)

/-- A channel that is keyed with a partition's storage key (R450). -/
def storageChannel (s : State) (ch : Nat) : Bool := s.parts.any fun p => p.params.num != 0 && p.params.channel == ch

/-- SPDM_KEY_UPDATE (R444, R464): the keys of the session's channels are renewed. -/
def execSpdmKeyUpdate (s : State) : Out :=
  .next (onSpdm s (fun q => q == .keyUpdate) (fun n => n == 5) fun s asker q =>
    let p := { s.spdm with req := nextSecret s.spdm.req, rsp := nextSecret s.spdm.rsp }
    let renew : Channel → Channel := fun c =>
      if c.keyed && !storageChannel s c.num then { c with key := sessionKey p c.num, renewed := true, renewedIn := true } else c
    let s := { s with spdm := p, channels := s.channels.map renew }
    spdmReply s asker q 0x69 [])

/-- SPDM_END_SESSION (R464): channel 0 awaits SPDM again. -/
def execSpdmEndSession (s : State) : Out :=
  .next (onSpdm s (fun q => q == .endSession) (fun n => n == 5) fun s asker q =>
    let s := spdmReply s asker q 0x6C []
    modChannel { s with spdm := ⟨0, [], [], [], []⟩ } 0 fun c => { c with keyed := false, key := 0 })

end Sys2Proof.Machine
end

