-- ==== Sys2Proof/Machine/Power.lean ====
section
/-!
DEFINITION. Power-on and loss of power, margins and limits (20 R462, R465 to R467), the boundary-scan port, soft errors
(18 R394) and slot words with no instruction (04 R84, R85).
-/
namespace Sys2Proof.Config

/-- A record of the margin log: time, core, offset and reading, whose places R466 does not give (log entry 2). -/
opaque marginRecord : Nat → Nat → Nat → Nat → BitVec 512

/-- What the boundary-scan port captures in Capture-IR (true) or Capture-DR, under the instruction register, by the
number of the capture (log entry 28). -/
opaque scanCapture : Bool → List Bool → Nat → List Bool

end Sys2Proof.Config

namespace Sys2Proof.Machine

/-! ### Margins (R466) -/

/-- The smallest offset whose reading is at least 80 units. -/
def marginOffset (k time : Nat) : Option Nat := (List.range 256).find? fun o => decide (80 ≤ Config.marginReading k o time)

/-- Plan core `k`: its MARGIN register and the log. Where no offset will do, the plan stays as it is, and the flash keeps the
core for the next boot. -/
def planCore (s : State) (k : Nat) : State :=
  let o := marginOffset k s.counter
  let off := o.getD (bitsOf (getCore s k).margin.toNat 16 8)
  let r := Config.marginReading k off s.counter
  let s := modCore s k fun c => { c with margin := BitVec.ofNat 32 (r % 2 ^ 16 + off % 2 ^ 8 * 2 ^ 16) }
  let line := Config.marginRecord s.clock k off r
  let s := memWrite s (bootKey (Config.marginBase + 64 * s.power.log.length)) (natLe 64 line.toNat)
  let rest := s.power.short.filter (· != k)
  { s with power := { s.power with log := s.power.log ++ [line], short := if o.isNone then rest ++ [k] else rest } }

/-- MARGIN_PLAN (R466): the plan of every 24 hours. -/
def execMarginPlan (k : Nat) (s : State) : Out :=
  .next (if s.power.step < 4 ∨ 16 ≤ k ∨ (getCore s k).withdrawn = true then s
    else planCore { s with counter := s.counter + 1 } k)

/-- The plan at boot, which is logged like every plan: a core for which no offset will do, now or at the last plan before, is
withdrawn. -/
def bootPlan (s : State) (k : Nat) : State :=
  if (marginOffset k s.counter).isNone || s.power.short.contains k then withdraw (planCore s k) k else planCore s k

/-! ### Power-on (R465) -/

/-- POWER_ON (R453, R462, R465), to step 4: the chip number from the pins; with 0xFFF, or with firmware that does not verify,
the package stays in the boot ROM, in the latter case with channel 0 for SPDM. LINK_TRAINING goes on with step 5. -/
def execPowerOn (ga : BitVec 12) (s : State) : Out :=
  .next (
    if s.power.step ≠ 0 then s
    else if ga = 0xFFF then { s with power := { s.power with step := 2 } }
    else
      let s := { s with chip := ga.toNat, tree := { s.tree with root := ga.toNat } }
      if firmwareOk = false then
        { s with channels := [newChannel 0 0 false 0], power := { s.power with step := 2, failed := true } }
      else
        let s := (List.range 16).foldl bootPlan s
        { s with counter := s.counter + 1, power := { s.power with step := 4 } })

/-- POWER_LOSS (R465): the package loses all state and returns to reset; what the flash keeps for the next boot stays (R466). -/
def execPowerLoss (s : State) : Out :=
  .next { State.reset with agenda := s.agenda, counter := s.counter, power := { State.reset.power with short := s.power.short } }

/-! ### Limits (R467) -/

/-- The core clock falls by a step, to no less than 1.0 GHz. -/
def slower (p : Power) : Power := { p with mhz := Nat.max 1000 (p.mhz - 50) }

/-- Power beyond a limit: of the package, 750 W, or of the module, 850 W. -/
def overPower (watts : PowerReading) : Bool := decide (750 < watts.ofPackage) || decide (850 < watts.ofModule)

/-- POWER_LIMIT (R467): power of the package, or of the module, above its limit for 1 ms. Event 0x09 reports the entry into
limiting. -/
def execPowerLimit (watts : PowerReading) (s : State) : Out :=
  .next (
    if overPower watts = false then s
    else
      let t := if s.power.limited then s else postEvent s 0x09 0 0 (watts.ofPackage % 2 ^ 16 + 2 ^ 16)
      { t with power := { slower s.power with limited := true } })

/-- CLOCK_RESTORE (R467): power at least 5% below both limits for 10 ms. -/
def execClockRestore (watts : PowerReading) (s : State) : Out :=
  .next (
    if 71250 < watts.ofPackage * 100 ∨ 80750 < watts.ofModule * 100 then s
    else
      let m := Nat.min 1500 (s.power.mhz + 50)
      { s with power := { s.power with mhz := m, limited := s.power.limited && m != 1500, hot := s.power.hot && m != 1500 } })

/-- THERMAL_LIMIT (R467): 105 °C, in units of 0.125 °C. -/
def execThermalLimit (t : Nat) (s : State) : Out :=
  .next (
    if t < 840 then s
    else
      let u := if s.power.hot then s else postEvent s 0x09 0 0 (t % 2 ^ 16)
      { u with power := { slower s.power with hot := true } })

/-- THERMAL_SHUTDOWN (R467): every link stops and the package halts. -/
def execThermalShutdown (s : State) : Out :=
  .next { s with halted := true, router := { s.router with links := [] } }

/-! ### The boundary-scan port (R465) -/

/-- The states of the port's controller: 0 reset, 1 idle, 2 to 8 those of a data register (select, capture, shift, exit 1,
pause, exit 2, update), 9 to 15 the same of the instruction register (log entry 28). -/
def tapNext (t : Nat) (tms : Bool) : Nat :=
  match t, tms with
  | 0, false => 1
  | 0, true => 0
  | 1, false => 1
  | 1, true => 2
  | 2, false => 3
  | 2, true => 9
  | 3, false => 4
  | 3, true => 5
  | 4, false => 4
  | 4, true => 5
  | 5, false => 6
  | 5, true => 8
  | 6, false => 6
  | 6, true => 7
  | 7, false => 4
  | 7, true => 8
  | 8, false => 1
  | 8, true => 2
  | 9, false => 10
  | 9, true => 0
  | 10, false => 11
  | 10, true => 12
  | 11, false => 11
  | 11, true => 12
  | 12, false => 13
  | 12, true => 15
  | 13, false => 13
  | 13, true => 14
  | 14, false => 11
  | 14, true => 15
  | _, false => 1
  | _, true => 2

/-- One bit shifted through a register: in at its end, out at its head. -/
def scanShift (l : List Bool) (b : Bool) : List Bool :=
  match l with
  | [] => []
  | _ :: r => r ++ [b]

/-- BOUNDARY_SCAN (R465): one clock of the port. -/
def execBoundaryScan (tms tdi : Bool) (s : State) : Out :=
  .next (
    let p := s.power
    let n := s.counter
    let (p, m) := match p.tap with
      | 0 => ({ p with ir := [] }, n)
      | 3 => ({ p with dr := Config.scanCapture false p.ir n }, n + 1)
      | 4 => ({ p with dr := scanShift p.dr tdi }, n)
      | 10 => ({ p with ir := Config.scanCapture true p.ir n }, n + 1)
      | 11 => ({ p with ir := scanShift p.ir tdi }, n)
      | _ => (p, n)
    { s with counter := m, power := { p with tap := tapNext p.tap tms } })

/-! ### Soft errors (R394) -/

/-- A bit of protected storage flips, or flips back. -/
def flipBit (s : State) (bit : Nat) (hard : Bool) : State :=
  if s.flips.any fun f => f.1 == bit then { s with flips := s.flips.filter fun f => f.1 != bit }
  else { s with flips := s.flips ++ [(bit, hard)] }

/-- A register's parity fails. -/
def markParity (s : State) (k : Nat) (w : Who) (file n : Nat) : State :=
  if s.parity.contains (k, w, file, n) then s else { s with parity := s.parity ++ [(k, w, file, n)] }

/-- Element `bit` of a plane row, with its checksum as it was. -/
def flipPlane (t : Tab PlaneRow) (row bit : Nat) : Tab PlaneRow :=
  t.map fun e => if e.1 = row then (e.1, { e.2 with bits := Nat.xor e.2.bits (2 ^ bit) }) else e

/-- SOFT_ERROR (R394): something flips of itself. Storage keeps its contents and the flip stands beside it until ECC
corrects or finds it; a value of the datapath changes. -/
def execSoftError (t : SoftTarget) (s : State) : Out :=
  .next (
    match t with
    | .storage k sp bit hard =>
      if k < 16 ∧ bit < 8 * spaceSize sp then flipBit s (8 * spaceKey k sp 0 + bit) hard else s
    | .program k bit hard => if k < 16 ∧ bit < 8 * 2 ^ 18 then flipBit s (8 * progKey k 0 + bit) hard else s
    | .accWord k row bit hard =>
      if k < 16 ∧ row < 256 ∧ bit < 32768 then flipBit s (8 * accKey k row 0 + bit) hard else s
    | .register k w r =>
      if k < 16 ∧ r.num < 32 ∧ (r.file = .v ∨ r.num ≠ 0) then markParity s k w (fileCode r.file) r.num else s
    | .branchReg k w n => if k < 16 ∧ n < 4 then markParity s k w 4 n else s
    | .shadow k n bit hard =>
      if k < 16 ∧ n < 2 ∧ bit < 8 * 0x180000 then flipBit s (8 * shadowKey k n + bit) hard else s
    | .snapshot k b => if k < 16 then markParity s k (whoCtx b) 5 0 else s
    | .latch k b => if k < 16 then markParity s k (whoCtx b) 6 0 else s
    | .accValue k row col x =>
      if row < 256 ∧ col < 1024 then
        modCore s k fun c => { c with acc := tabSet 0 c.acc row (accRow c row ^^^ (x.setWidth 32768 <<< (32 * col))) }
      else s
    | .planeBit k p row bit =>
      modCore s k fun c => if p then { c with plane1 := flipPlane c.plane1 row bit } else { c with plane0 := flipPlane c.plane0 row bit })

/-! ### ILLEGAL -/

/-- ILLEGAL (R84, R85): a slot word with no instruction traps at its slot, the word in KVAL (R393). -/
def execIllegal (slot : BitVec 3) (w : BitVec 32) (s : State) : Out :=
  .next (raise (modScr s fun q => { q with slot := slot.toNat }) 0x01 w.toNat)

end Sys2Proof.Machine
end

