-- ==== Sys2Proof/Machine/Dispatch.lean ====
section
/-!
DEFINITION. The meaning of every row of the opcode table, one arm each.
-/
namespace Sys2Proof.Machine

def exec (i : Instr) (s : State) : Host.Outcome State Fault Refusal :=
  match i with
  | .nop => Sys2Proof.Machine.execNop s
  | .pbr b o => Sys2Proof.Machine.execPbr b o s
  | .pbrx a e b n p => Sys2Proof.Machine.execPbrx a e b n p s
  | .br b n p => Sys2Proof.Machine.execBr b n p s
  | .call d b n p => Sys2Proof.Machine.execCall d b n p s
  | .loopImm v l t => Sys2Proof.Machine.execLoopImm v l t s
  | .loopReg v l a e => Sys2Proof.Machine.execLoopReg v l a e s
  | .loopKeep v l => Sys2Proof.Machine.execLoopKeep v l s
  | .loopsl v l h => Sys2Proof.Machine.execLoopsl v l h s
  | .lbrk v n p => Sys2Proof.Machine.execLbrk v n p s
  | .waitb d a e b f n p => Sys2Proof.Machine.execWaitb d a e b f n p s
  | .waitt a e o n p => Sys2Proof.Machine.execWaitt a e o n p s
  | .done n p => Sys2Proof.Machine.execDone n p s
  | .ckpt n p => Sys2Proof.Machine.execCkpt n p s
  | .fence k q m n p => Sys2Proof.Machine.execFence k q m n p s
  | .trap j n p => Sys2Proof.Machine.execTrap j n p s
  | .brk j n p => Sys2Proof.Machine.execBrk j n p s
  | .getid d n p => Sys2Proof.Machine.execGetid d n p s
  | .evpop d b n p => Sys2Proof.Machine.execEvpop d b n p s
  | .rdct d c n p => Sys2Proof.Machine.execRdct d c n p s
  | .rng d v n p => Sys2Proof.Machine.execRng d v n p s
  | .mfc d c n p => Sys2Proof.Machine.execMfc d c n p s
  | .mtc a e c n p => Sys2Proof.Machine.execMtc a e c n p s
  | .mtcKcpc a e n p => Sys2Proof.Machine.execMtcKcpc a e n p s
  | .tret n p => Sys2Proof.Machine.execTret n p s
  | .halt a e n p => Sys2Proof.Machine.execHalt a e n p s
  | .haltResume a e n p => Sys2Proof.Machine.execHaltResume a e n p s
  | .pstop a e n p => Sys2Proof.Machine.execPstop a e n p s
  | .pstopThaw a e n p => Sys2Proof.Machine.execPstopThaw a e n p s
  | .pdrain a e n p => Sys2Proof.Machine.execPdrain a e n p s
  | .csave a e b f n p => Sys2Proof.Machine.execCsave a e b f n p s
  | .cload a e b f n p => Sys2Proof.Machine.execCload a e b f n p s
  | .tlbiAsid a e b f n p => Sys2Proof.Machine.execTlbiAsid a e b f n p s
  | .tlbiPage a e b f n p => Sys2Proof.Machine.execTlbiPage a e b f n p s
  | .tlbiAll a e b f n p => Sys2Proof.Machine.execTlbiAll a e b f n p s
  | .sltw a e b f n p => Sys2Proof.Machine.execSltw a e b f n p s
  | .sltwCommit a e b f n p => Sys2Proof.Machine.execSltwCommit a e b f n p s
  | .lkey a e b f n p => Sys2Proof.Machine.execLkey a e b f n p s
  | .lksw a e n p => Sys2Proof.Machine.execLksw a e n p s
  | .retc a e n p => Sys2Proof.Machine.execRetc a e n p s
  | .retcCore a e n p => Sys2Proof.Machine.execRetcCore a e n p s
  | .jrsm a e n p => Sys2Proof.Machine.execJrsm a e n p s
  | .jkil a e n p => Sys2Proof.Machine.execJkil a e n p s
  | .add d a e b f p => Sys2Proof.Machine.execAdd d a e b f p s
  | .sub d a e b f p => Sys2Proof.Machine.execSub d a e b f p s
  | .and d a e b f p => Sys2Proof.Machine.execAnd d a e b f p s
  | .or d a e b f p => Sys2Proof.Machine.execOr d a e b f p s
  | .xor d a e b f p => Sys2Proof.Machine.execXor d a e b f p s
  | .andn d a e b f p => Sys2Proof.Machine.execAndn d a e b f p s
  | .sll d a e b f p => Sys2Proof.Machine.execSll d a e b f p s
  | .srl d a e b f p => Sys2Proof.Machine.execSrl d a e b f p s
  | .sra d a e b f p => Sys2Proof.Machine.execSra d a e b f p s
  | .rol d a e b f p => Sys2Proof.Machine.execRol d a e b f p s
  | .min d a e b f p => Sys2Proof.Machine.execMin d a e b f p s
  | .max d a e b f p => Sys2Proof.Machine.execMax d a e b f p s
  | .minu d a e b f p => Sys2Proof.Machine.execMinu d a e b f p s
  | .maxu d a e b f p => Sys2Proof.Machine.execMaxu d a e b f p s
  | .mul d a e b f p => Sys2Proof.Machine.execMul d a e b f p s
  | .mulh d a e b f p => Sys2Proof.Machine.execMulh d a e b f p s
  | .mulhu d a e b f p => Sys2Proof.Machine.execMulhu d a e b f p s
  | .div d a e b f p => Sys2Proof.Machine.execDiv d a e b f p s
  | .divu d a e b f p => Sys2Proof.Machine.execDivu d a e b f p s
  | .rem d a e b f p => Sys2Proof.Machine.execRem d a e b f p s
  | .remu d a e b f p => Sys2Proof.Machine.execRemu d a e b f p s
  | .clz d a e p => Sys2Proof.Machine.execClz d a e p s
  | .ctz d a e p => Sys2Proof.Machine.execCtz d a e p s
  | .popc d a e p => Sys2Proof.Machine.execPopc d a e p s
  | .brev d a e p => Sys2Proof.Machine.execBrev d a e p s
  | .extb d a e p => Sys2Proof.Machine.execExtb d a e p s
  | .exth d a e p => Sys2Proof.Machine.execExth d a e p s
  | .extw d a e p => Sys2Proof.Machine.execExtw d a e p s
  | .exbu d a e p => Sys2Proof.Machine.execExbu d a e p s
  | .exhu d a e p => Sys2Proof.Machine.execExhu d a e p s
  | .exwu d a e p => Sys2Proof.Machine.execExwu d a e p s
  | .addi d a e j p => Sys2Proof.Machine.execAddi d a e j p s
  | .andi d a e j p => Sys2Proof.Machine.execAndi d a e j p s
  | .ori d a e j p => Sys2Proof.Machine.execOri d a e j p s
  | .xori d a e j p => Sys2Proof.Machine.execXori d a e j p s
  | .slli d a e q p => Sys2Proof.Machine.execSlli d a e q p s
  | .srli d a e q p => Sys2Proof.Machine.execSrli d a e q p s
  | .srai d a e q p => Sys2Proof.Machine.execSrai d a e q p s
  | .muli d a e j p => Sys2Proof.Machine.execMuli d a e j p s
  | .lim d h j p => Sys2Proof.Machine.execLim d h j p s
  | .lik d h j p => Sys2Proof.Machine.execLik d h j p s
  | .cmp d c a e b f p => Sys2Proof.Machine.execCmp d c a e b f p s
  | .cmpi d c a e j p => Sys2Proof.Machine.execCmpi d c a e j p s
  | .sel d a e b f q p => Sys2Proof.Machine.execSel d a e b f q p s
  | .pand d a e b f p => Sys2Proof.Machine.execPand d a e b f p s
  | .por d a e b f p => Sys2Proof.Machine.execPor d a e b f p s
  | .pxor d a e b f p => Sys2Proof.Machine.execPxor d a e b f p s
  | .pnot d a e p => Sys2Proof.Machine.execPnot d a e p s
  | .dadd d a e b f r p => Sys2Proof.Machine.execDadd d a e b f r p s
  | .dsub d a e b f r p => Sys2Proof.Machine.execDsub d a e b f r p s
  | .dmul d a e b f r p => Sys2Proof.Machine.execDmul d a e b f r p s
  | .ddiv d a e b f r p => Sys2Proof.Machine.execDdiv d a e b f r p s
  | .dsqrt d a e r p => Sys2Proof.Machine.execDsqrt d a e r p s
  | .dmin d a e b f p => Sys2Proof.Machine.execDmin d a e b f p s
  | .dmax d a e b f p => Sys2Proof.Machine.execDmax d a e b f p s
  | .dabs d a e p => Sys2Proof.Machine.execDabs d a e p s
  | .dneg d a e p => Sys2Proof.Machine.execDneg d a e p s
  | .dfma d a e b f r p => Sys2Proof.Machine.execDfma d a e b f r p s
  | .dfms d a e b f r p => Sys2Proof.Machine.execDfms d a e b f r p s
  | .dnfma d a e b f r p => Sys2Proof.Machine.execDnfma d a e b f r p s
  | .dnfms d a e b f r p => Sys2Proof.Machine.execDnfms d a e b f r p s
  | .fadd d a e b f r p => Sys2Proof.Machine.execFadd d a e b f r p s
  | .fsub d a e b f r p => Sys2Proof.Machine.execFsub d a e b f r p s
  | .fmul d a e b f r p => Sys2Proof.Machine.execFmul d a e b f r p s
  | .fdiv d a e b f r p => Sys2Proof.Machine.execFdiv d a e b f r p s
  | .fsqrt d a e r p => Sys2Proof.Machine.execFsqrt d a e r p s
  | .fmin d a e b f p => Sys2Proof.Machine.execFmin d a e b f p s
  | .fmax d a e b f p => Sys2Proof.Machine.execFmax d a e b f p s
  | .ffma d a e b f r p => Sys2Proof.Machine.execFfma d a e b f r p s
  | .i2d d a e r p => Sys2Proof.Machine.execI2d d a e r p s
  | .u2d d a e r p => Sys2Proof.Machine.execU2d d a e r p s
  | .d2i d a e r p => Sys2Proof.Machine.execD2i d a e r p s
  | .d2u d a e r p => Sys2Proof.Machine.execD2u d a e r p s
  | .f2d d a e r p => Sys2Proof.Machine.execF2d d a e r p s
  | .d2f d a e r p => Sys2Proof.Machine.execD2f d a e r p s
  | .i2f d a e r p => Sys2Proof.Machine.execI2f d a e r p s
  | .f2i d a e r p => Sys2Proof.Machine.execF2i d a e r p s
  | .mfs d q p => Sys2Proof.Machine.execMfs d q p s
  | .mts a e q p => Sys2Proof.Machine.execMts a e q p s
  | .vadd d a e b f t m u => Sys2Proof.Machine.execVadd d a e b f t m u s
  | .vsub d a e b f t m u => Sys2Proof.Machine.execVsub d a e b f t m u s
  | .vmul d a e b f t m u => Sys2Proof.Machine.execVmul d a e b f t m u s
  | .vfma d a e b f t m u => Sys2Proof.Machine.execVfma d a e b f t m u s
  | .vfms d a e b f t m u => Sys2Proof.Machine.execVfms d a e b f t m u s
  | .vmin d a e b f t m u => Sys2Proof.Machine.execVmin d a e b f t m u s
  | .vmax d a e b f t m u => Sys2Proof.Machine.execVmax d a e b f t m u s
  | .vmaxm d a e b f t m u => Sys2Proof.Machine.execVmaxm d a e b f t m u s
  | .vabs d a e t m => Sys2Proof.Machine.execVabs d a e t m s
  | .vneg d a e t m => Sys2Proof.Machine.execVneg d a e t m s
  | .vcmpeq d a e b f t m u => Sys2Proof.Machine.execVcmpeq d a e b f t m u s
  | .vcmplt d a e b f t m u => Sys2Proof.Machine.execVcmplt d a e b f t m u s
  | .vcmple d a e b f t m u => Sys2Proof.Machine.execVcmple d a e b f t m u s
  | .vcmpun d a e b f t m u => Sys2Proof.Machine.execVcmpun d a e b f t m u s
  | .vcmpm d a e => Sys2Proof.Machine.execVcmpm d a e s
  | .vand d a e b f t m u => Sys2Proof.Machine.execVand d a e b f t m u s
  | .vor d a e b f t m u => Sys2Proof.Machine.execVor d a e b f t m u s
  | .vxor d a e b f t m u => Sys2Proof.Machine.execVxor d a e b f t m u s
  | .vshl d a e b f t m u => Sys2Proof.Machine.execVshl d a e b f t m u s
  | .vshr d a e b f t m u => Sys2Proof.Machine.execVshr d a e b f t m u s
  | .vsra d a e b f t m u => Sys2Proof.Machine.execVsra d a e b f t m u s
  | .vbld d a e b f t m u => Sys2Proof.Machine.execVbld d a e b f t m u s
  | .vbc d b f t m => Sys2Proof.Machine.execVbc d b f t m s
  | .vins d a e b f t m => Sys2Proof.Machine.execVins d a e b f t m s
  | .vext d a e b f t => Sys2Proof.Machine.execVext d a e b f t s
  | .vperm d a e b f t m => Sys2Proof.Machine.execVperm d a e b f t m s
  | .vrot d a e b f t m u => Sys2Proof.Machine.execVrot d a e b f t m u s
  | .vred d a e o t m => Sys2Proof.Machine.execVred d a e o t m s
  | .vscan d a e o t m => Sys2Proof.Machine.execVscan d a e o t m s
  | .vcvt d a e r c q t m => Sys2Proof.Machine.execVcvt d a e r c q t m s
  | .vqnt d a e b f t m => Sys2Proof.Machine.execVqnt d a e b f t m s
  | .vdqnt d a e b f t m => Sys2Proof.Machine.execVdqnt d a e b f t m s
  | .vhad d a e c q t m => Sys2Proof.Machine.execVhad d a e c q t m s
  | .vsmrg d a e t m => Sys2Proof.Machine.execVsmrg d a e t m s
  | .vsmup d a e b f t m => Sys2Proof.Machine.execVsmup d a e b f t m s
  | .vchc q o b f t h u => Sys2Proof.Machine.execVchc q o b f t h u s
  | .vch d a e t m => Sys2Proof.Machine.execVch d a e t m s
  | .mand d a e b f => Sys2Proof.Machine.execMand d a e b f s
  | .mor d a e b f => Sys2Proof.Machine.execMor d a e b f s
  | .mxor d a e b f => Sys2Proof.Machine.execMxor d a e b f s
  | .mnot d a e => Sys2Proof.Machine.execMnot d a e s
  | .mfx d a e => Sys2Proof.Machine.execMfx d a e s
  | .mtx d a e => Sys2Proof.Machine.execMtx d a e s
  | .mbitSet d a e j => Sys2Proof.Machine.execMbitSet d a e j s
  | .mbitClr d a e j => Sys2Proof.Machine.execMbitClr d a e j s
  | .mbitInv d a e j => Sys2Proof.Machine.execMbitInv d a e j s
  | .vexp2 d a e t m => Sys2Proof.Machine.execVexp2 d a e t m s
  | .vlog2 d a e t m => Sys2Proof.Machine.execVlog2 d a e t m s
  | .vrcp d a e t m => Sys2Proof.Machine.execVrcp d a e t m s
  | .vrsq d a e t m => Sys2Proof.Machine.execVrsq d a e t m s
  | .vsqrt d a e t m => Sys2Proof.Machine.execVsqrt d a e t m s
  | .vsincos d a e t m => Sys2Proof.Machine.execVsincos d a e t m s
  | .vtanh d a e t m => Sys2Proof.Machine.execVtanh d a e t m s
  | .mac r q o e p => Sys2Proof.Machine.execMac r q o e p s
  | .mwld k q p => Sys2Proof.Machine.execMwld k q p s
  | .mswp p => Sys2Proof.Machine.execMswp p s
  | .mdrn d r q m c p => Sys2Proof.Machine.execMdrn d r q m c p s
  | .mfmt a w p => Sys2Proof.Machine.execMfmt a w p s
  | .mchk p => Sys2Proof.Machine.execMchk p s
  | .mloc p => Sys2Proof.Machine.execMloc p s
  | .mfix p => Sys2Proof.Machine.execMfix p s
  | .mmpb a e p => Sys2Proof.Machine.execMmpb a e p s
  | .mclr r c p => Sys2Proof.Machine.execMclr r c p s
  | .vld d q p => Sys2Proof.Machine.execVld d q p s
  | .vst v q e p => Sys2Proof.Machine.execVst v q e p s
  | .vlda d a e q o p => Sys2Proof.Machine.execVlda d a e q o p s
  | .vsta v a e f q o p => Sys2Proof.Machine.execVsta v a e f q o p s
  | .lds d a e q z g o p => Sys2Proof.Machine.execLds d a e q z g o p s
  | .sts v a e f q z o p => Sys2Proof.Machine.execSts v a e f q z o p s
  | .acst r q a e p => Sys2Proof.Machine.execAcst r q a e p s
  | .acld r q a e p => Sys2Proof.Machine.execAcld r q a e p s
  | .stcfg q a e o p => Sys2Proof.Machine.execStcfg q a e o p s
  | .stget d q l p => Sys2Proof.Machine.execStget d q l p s
  | .stset v q e l p => Sys2Proof.Machine.execStset v q e l p s
  | .stadv q l p => Sys2Proof.Machine.execStadv q l p s
  | .rpop o p => Sys2Proof.Machine.execRpop o p s
  | .xrd d a e o p => Sys2Proof.Machine.execXrd d a e o p s
  | .cpy a e o p => Sys2Proof.Machine.execCpy a e o p s
  | .sca a e o p => Sys2Proof.Machine.execSca a e o p s
  | .tsend t a e b f o p => Sys2Proof.Machine.execTsend t a e b f o p s
  | .tktg d o p => Sys2Proof.Machine.execTktg d o p s
  | .fld a e o p => Sys2Proof.Machine.execFld a e o p s
  | .fst a e o p => Sys2Proof.Machine.execFst a e o p s
  | .fatm a e o p => Sys2Proof.Machine.execFatm a e o p s
  | .frep a e o p => Sys2Proof.Machine.execFrep a e o p s
  | .bara a e r p => Sys2Proof.Machine.execBara a e r p s
  | .bari a e b f p => Sys2Proof.Machine.execBari a e b f p s
  | .pfxlk a e o p => Sys2Proof.Machine.execPfxlk a e o p s
  | .pfxin a e o p => Sys2Proof.Machine.execPfxin a e o p s
  | .pfxref a e o p => Sys2Proof.Machine.execPfxref a e o p s
  | .pfxapp a e o p => Sys2Proof.Machine.execPfxapp a e o p s
  | .pfxev a e o p => Sys2Proof.Machine.execPfxev a e o p s
  | .kvmrg a e o p => Sys2Proof.Machine.execKvmrg a e o p s
  | .mark p => Sys2Proof.Machine.execMark p s
  | .jstat d a e p => Sys2Proof.Machine.execJstat d a e p s
  | .branchFetchComplete k w n => Sys2Proof.Machine.execBranchFetchComplete k w n s
  | .fixedResultDelivery k w => Sys2Proof.Machine.execFixedResultDelivery k w s
  | .longLatencyWriteback k w n => Sys2Proof.Machine.execLongLatencyWriteback k w n s
  | .checkpointCommit k c => Sys2Proof.Machine.execCheckpointCommit k c s
  | .withheldStorePerform k c => Sys2Proof.Machine.execWithheldStorePerform k c s
  | .rerunPairCompare k c => Sys2Proof.Machine.execRerunPairCompare k c s
  | .queueEntry k => Sys2Proof.Machine.execQueueEntry k s
  | .arbiterDecide k => Sys2Proof.Machine.execArbiterDecide k s
  | .candidateStarving k c => Sys2Proof.Machine.execCandidateStarving k c s
  | .preempt k => Sys2Proof.Machine.execPreempt k s
  | .budgetExpiry k => Sys2Proof.Machine.execBudgetExpiry k s
  | .handover k => Sys2Proof.Machine.execHandover k s
  | .gangFiringOpen n => Sys2Proof.Machine.execGangFiringOpen n s
  | .rngAnswer k c => Sys2Proof.Machine.execRngAnswer k c s
  | .tktgGrant k c g r => Sys2Proof.Machine.execTktgGrant k c g r s
  | .evpopRecordFill k c => Sys2Proof.Machine.execEvpopRecordFill k c s
  | .tokenFirstFlit => Sys2Proof.Machine.execTokenFirstFlit s
  | .tokenContinuationFlit => Sys2Proof.Machine.execTokenContinuationFlit s
  | .creditReturn m => Sys2Proof.Machine.execCreditReturn m s
  | .headAdvanceNotice m => Sys2Proof.Machine.execHeadAdvanceNotice m s
  | .cfgdoneAction k c => Sys2Proof.Machine.execCfgdoneAction k c s
  | .markerAction k c => Sys2Proof.Machine.execMarkerAction k c s
  | .drainAction k c => Sys2Proof.Machine.execDrainAction k c s
  | .sourceHardwareMark k c => Sys2Proof.Machine.execSourceHardwareMark k c s
  | .jobStart k j => Sys2Proof.Machine.execJobStart k j s
  | .jobComplete k j => Sys2Proof.Machine.execJobComplete k j s
  | .mwldBeatLand k => Sys2Proof.Machine.execMwldBeatLand k s
  | .caliperCompare k c => Sys2Proof.Machine.execCaliperCompare k c s
  | .pageWalk k j => Sys2Proof.Machine.execPageWalk k j s
  | .writeRequest => Sys2Proof.Machine.execWriteRequest s
  | .readRequest => Sys2Proof.Machine.execReadRequest s
  | .readReply => Sys2Proof.Machine.execReadReply s
  | .atomicRequest => Sys2Proof.Machine.execAtomicRequest s
  | .atomicReply => Sys2Proof.Machine.execAtomicReply s
  | .acknowledgement => Sys2Proof.Machine.execAcknowledgement s
  | .refusal => Sys2Proof.Machine.execRefusal s
  | .prefixRequest => Sys2Proof.Machine.execPrefixRequest s
  | .prefixReply => Sys2Proof.Machine.execPrefixReply s
  | .frameTransmit l => Sys2Proof.Machine.execFrameTransmit l s
  | .linkFrameReceive l f => Sys2Proof.Machine.execLinkFrameReceive l f s
  | .linkRetryTimeout l => Sys2Proof.Machine.execLinkRetryTimeout l s
  | .lossOfSignal l => Sys2Proof.Machine.execLossOfSignal l s
  | .escapeTimeout n => Sys2Proof.Machine.execEscapeTimeout n s
  | .e2eResendTimeout dchip lane seq => Sys2Proof.Machine.execE2eResendTimeout dchip lane seq s
  | .heldSlotRelease l row => Sys2Proof.Machine.execHeldSlotRelease l row s
  | .slotTableSwitch => Sys2Proof.Machine.execSlotTableSwitch s
  | .linkTraining peers => Sys2Proof.Machine.execLinkTraining peers s
  | .powerOn ga => Sys2Proof.Machine.execPowerOn ga s
  | .marginPlan k => Sys2Proof.Machine.execMarginPlan k s
  | .powerLimit watts => Sys2Proof.Machine.execPowerLimit watts s
  | .clockRestore watts => Sys2Proof.Machine.execClockRestore watts s
  | .thermalLimit t => Sys2Proof.Machine.execThermalLimit t s
  | .thermalShutdown => Sys2Proof.Machine.execThermalShutdown s
  | .plinthFrameReceive f => Sys2Proof.Machine.execPlinthFrameReceive f s
  | .plinthRetransmitTimeout ch => Sys2Proof.Machine.execPlinthRetransmitTimeout ch s
  | .plinthAckTimer ch => Sys2Proof.Machine.execPlinthAckTimer ch s
  | .config => Sys2Proof.Machine.execConfig s
  | .handle => Sys2Proof.Machine.execHandle s
  | .launchPrepare => Sys2Proof.Machine.execLaunchPrepare s
  | .prepareReport => Sys2Proof.Machine.execPrepareReport s
  | .launchApply => Sys2Proof.Machine.execLaunchApply s
  | .launchAbort => Sys2Proof.Machine.execLaunchAbort s
  | .readyReport => Sys2Proof.Machine.execReadyReport s
  | .vread => Sys2Proof.Machine.execVread s
  | .vwrite => Sys2Proof.Machine.execVwrite s
  | .inject => Sys2Proof.Machine.execInject s
  | .pagedata => Sys2Proof.Machine.execPagedata s
  | .result => Sys2Proof.Machine.execResult s
  | .bootBegin => Sys2Proof.Machine.execBootBegin s
  | .bootManifest => Sys2Proof.Machine.execBootManifest s
  | .bootData => Sys2Proof.Machine.execBootData s
  | .bootCfg => Sys2Proof.Machine.execBootCfg s
  | .bootEnd => Sys2Proof.Machine.execBootEnd s
  | .bootStatusReport => Sys2Proof.Machine.execBootStatusReport s
  | .mgmtCreatePartition => Sys2Proof.Machine.execMgmtCreatePartition s
  | .mgmtDestroyPartition => Sys2Proof.Machine.execMgmtDestroyPartition s
  | .mgmtOpenChannel => Sys2Proof.Machine.execMgmtOpenChannel s
  | .mgmtCloseChannel => Sys2Proof.Machine.execMgmtCloseChannel s
  | .mgmtRestartCurator => Sys2Proof.Machine.execMgmtRestartCurator s
  | .mgmtRetireCore => Sys2Proof.Machine.execMgmtRetireCore s
  | .mgmtInstallStorageKey => Sys2Proof.Machine.execMgmtInstallStorageKey s
  | .mgmtAbortSegment => Sys2Proof.Machine.execMgmtAbortSegment s
  | .mgmtRollBackRegion => Sys2Proof.Machine.execMgmtRollBackRegion s
  | .mgmtReplacePackage => Sys2Proof.Machine.execMgmtReplacePackage s
  | .mgmtWriteRouting => Sys2Proof.Machine.execMgmtWriteRouting s
  | .mgmtReadTelemetry => Sys2Proof.Machine.execMgmtReadTelemetry s
  | .mgmtAbandonRegion => Sys2Proof.Machine.execMgmtAbandonRegion s
  | .spdmVersion => Sys2Proof.Machine.execSpdmVersion s
  | .spdmCapabilities => Sys2Proof.Machine.execSpdmCapabilities s
  | .spdmAlgorithms => Sys2Proof.Machine.execSpdmAlgorithms s
  | .spdmDigests => Sys2Proof.Machine.execSpdmDigests s
  | .spdmCertificate => Sys2Proof.Machine.execSpdmCertificate s
  | .spdmChallenge => Sys2Proof.Machine.execSpdmChallenge s
  | .spdmMeasurements => Sys2Proof.Machine.execSpdmMeasurements s
  | .spdmKeyExchange => Sys2Proof.Machine.execSpdmKeyExchange s
  | .spdmFinish => Sys2Proof.Machine.execSpdmFinish s
  | .spdmKeyUpdate => Sys2Proof.Machine.execSpdmKeyUpdate s
  | .spdmEndSession => Sys2Proof.Machine.execSpdmEndSession s
  | .hangPoll part region others => Sys2Proof.Machine.execHangPoll part region others s
  | .stopWavePackage => Sys2Proof.Machine.execStopWavePackage s
  | .stopReport => Sys2Proof.Machine.execStopReport s
  | .drainPoll part region others => Sys2Proof.Machine.execDrainPoll part region others s
  | .regionError => Sys2Proof.Machine.execRegionError s
  | .regionRollback => Sys2Proof.Machine.execRegionRollback s
  | .markerWaveStart part region => Sys2Proof.Machine.execMarkerWaveStart part region s
  | .sinkWaveReport => Sys2Proof.Machine.execSinkWaveReport s
  | .waveCompletionBroadcast => Sys2Proof.Machine.execWaveCompletionBroadcast s
  | .linkDownReport => Sys2Proof.Machine.execLinkDownReport s
  | .illegal slot w => Sys2Proof.Machine.execIllegal slot w s
  | .softError t => Sys2Proof.Machine.execSoftError t s
  | .mmpbLoadDone k c => Sys2Proof.Machine.execMmpbLoadDone k c s
  | .arrayInterlockExpiry k c row => Sys2Proof.Machine.execArrayInterlockExpiry k c row s
  | .arp ip => Sys2Proof.Machine.execArp ip s
  | .neighbourDiscovery ip => Sys2Proof.Machine.execNeighbourDiscovery ip s
  | .boundaryScan tms tdi => Sys2Proof.Machine.execBoundaryScan tms tdi s
  | .powerLoss => Sys2Proof.Machine.execPowerLoss s

end Sys2Proof.Machine
end

