-- ==== Sys2Proof/Machine/Tidy.lean ====
section
/-!
DEFINITION. Work of firmware and endpoints that is no row of the opcode table: control messages as region-control flits
(19 R420, 20 R453), boot flits (20 R454), framing (20 R445), and what becomes due at a package (log entry 3).
-/
namespace Sys2Proof.Config

/-- The payloads of the region-control flits that carry a control message (log entry 8). -/
opaque ctlPieces : Sys2Proof.Machine.CtlMsg → List (List Sys2Proof.Byte)

/-- The control message that payloads make, once they are whole (log entry 8). -/
opaque readCtl : List (List Sys2Proof.Byte) → Option Sys2Proof.Machine.CtlMsg

end Sys2Proof.Config

namespace Sys2Proof.Machine

/-! ### Region-control and boot flits -/

/-- The flits of a control message: type 0x14, partition 0, class 1, on the firmware's stream. -/
def ctlFlits (s : State) (chip : Nat) (m : CtlMsg) : List Flit :=
  (Config.ctlPieces m).map fun bs =>
    { dchip := chip, schip := s.chip, partition := 0, cls := 1, kslot := 0, type := 0x14, length := (bs.take 224).length,
      seq := 0, route := 0, payload := bs.take 224 }

/-- The loss of the control message matters to its sender (R447, R460). -/
def keepsTrack : CtlMsg → Bool
  | .host _ => true
  | .replace _ _ _ _ _ => true
  | _ => false

/-- Send the oldest control message for another package. -/
def sendControl (s : State) : State :=
  match s.ctlOut with
  | [] => s
  | (chip, m) :: rest =>
    let s := { s with ctlOut := rest }
    let fs := ctlFlits s chip m
    if keepsTrack m then
      let id := s.counter
      let t := { s with ctlSent := s.ctlSent ++ [(id, m)], counter := id + 1 }
      fs.foldl (fun s f => sendFlit s 0 ⟨0, f, .firm id, 0, 0, 0, 0⟩) t
    else fs.foldl (fun s f => sendFlit s 0 ⟨0, f, .none, 0, 0, 0, 0⟩) s

/-- A control flit in order: its message, once whole, is there to take. -/
def joinControl (s : State) (f : Flit) : State :=
  let old := ((s.ctlFrags.find? fun e => e.1 == f.schip).map (·.2)).getD []
  let rest := s.ctlFrags.filter fun e => e.1 != f.schip
  let bs := old ++ [f.payload]
  match Config.readCtl bs with
  | some m => { s with ctlFrags := rest, ctlIn := s.ctlIn ++ [(f.schip, m)] }
  | none => { s with ctlFrags := rest ++ [(f.schip, bs)] }

/-- A boot flit in order: its packet, once whole, is there to take. -/
def joinBoot (s : State) (f : Flit) : State :=
  let old := ((s.bootFrags.find? fun e => e.1 == f.schip).map (·.2)).getD []
  let rest := s.bootFrags.filter fun e => e.1 != f.schip
  let bs := old ++ f.payload
  let p : BootPacket := ⟨BitVec.ofNat 512 (leNat (bs.take 64)), bs.drop 64⟩
  if 64 ≤ bs.length ∧ bLength p ≤ p.payload.length then { s with bootFrags := rest, bootIn := s.bootIn ++ [(f.schip, p)] }
  else { s with bootFrags := rest ++ [(f.schip, bs)] }

/-- Take an arrived flit of firmware, type 0x14 or 0x15, in the order of its stream (R432). -/
def takeFirmFlit (s : State) (type : Nat) (join : State → Flit → State) : State :=
  match takeFlit s [type] with
  | none => s
  | some (f, s) =>
    let r := findRx s f.schip (flitLane f)
    match rxAct r f.seq with
    | .hold => putRx s { r with held := if r.held.any fun g => g.seq == f.seq then r.held else r.held ++ [f] }
    | .again _ _ _ => ackFlit s f
    | .drop => discardFlit s f
    | .perform => rxNext (join (ackFlit (rxDone s f 8 0 []) f) f) f.schip (flitLane f)

/-! ### What is due -/

/-- The places of the elements that `p` admits. -/
def placesOf {α : Type} (p : α → Bool) (l : List α) : List Nat := (l.zipIdx.filter fun e => p e.1).map (·.2)

/-- A port's replay entry, or an owed control token, may enter its ring. -/
def replayDue (r : Region) (i : Ingress) : Bool :=
  i.credits != 0 && !r.gone && ((r.replay.any fun e => e.port == i.port && e.due) || !i.owed.isEmpty)

/-- A region that is abandoned may go. -/
def mayGo (s : State) (r : Region) : Bool :=
  r.gone && (regionCtxs s r.part r.num).all fun e => retireReady s e.1 e.2

/-- A drain's records of this package have been written and its report has not been made (R414). -/
def drainDue (s : State) (r : Region) : Bool := r.phase == .draining && !r.said && !regionFlits s r

/-- A channel has a frame that may go. -/
def frameDue (c : Channel) : Bool := decide (c.unacked.length < 128) && c.queue.any (maySend c)

/-- A message for the host has somewhere to go. -/
def outDue (s : State) (o : HostOut) : Bool := o.channel != 0 || (findChannel s 0).isSome

/-- The packet that comes next is of no kind of R454. -/
def strangeBoot (s : State) : Bool :=
  match nextBoot s with
  | some (_, _, p, _) => bKind p == 0 || decide (5 < bKind p)
  | none => false

/-- A boot packet of no kind is dropped; the host hears of it. -/
def dropBoot (s : State) : State :=
  match nextBoot s with
  | some (_, asker, p, t) =>
    if bKind p = 0 ∨ 5 < bKind p then
      (match asker with
        | some q => errorHost t q 0x01 0
        | none => t)
    else s
  | none => s

/-- A stream has a flit waiting for room, which has a way. -/
def pumpDue (s : State) (t : TxStream) : Bool :=
  decide (t.opens.length < 1024) && match t.queue with
    | o :: _ => o.flit.cls != 1 || routable s o.flit
    | [] => false

/-- A stream holds a request that its source router cannot send (R433). -/
def unsentDue (s : State) (t : TxStream) : Bool := (unsentFlit t).isSome || (blockedHead s t).isSome

/-- The message has no event of its own and can be acted on now: a ticket that a TKTG awaits, a request for a ticket of a
ring that has one (R17). Others do not wait behind it. -/
def ctlReady (s : State) (m : CtlMsg) : Bool :=
  !hasEvent m && match m with
    | .ticket p _ => ticketDue s p
    | .ticketAsk ring q => (nextTicket s ring q).isSome
    | _ => true

/-- Output `o` of this package has circuit flits alone to take, and none of this slot: the slot passes (R423). -/
def slotDue (s : State) (o : Nat) : Bool :=
  (localPick s o (mayDeliver s)).isNone && s.router.arrived.any fun w =>
    w.flit.cls == 0 && flitOut w.flit == o && mayDeliver s w.flit
      && (List.range 256).any fun n => slotInput s o n == some w.inp

/-- A host access whose walk may begin now (R381). -/
def accDue (s : State) (a : HostAcc) : Bool :=
  !a.wait && match a.walk with
    | some w => mayWalk s (asidOf s a.part) w
    | none => false

/-- A flit of the type is what its output takes next. -/
def firmDue (s : State) (type : Nat) : Bool :=
  s.router.arrived.any fun w => w.flit.type == type && localPick s (flitOut w.flit) (mayDeliver s) == some w

/-- All the work that is due. Assignments of addresses (R443) and drains of a region's sources (R20) are due when management
or firmware calls for them, and the path monitors read when they do, which the agenda says (log entries 92, 115, 118). -/
def works (s : State) : List Work :=
  ((placesOf (fun e : Nat × CtlMsg => ctlReady s e.2) s.ctlIn).take 1).map .control
  ++ (s.regions.filter (mayGo s)).map (fun r => .abandon r.part r.num)
  ++ (s.regions.filter (drainDue s)).map (fun r => .drained r.part r.num)
  ++ s.regions.flatMap (fun r => (r.ingress.filter (replayDue r)).map fun i => .replay r.part r.num i.port)
  ++ (if endsDue s then [.ends] else [])
  ++ ((placesOf (outDue s) s.hostOut).take 1).map .toHost
  ++ (s.channels.filter frameDue).map (fun c => .frame c.num)
  ++ (if s.ctlOut.isEmpty then [] else [.sendControl])
  ++ (if firmDue s 0x14 then [.controlFlit] else [])
  ++ (if firmDue s 0x15 then [.bootFlit] else [])
  ++ (s.router.tx.filter (pumpDue s)).map (fun t => .pump t.dchip t.lane)
  ++ (s.router.tx.filter (unsentDue s)).map (fun t => .unsent t.dchip t.lane)
  ++ (((List.range 18).map (128 + ·)).filter (slotDue s)).map .localSlot
  ++ (s.engines.filter fun g => (dueCow g).isSome).map (fun g => .cowDue g.part)
  ++ (s.accs.filter (accDue s)).map (fun a => .access a.id)
  ++ (if strangeBoot s then [.badBoot] else [])

/-- Do a piece of work; what is not due stays. -/
def doWork (w : Work) (s : State) : State :=
  match w with
  | .control n =>
    match s.ctlIn[n]? with
    | some (from_, m) => if ctlReady s m = false then s else takeControl { s with ctlIn := s.ctlIn.eraseIdx n } from_ m
    | none => s
  | .abandon part num =>
    match findRegion s part num with
    | some r => if mayGo s r then abandonEnds s r else s
    | none => s
  | .drained part num =>
    match findRegion s part num with
    | some r => reportDrained s r
    | none => s
  | .replay part num port =>
    match findRegion s part num with
    | some r => match r.ingress.find? fun i => i.port == port with
      | some i => if replayDue r i then pumpReplay s part num i else s
      | none => s
    | none => s
  | .ends => settleEnds s
  | .toHost n =>
    match s.hostOut[n]? with
    | some o => queueOut { s with hostOut := s.hostOut.eraseIdx n } o
    | none => s
  | .frame ch => sendPlinth s ch
  | .sendControl => sendControl s
  | .controlFlit => takeFirmFlit s 0x14 joinControl
  | .bootFlit => takeFirmFlit s 0x15 joinBoot
  | .pump d l => pumpStream s d l
  | .unsent d l => dropUnsent s d l
  | .localSlot o => if slotDue s o then passSlot s o else s
  | .monitor k => if k < 16 then readMonitor s k else s
  | .cowDue p => sendDue s p
  | .access id => goAcc id s
  | .drains part num => injectDrains s part num
  | .assign4 ip => if s.spdm.phase = 5 ∧ s.ips.contains ip = false then { s with ips := s.ips ++ [ip] } else s
  | .assign6 ip => if s.spdm.phase = 5 ∧ s.ip6s.contains ip = false then { s with ip6s := s.ip6s ++ [ip] } else s
  | .badBoot => dropBoot s

end Sys2Proof.Machine
end

