-- ==== Sys2Proof/Machine/Sequence.lean ====
section
/-!
DEFINITION. What the package may do next of itself (01 R27: which of several enabled actions comes first is open), and
the placing of a slot word where the next step fetches it.
-/
namespace Sys2Proof.Machine

/-! ### Actions of a register set and of a context -/

/-- The place of the first element that `p` admits. -/
def firstIdx {α : Type} (p : α → Bool) (l : List α) : Option Nat := l.findIdx? p

/-- Results that may arrive: fetches of bt registers and the oldest producer that answers by itself. -/
def regActions (c : Core) (k : Nat) (w : Who) (runs : Bool) : List Action :=
  let r := getRegs c w
  (if runs then ((List.range 4).filter fun n => !(r.bt.getD n .reset).fetched).map fun n =>
      .event (.branchFetchComplete k w n)
    else [])
  ++ (match firstIdx selfDone (getProd c w) with
    | some n => [.event (.longLatencyWriteback k w n)]
    | none => [])

/-- An answer that the context awaits and that may come now. -/
def answerActions (s : State) (k : Nat) (b : Bool) : List Action :=
  let x := ctxAt s k b
  if !posed x then [] else
  x.producers.flatMap fun p => match p with
    | .rng _ _ => if cellFrozen s k x then [] else [.event (.rngAnswer k b)]
    | .tktg _ _ _ => if (answerTktg s k b none).isSome then [.event (.tktgGrant k b none none)] else []
    | .evpop _ _ => if x.evHead + x.evPopped < x.evTail then [.event (.evpopRecordFill k b)] else []
    | _ => []

/-- Actions of the array on behalf of a context. -/
def arrayActions (s : State) (k : Nat) (b : Bool) : List Action :=
  let x := ctxAt s k b
  (if x.mmpbBusy then [.event (.mmpbLoadDone k b)] else [])
  ++ (match x.macBusy with
    | r :: _ => [.event (.arrayInterlockExpiry k b (some r))]
    | [] => [])
  ++ (if x.bf16Busy then [.event (.arrayInterlockExpiry k b none)] else [])
  ++ (if x.mchk.isSome && !x.mmpbBusy && x.macBusy.isEmpty && !arrayOpen x then [.event (.caliperCompare k b)] else [])

/-- Control tokens that a context may act on, and the wave that a source owes. -/
def controlActions (s : State) (k : Nat) (b : Bool) : List Action :=
  let x := ctxAt s k b
  if x.stopped.isSome then []
  else
    let ms := membersOf s k b
    let forward : Bool := ms.all fun e => canForward (ctxAt s e.1 e.2) false
    let mayMark : Bool := match x.ctlBusy with
      | none => quietStage s ms
      | some 1 => ms.all fun e => settled s e.1 e.2
      | some 2 => forward && ms.all fun e => !mirroring s e.1 e.2
      | some _ => false
    (match atHeads s ms 4 with
      | some _ => if forward && ms.all (fun e => (ctxAt s e.1 e.2).status == .configured && cowsBound (ctxAt s e.1 e.2)) then
          [.event (.cfgdoneAction k b)] else []
      | none => [])
    ++ (match atHeads s ms 2 with
      | some _ => if mayMark then [.event (.markerAction k b)] else []
      | none => [])
    ++ (match drainAt s k b ms with
      | some _ => if forward && quietStage s ms && ms.all (fun e => settled s e.1 e.2) then [.event (.drainAction k b)] else []
      | none => [])
    ++ (if hardwareMarks s k b ms && mayMark then [.event (.sourceHardwareMark k b)] else [])

/-- Actions of one resident context. -/
def ctxActions (s : State) (k : Nat) (b : Bool) : List Action :=
  let c := getCore s k
  let x := getCtx c b
  if x.status == .empty then []
  else
    regActions c k (whoCtx b) (c.running == some b && !c.curator)
    ++ answerActions s k b
    ++ arrayActions s k b
    ++ (if commitDue s k b then [.event (.checkpointCommit k b)] else [])
    ++ (if mayCommit s k b && x.rerun != .none then [.event (.rerunPairCompare k b)] else [])
    ++ (match x.relq with
      | r :: _ => if mayPerform s k b r then [.event (.withheldStorePerform k b)] else []
      | [] => [])
    ++ controlActions s k b
    ++ (if isGang x && x.status == .armed && !x.firing && triggerHolds s k b
        && (membersOf s k b).head? == some (k, b) then [.event (.gangFiringOpen (2 * k + b01 b))] else [])

/-- Actions of a core: its due boundary action, its arbiter, its next bundle. -/
def coreActions (s : State) (k : Nat) : List Action :=
  let c := getCore s k
  (if c.curator then regActions c k .cur true else [])
  ++ (match dueAt s k with
    | some i => [.event i]
    | none =>
      if idleCore c && (choose s k).isSome then [.event (.arbiterDecide k)] else [])
  ++ (if c.mwld.isSome then [.event (.mwldBeatLand k)] else [])
  ++ (if mayIssue s k then [.issue k] else [])

/-! ### Actions of jobs -/

/-- A job starts, its walk goes on, or it completes. -/
def jobActions (s : State) (k : Nat) : List Action :=
  (getCore s k).jobs.flatMap fun j =>
    match j.state with
    | .queued => if mayStart s k j then [.event (.jobStart k j.id)] else []
    | .running => (match j.walk with
        | some w => if mayWalk s j.asid w then [.event (.pageWalk k j.id)] else []
        | none => [])
    | .finished => [.event (.jobComplete k j.id)]
    | .posting => if jobRoom (getCore s k) j then [.event (.jobComplete k j.id)] else []
    | .suspended => []

/-! ### Actions of the router and of the endpoints -/

/-- The event that takes an arrived flit. -/
def flitEvent (s : State) (f : Flit) : Option Instr :=
  match f.type with
  | 0x01 => if notApplied s f then none else some .tokenFirstFlit
  | 0x02 => if notApplied s f then none else some .tokenContinuationFlit
  | 0x03 => some .writeRequest
  | 0x04 => some .readRequest
  | 0x05 => some .readReply
  | 0x06 => some .atomicRequest
  | 0x07 => some .atomicReply
  | 0x08 => some .acknowledgement
  | 0x09 => some .refusal
  | 0x0A => some .prefixRequest
  | 0x0B => some .prefixReply
  | _ => none

/-- Link `l` has something to send in its next slot, or a circuit flit waits for a later slot of it. -/
def frameReady (s : State) (l : Nat) : Bool :=
  let k := getLink s l
  k.up && (!k.again.isEmpty || k.owed || k.nack || k.ret != (0, 0, 0) || (newFlit s l).isSome
    || s.router.waiting.any fun w => w.flit.cls == 0 && mayLeave s l w.flit)

def routerActions (s : State) : List Action :=
  ((List.range 18).filterMap fun n => (localPick s (128 + n) (mayDeliver s)).bind fun w => (flitEvent s w.flit).map .event)
  ++ (upLinks s).filterMap fun l => if frameReady s l then some (.event (.frameTransmit l)) else none

/-- An apply may go on, or has suspended jobs to end first. -/
def applyDue (s : State) (h : BitVec 128) : Bool :=
  match (findLaunch s h).bind fun l => l.part with
  | none => true
  | some p => mayApply s p || (targets p).any fun e => (getCore s e.1).jobs.any fun j =>
      ownJob e.2 j && j.state == .suspended

/-- The event that takes a control message. -/
def ctlEvent (s : State) : CtlMsg → Option Instr
  | .prepare _ _ => some .launchPrepare
  | .report _ _ _ => some .prepareReport
  | .apply h => if applyDue s h then some .launchApply else none
  | .abort h => if preparing s h then none else some .launchAbort
  | .sinkReady part num _ => if launching s part num then none else some .readyReport
  | .stop _ _ _ => some .stopWavePackage
  | .stopped _ _ _ => some .stopReport
  | .sinkWave _ _ _ _ => some .sinkWaveReport
  | .waveDone _ _ _ => some .waveCompletionBroadcast
  | .error _ _ _ _ _ => some .regionError
  | .rollback _ _ _ => some .regionRollback
  | .linkDown _ _ => some .linkDownReport
  | .bootStatus _ _ => some .bootStatusReport
  | _ => none

/-- A stopping region has a context that may be taken now. -/
def takeDue (s : State) (r : Region) : Bool :=
  r.phase == .stopping && (regionCtxs s r.part r.num).any fun e =>
    let x := ctxAt s e.1 e.2
    x.stopped.isNone && mayTake x

def regionActions (s : State) : List Action :=
  s.ctlIn.filterMap (fun e => (ctlEvent s e.2).map .event)
  ++ (if s.regions.any (takeDue s) then [.event .stopWavePackage] else [])
  ++ (if s.regions.any (reportDue s) then [.event .stopReport] else [])

/-- The event that takes a boot packet of a kind. -/
def bootEvent (kind : Nat) : Option Instr :=
  match kind with
  | 1 => some .bootBegin
  | 2 => some .bootData
  | 3 => some .bootCfg
  | 4 => some .bootEnd
  | 5 => some .bootManifest
  | _ => none

/-- The event that takes a management request. -/
def mgmtEvent (s : State) (m : HostMsg) : Mgmt → Option Instr
  | .createPartition _ => some .mgmtCreatePartition
  | .destroyPartition _ => some .mgmtDestroyPartition
  | .openChannel _ _ => some .mgmtOpenChannel
  | .closeChannel _ _ => some .mgmtCloseChannel
  | .restartCurator _ => some .mgmtRestartCurator
  | .retireCore k =>
    if m.chip != s.chip || (getCore s k).withdrawn || coreReady s k
        || (getCore s k).jobs.any (fun j => j.state == .suspended) then some .mgmtRetireCore else none
  | .installStorageKey _ _ => some .mgmtInstallStorageKey
  | .abortSegment _ _ => some .mgmtAbortSegment
  | .rollBackRegion _ _ => some .mgmtRollBackRegion
  | .replacePackage _ _ _ _ => some .mgmtReplacePackage
  | .writeRouting _ => some .mgmtWriteRouting
  | .readTelemetry _ => some .mgmtReadTelemetry
  | .abandonRegion _ _ => some .mgmtAbandonRegion

/-- The event that takes an SPDM request. -/
def spdmEvent : SpdmReq → Instr
  | .version => .spdmVersion
  | .capabilities => .spdmCapabilities
  | .algorithms => .spdmAlgorithms
  | .digests => .spdmDigests
  | .certificate => .spdmCertificate
  | .challenge _ => .spdmChallenge
  | .measurements _ _ => .spdmMeasurements
  | .keyExchange _ => .spdmKeyExchange
  | .finish _ => .spdmFinish
  | .keyUpdate => .spdmKeyUpdate
  | .endSession => .spdmEndSession

/-- The event that takes a message of the host. -/
def hostEvent (s : State) (m : HostMsg) : Option Instr :=
  match m.req with
  | .config _ _ _ _ => some .config
  | .handle _ _ => some .handle
  | .vread _ _ => some .vread
  | .vwrite _ _ => some .vwrite
  | .inject _ _ _ _ _ => some .inject
  | .pagedata _ => some .pagedata
  | .result _ => some .result
  | .boot p => if s.bootIn.isEmpty then bootEvent (bKind p) else none
  | .mgmt q => mgmtEvent s m q
  | .spdm q => some (spdmEvent q)

def hostActions (s : State) : List Action :=
  (match s.bootIn with
    | (_, p) :: _ => ((bootEvent (bKind p)).map Action.event).toList
    | [] => [])
  ++ (s.hostIn.filter (mayAct s)).filterMap (fun m => (hostEvent s m).map .event)

/-- Every action that is enabled. -/
def enabled (s : State) : List Action :=
  (List.range 16).flatMap (fun k => coreActions s k ++ ctxActions s k false ++ ctxActions s k true ++ jobActions s k)
  ++ (if (owingPort s fun i => i.owed != 0).isSome then [.event (.creditReturn none)] else [])
  ++ (if (owingPort s fun i => i.notice).isSome then [.event (.headAdvanceNotice none)] else [])
  ++ (if s.router.commit.isEmpty then [] else [.event .slotTableSwitch])
  ++ (if s.engines.any mayServe then [.event .prefixRequest] else [])
  ++ routerActions s ++ regionActions s ++ hostActions s ++ (works s).map .tidy

/-- The action that happens next: the head of the agenda, else the one enabled action, else a free choice among
several. -/
def nextAction (s : State) : Option Action × State :=
  match s.agenda with
  | a :: l => (some a, { s with agenda := l })
  | [] =>
    match enabled s with
    | [] => (none, s)
    | [a] => (some a, s)
    | l =>
      let (n, s) := freshPick s
      (l[n % l.length]?, s)

/-! ### Placing a word -/

/-- A bundle with one slot word and NOPs beside it. -/
def oneSlot (n w : Nat) : BitVec 256 := BitVec.ofNat 256 (w % 2 ^ 32 * 2 ^ (32 * n))

/-- The slot that a word of the opcode table belongs to; the control slot for a word that no slot decodes. -/
def wordSlot (w : Nat) : Nat := ((tableSlot w).map (·.1)).getD 0

/-- The word is one of the curator majors, 0x30 to 0x3E of the control slot (R84). -/
def curatorWord (w : Nat) : Bool := wordSlot w == 0 && decide (0x30 ≤ w / 2 ^ 26) && decide (w / 2 ^ 26 ≤ 0x3E)

/-- Core 0 about to issue bundle 0 of its program store: of context A, or of the curator. -/
def readyCore (c : Core) (cur : Bool) : Core :=
  if cur then { c with curator := true, kvec := 8192 * 2 ^ 16 - 2 ^ 16, cur := { c.cur with next := .at 0 } }
  else
    let x := c.ctxA
    { c with curator := false, running := some false,
             ctxA := { x with status := .running, stopped := none, cfg := { x.cfg with first := 0, size := 8192 },
                              boundary := none, mchk := none, live := { x.live with next := .at 0 } } }

/-- The state with a slot word as the next bundle of core 0. -/
def placeWord (s : State) (w : Nat) : State :=
  let s := modCore s 0 fun c =>
    let c := readyCore c (curatorWord w)
    { c with halted := false, faulted := false, withdrawn := false,
             prog := tabSet noBundle c.prog 0 (oneSlot (wordSlot w) w) }
  { s with agenda := [.issue 0], halted := false }

end Sys2Proof.Machine
end

