-- ==== Sys2Proof/Machine/Step.lean ====
section
/-!
DEFINITION. One step of the package: the next action, which is an event of the opcode table, the issue of one bundle, or
work of firmware.
-/
namespace Sys2Proof.Machine

/-- Perform an action. -/
def act (a : Action) (s : State) : Host.Outcome State Fault Refusal :=
  match a with
  | .event i => exec i s
  | .issue k => .next (issueCore exec k s)
  | .tidy w => .next (doWork w s)

/-- What a package that has halted above its limit temperature still does: it may lose its power (R467). -/
def afterHalt (a : Option Action) : Bool := a == some (.event .powerLoss)

/-- One step. With nothing enabled the state stays as it is. -/
def step (s : State) : Host.Outcome State Fault Refusal :=
  if s.halted && !afterHalt s.agenda.head? then .fault .thermalHalt
  else
    match nextAction s with
    | (none, t) => .next t
    | (some a, t) => act a t

/-- The state in which the next step issues a bundle that holds the slot word `w` (log entry 7). -/
def State.withFetchWord (s : State) (nbits w : Nat) : State := if nbits = 32 then placeWord s w else s

end Sys2Proof.Machine
end

