-- ==== Sys2Proof/Safety.lean ====
section
/-!
DEFINITION. The terms that the statements use: when a slot instruction acts, what a step leaves unchanged, the tables of
results that the spec gives the arithmetic instructions, and the invariant of memory.
-/
namespace Sys2Proof.Machine

/-- The canonical form of memory: addresses rise, and no entry equals what an unlisted address reads as. -/
def Memory.wf (m : Tab Byte) : Bool := tabWf memDefault m

/-- Every gate of a slot instruction is open (R84, R86, R88, R89, R119, R124): its fields are legal, the mode may run it,
its guard is full and true, and its sources and destinations are full. -/
def Ready (s : State) (i : Instr) : Prop := slotGate s i = .go

/-- A control instruction may act here: no delay bundle (R93) and no last bundle of an active body (R96) forbids it. -/
def CtlReady (s : State) (i : Instr) : Prop := Ready s i ∧ ctlForbidden s i true true = none

/-- Every byte of memory reads as before. -/
def SameMem (s t : State) : Prop := ∀ a, memByte t a = memByte s a

/-- A row of the table with a word: an instruction that a slot may hold. -/
def isSlot (i : Instr) : Bool := (encode i).isSome

/-- The flags of a bundle, not enabled as traps: they are ORed into fst at its end (R51, R176). -/
def noteFlags (s : State) (fl : Flg) : State := modScr s fun q => { q with flags := q.flags ||| fl }

/-- Several results of one latency. -/
def sendMany (s : State) (lat : Nat) (ws : List (RegName × Nat)) : State := ws.foldl (fun s e => sendReg s lat e.1 e.2) s

/-! ### Integer results of the scalar slots -/

/-- An x operand as an unsigned number. -/
def ux (s : State) (n : BitVec 5) : Nat := (rx s n).toNat

/-- An x operand as a two's complement number. -/
def sx (s : State) (n : BitVec 5) : Int := (rx s n).toInt

/-- The result of an integer instruction of latency 1 or 3: latency, destination, value below 2^64 (R160, R161, R163 to
R165, R168, R171). -/
def intResult (s : State) : Instr → Option (Nat × BitVec 5 × Nat)
  | .add d a _ b _ _ => some (1, d, (ux s a + ux s b) % 2 ^ 64)
  | .sub d a _ b _ _ => some (1, d, (ux s a + (2 ^ 64 - ux s b)) % 2 ^ 64)
  | .and d a _ b _ _ => some (1, d, Nat.land (ux s a) (ux s b))
  | .or d a _ b _ _ => some (1, d, Nat.lor (ux s a) (ux s b))
  | .xor d a _ b _ _ => some (1, d, Nat.xor (ux s a) (ux s b))
  | .andn d a _ b _ _ => some (1, d, Nat.land (ux s a) (2 ^ 64 - 1 - ux s b))
  | .sll d a _ b _ _ => some (1, d, ux s a * 2 ^ (ux s b % 64) % 2 ^ 64)
  | .srl d a _ b _ _ => some (1, d, ux s a / 2 ^ (ux s b % 64))
  | .sra d a _ b _ _ => some (1, d, intMod 64 (sx s a / (2 ^ (ux s b % 64) : Nat)))
  | .rol d a _ b _ _ =>
    some (1, d, (ux s a * 2 ^ (ux s b % 64) % 2 ^ 64 + ux s a / 2 ^ (64 - ux s b % 64)) % 2 ^ 64)
  | .min d a _ b _ _ => some (1, d, intMod 64 (min (sx s a) (sx s b)))
  | .max d a _ b _ _ => some (1, d, intMod 64 (max (sx s a) (sx s b)))
  | .minu d a _ b _ _ => some (1, d, min (ux s a) (ux s b))
  | .maxu d a _ b _ _ => some (1, d, max (ux s a) (ux s b))
  | .mul d a _ b _ _ => some (3, d, ux s a * ux s b % 2 ^ 64)
  | .mulh d a _ b _ _ => some (3, d, intMod 64 (sx s a * sx s b / (2 ^ 64 : Nat)))
  | .mulhu d a _ b _ _ => some (3, d, ux s a * ux s b / 2 ^ 64)
  | .clz d a _ _ => some (1, d, if ux s a = 0 then 64 else 63 - Nat.log2 (ux s a))
  | .ctz d a _ _ => some (1, d, ((List.range 64).find? fun i => bitOf (ux s a) i).getD 64)
  | .popc d a _ _ => some (1, d, (List.range 64).countP fun i => bitOf (ux s a) i)
  | .brev d a _ _ => some (1, d, (List.range 64).foldl (fun v i => v + b01 (bitOf (ux s a) (63 - i)) * 2 ^ i) 0)
  | .extb d a _ _ => some (1, d, intMod 64 (sextNat 8 (ux s a)))
  | .exth d a _ _ => some (1, d, intMod 64 (sextNat 16 (ux s a)))
  | .extw d a _ _ => some (1, d, intMod 64 (sextNat 32 (ux s a)))
  | .exbu d a _ _ => some (1, d, ux s a % 2 ^ 8)
  | .exhu d a _ _ => some (1, d, ux s a % 2 ^ 16)
  | .exwu d a _ _ => some (1, d, ux s a % 2 ^ 32)
  | .addi d a _ i _ => some (1, d, intMod 64 (sx s a + i.toInt))
  | .andi d a _ i _ => some (1, d, Nat.land (ux s a) (intMod 64 i.toInt))
  | .ori d a _ i _ => some (1, d, Nat.lor (ux s a) (intMod 64 i.toInt))
  | .xori d a _ i _ => some (1, d, Nat.xor (ux s a) (intMod 64 i.toInt))
  | .slli d a _ h _ => some (1, d, ux s a * 2 ^ h.toNat % 2 ^ 64)
  | .srli d a _ h _ => some (1, d, ux s a / 2 ^ h.toNat)
  | .srai d a _ h _ => some (1, d, intMod 64 (sx s a / (2 ^ h.toNat : Nat)))
  | .muli d a _ i _ => some (3, d, intMod 64 (sx s a * i.toInt))
  | .lim d h i _ => some (1, d, i.toNat * 2 ^ (16 * h.toNat))
  | .lik d h i _ => some (1, d, setBits (ux s d) (16 * h.toNat) 16 i.toNat)
  | .sel d a _ b _ q _ => some (1, d, if readQ (actRegs s) q.toNat then ux s a else ux s b)
  | .dabs d a _ _ => some (1, d, ux s a % 2 ^ 63)
  | .dneg d a _ _ => some (1, d, (ux s a + 2 ^ 63) % 2 ^ 64)
  | _ => none

/-- The quotients and remainders (R162), which divide towards zero and do not trap on zero. -/
def divResult (s : State) : Instr → Option (BitVec 5 × Nat)
  | .div d a _ b _ _ => some (d, if ux s b = 0 then 2 ^ 64 - 1 else intMod 64 ((sx s a).tdiv (sx s b)))
  | .divu d a _ b _ _ => some (d, if ux s b = 0 then 2 ^ 64 - 1 else ux s a / ux s b)
  | .rem d a _ b _ _ => some (d, if ux s b = 0 then ux s a else intMod 64 ((sx s a).tmod (sx s b)))
  | .remu d a _ b _ _ => some (d, if ux s b = 0 then ux s a else ux s a % ux s b)
  | _ => none

/-- The integer conditions 0 to 9 of R128. -/
def condTruth (c : Nat) (ua ub : Nat) (sa sb : Int) : Prop :=
  (c = 0 ∧ ua = ub) ∨ (c = 1 ∧ ua ≠ ub) ∨ (c = 2 ∧ sa < sb) ∨ (c = 3 ∧ sb ≤ sa) ∨ (c = 4 ∧ ua < ub) ∨ (c = 5 ∧ ub ≤ ua)
    ∨ (c = 6 ∧ sa ≤ sb) ∨ (c = 7 ∧ sb < sa) ∨ (c = 8 ∧ ua ≤ ub) ∨ (c = 9 ∧ ub < ua)

/-- The truth that an instruction with a q destination writes (R128, R166, R169). -/
def truthResult (s : State) : Instr → Option (BitVec 3 × Prop)
  | .cmp d c a _ b _ _ => if c.toNat < 10 then some (d, condTruth c.toNat (ux s a) (ux s b) (sx s a) (sx s b)) else none
  | .cmpi d c a _ i _ => some (d, condTruth c.toNat (ux s a) (intMod 64 i.toInt) (sx s a) i.toInt)
  | .pand d a _ b _ _ => some (d, readQ (actRegs s) a.toNat = true ∧ readQ (actRegs s) b.toNat = true)
  | .por d a _ b _ _ => some (d, readQ (actRegs s) a.toNat = true ∨ readQ (actRegs s) b.toNat = true)
  | .pxor d a _ b _ _ => some (d, readQ (actRegs s) a.toNat ≠ readQ (actRegs s) b.toNat)
  | .pnot d a _ _ => some (d, readQ (actRegs s) a.toNat = false)
  | _ => none

/-! ### Ports -/

/-- The fault-queue posts and flits of an event leave every context as it was. -/
def SameCtx (s t : State) : Prop := ∀ k b, ctxAt t k b = ctxAt s k b

/-- A stage of one member, its control token of a type at the head of every input port. -/
def CtlAt (s : State) (k : Nat) (b : Bool) (type : Nat) (tag : Word) : Prop :=
  (ctxAt s k b).cfg.gang.length ≤ 1 ∧ atHeads s [(k, b)] type = some tag

/-- How far a flit's sequence number lies past the one that its target expects (R432). -/
def ahead (s : State) (f : Flit) (lane : Nat) : Nat :=
  (f.seq + 2 ^ 32 - (findRx s f.schip lane).expected % 2 ^ 32) % 2 ^ 32

/-- The answer that the duplicate filter keeps for a flit: its type, its code and its payload (R432). -/
def kept (s : State) (f : Flit) (lane : Nat) : Option (Nat × Nat × List Byte) :=
  ((findRx s f.schip lane).filter.find? fun e => e.1 == f.seq).map (·.2)

/-- The flit that the next slot of its output gives, among the oldest of its type (R423, R425): it may be delivered now. -/
def GivenFlit (s : State) (f : Flit) : Prop :=
  ∃ w, s.router.arrived.find? (fun v => [f.type].contains v.flit.type
    && localPick s (flitOut v.flit) (mayDeliver s) == some v) = some w ∧ w.flit = f

/-! ### Messages -/

/-- The oldest message of the host, for this package. -/
def HostHead (s : State) (m : HostMsg) (rest : List HostMsg) : Prop := s.hostIn = m :: rest ∧ m.chip = s.chip

/-- The state once that message has been taken. -/
def taken (s : State) (rest : List HostMsg) : State := { s with hostIn := rest }

/-- The oldest region-control message, with the neighbour it came from. -/
def CtlHead (s : State) (from_ : Nat) (m : CtlMsg) (rest : List (Nat × CtlMsg)) : Prop := s.ctlIn = (from_, m) :: rest

/-- The oldest boot packet, of a kind, from a neighbour. -/
def BootHead (s : State) (n : Nat) (p : BootPacket) (kind : Nat) : Prop :=
  (∃ rest, s.bootIn = (n, p) :: rest) ∧ bKind p = kind

/-- The state in which a host access begins. -/
def accStarted (s : State) (m : HostMsg) (rest : List HostMsg) (write : Bool) (va : BitVec 80) (len : Nat) (data : List Byte) :
    State :=
  { s with hostIn := rest, accs := s.accs ++ [⟨s.counter, (m.channel, m.tag), m.partition, write, va, len, data, 0, none, false⟩],
           counter := s.counter + 1 }

/-- A host access of one piece that may be acted on now and whose walk need not wait and leads to bytes of this package that
it may reach: their address, and the state after the walk. -/
def AccLands (s : State) (m : HostMsg) (rest : List HostMsg) (write : Bool) (va : BitVec 80) (len : Nat) (data : List Byte)
    (pa : Nat) (u : State) : Prop :=
  HostHead s m rest ∧ mayAct s m = true ∧ (findPart s m.partition).isSome ∧ 8 ≤ len ∧ len ≤ 224 ∧ va.toNat % 2 ^ 16 + len ≤ 2 ^ 16 ∧
    (∀ a, a ∈ s.accs → a.id ≠ s.counter) ∧
    mayWalk (accStarted s m rest write va len data) (asidOf s m.partition)
      (startWalk s m.partition va (if write then 2 else 1) 0 false) = true ∧
    (∃ e w, walkOn m.partition (asidOf s m.partition) walkFuel (accStarted s m rest write va len data)
      (startWalk s m.partition va (if write then 2 else 1) 0 false) = (.leaf e, w, u) ∧ pa = leafAddr w.lvl e w.va.toNat) ∧
    faChip pa = s.chip ∧ s.chip ≠ hostChip ∧ (faRegion pa = 1 ∨ faRegion pa = 2) ∧
    targetErr u m.partition (faRegion pa) (faOff pa) len false = 0 ∧ fabBad u (faRegion pa) (faOff pa) len = false

/-- The oldest message of the host is this management request for this package, on channel 0. -/
def MgmtHead (s : State) (m : HostMsg) (rest : List HostMsg) (q : Mgmt) : Prop :=
  HostHead s m rest ∧ m.req = .mgmt q ∧ m.channel % 4096 = 0

/-- The oldest message of the host is this SPDM request. -/
def SpdmHead (s : State) (m : HostMsg) (rest : List HostMsg) (q : SpdmReq) : Prop := s.hostIn = m :: rest ∧ m.req = .spdm q

/-- One answer has gone to the host: for that request, this response. -/
def Answered (s t : State) (m : HostMsg) (a : HostAns) : Prop := t.hostOut = s.hostOut ++ [⟨m.channel, m.tag, a⟩]

/-- The instruction that serves an SPDM request, and the phases of the exchange in which it is served (R464). -/
def spdmInstr : SpdmReq → Instr
  | .version => .spdmVersion
  | .capabilities => .spdmCapabilities
  | .algorithms => .spdmAlgorithms
  | .digests => .spdmDigests
  | .certificate => .spdmCertificate
  | .challenge _ => .spdmChallenge
  | .measurements _ _ => .spdmMeasurements
  | .keyExchange _ => .spdmKeyExchange
  | .finish _ => .spdmFinish
  | .keyUpdate => .spdmKeyUpdate
  | .endSession => .spdmEndSession

def spdmServed : SpdmReq → Nat → Bool
  | .version, n => n != 5
  | .capabilities, n => n == 1
  | .algorithms, n => n == 2
  | .digests, n => n == 3 || n == 5
  | .certificate, n => n == 3 || n == 5
  | .challenge _, n => n == 3
  | .measurements _ _, n => n == 3 || n == 5
  | .keyExchange _, n => n == 3
  | .finish _, n => n == 4
  | .keyUpdate, n => n == 5
  | .endSession, n => n == 5

/-- Every measurement, in order. -/
def allMeasured (s : State) : List Byte := [1, 2, 3, 4, 5].flatMap (measurement s)

/-- What a challenge is answered with, before the signature. -/
def challenged (s : State) : List (List Byte) := [sha384 chainBytes, sha384 (allMeasured s)]

/-! ### One step -/

/-- The state in which core `k` issues its next bundle: the results due have been delivered. -/
def issuing (s : State) (k : Nat) (rest : List Action) : State :=
  let u := { s with agenda := rest, cur := k, scr := .reset }
  let c := getCore u k
  let w := actWho c
  let due := ((getRegs c w).flight.filter fun f => f.count == 0).map (·.dest)
  cleanRegs (modCore u k fun c => deliverDue c w) k w due

/-- Core `k` is about to fetch bundle `b` of its running context, from words that no error hides (R83, R100, R229, R274,
R398); `u` is the state in which its slots run. -/
def Fetches (s : State) (k : Nat) (rest : List Action) (u : State) (b : Nat) : Prop :=
  s.halted = false ∧ s.agenda = .issue k :: rest ∧ k < 16 ∧ mayIssue { s with agenda := rest } k = true ∧
    (getCore s k).curator = false ∧
    (∃ x, x = ctxAt s k (runCtx (getCore s k)) ∧ x.rerun ≠ .pending ∧ x.mchk = none ∧ x.boundary = none ∧ markHeld x = false ∧
      (∀ v, x.live.next ≠ .badTarget v) ∧ b = nextIndex x x.live.next ∧ x.cfg.first ≤ b ∧ b < x.cfg.first + x.cfg.size) ∧
    badWord (issuing s k rest) (progKey k b) 32 = none ∧ u = countFixed (issuing s k rest) (progKey k b) 32

/-- Of bundle `b`, slot `n` holds instruction `i` and every other slot a NOP. -/
def HoldsAlone (s : State) (k b n : Nat) (i : Instr) : Prop :=
  n < 8 ∧ decodeSlot n (slotWord (getCore s k) b n) = .ok i ∧
    ∀ m, m < 8 → m ≠ n → slotWord (getCore s k) b m = 0

/-! ### Floating and vector results -/

/-- A result and its flags to one register. -/
def oneRes (lat : Nat) (n : RegName) (r : FRes) : Option (Nat × List (RegName × Nat) × Flg) := some (lat, [(n, r.1)], r.2)

/-- The floating instructions of the scalar slots at a fixed latency (R167, R170 to R174), by the operations of 02: the
latency, the results and the flags. -/
def floatResult (s : State) : Instr → Option (Nat × List (RegName × Nat) × Flg)
  | .cmp d c a _ b _ _ =>
    if c.toNat < 10 then none
    else
      let r := fcompare f64 (floatCond c.toNat) (ux s a) (ux s b)
      oneRes 1 (qReg d.toNat) (b01 r.1, r.2)
  | .dadd d a _ b _ r _ => oneRes 4 (xReg d.toNat) (fadd f64 (dynMode s r) false (ux s a) (ux s b))
  | .dsub d a _ b _ r _ => oneRes 4 (xReg d.toNat) (fadd f64 (dynMode s r) true (ux s a) (ux s b))
  | .dmul d a _ b _ r _ => oneRes 4 (xReg d.toNat) (fmul f64 (dynMode s r) (ux s a) (ux s b))
  | .dmin d a _ b _ _ => oneRes 4 (xReg d.toNat) (fminmax f64 false (ux s a) (ux s b))
  | .dmax d a _ b _ _ => oneRes 4 (xReg d.toNat) (fminmax f64 true (ux s a) (ux s b))
  | .dfma d a _ b _ r _ => oneRes 5 (xReg d.toNat) (ffma f64 (dynMode s r) false false (ux s a) (ux s b) (ux s d))
  | .dfms d a _ b _ r _ => oneRes 5 (xReg d.toNat) (ffma f64 (dynMode s r) false true (ux s a) (ux s b) (ux s d))
  | .dnfma d a _ b _ r _ => oneRes 5 (xReg d.toNat) (ffma f64 (dynMode s r) true true (ux s a) (ux s b) (ux s d))
  | .dnfms d a _ b _ r _ => oneRes 5 (xReg d.toNat) (ffma f64 (dynMode s r) true false (ux s a) (ux s b) (ux s d))
  | .fadd d a _ b _ r _ => oneRes 4 (xReg d.toNat) (fadd f32 (dynMode s r) false (ux s a % 2 ^ 32) (ux s b % 2 ^ 32))
  | .fsub d a _ b _ r _ => oneRes 4 (xReg d.toNat) (fadd f32 (dynMode s r) true (ux s a % 2 ^ 32) (ux s b % 2 ^ 32))
  | .fmul d a _ b _ r _ => oneRes 4 (xReg d.toNat) (fmul f32 (dynMode s r) (ux s a % 2 ^ 32) (ux s b % 2 ^ 32))
  | .fmin d a _ b _ _ => oneRes 4 (xReg d.toNat) (fminmax f32 false (ux s a % 2 ^ 32) (ux s b % 2 ^ 32))
  | .fmax d a _ b _ _ => oneRes 4 (xReg d.toNat) (fminmax f32 true (ux s a % 2 ^ 32) (ux s b % 2 ^ 32))
  | .ffma d a _ b _ r _ =>
    oneRes 5 (xReg d.toNat) (ffma f32 (dynMode s r) false false (ux s a % 2 ^ 32) (ux s b % 2 ^ 32) (ux s d % 2 ^ 32))
  | .i2d d a _ r _ => oneRes 3 (xReg d.toNat) (intToFloat f64 false (dynMode s r) (sx s a))
  | .u2d d a _ r _ => oneRes 3 (xReg d.toNat) (intToFloat f64 false (dynMode s r) (ux s a))
  | .d2i d a _ r _ => oneRes 3 (xReg d.toNat) (floatToInt f64 true 64 (dynMode s r) (ux s a))
  | .d2u d a _ r _ => oneRes 3 (xReg d.toNat) (floatToInt f64 false 64 (dynMode s r) (ux s a))
  | .f2d d a _ r _ => oneRes 3 (xReg d.toNat) (cvtFloat f32 f64 false (dynMode s r) (ux s a % 2 ^ 32))
  | .d2f d a _ r _ => oneRes 3 (xReg d.toNat) (cvtFloat f64 f32 false (dynMode s r) (ux s a))
  | .i2f d a _ r _ => oneRes 3 (xReg d.toNat) (intToFloat f32 false (dynMode s r) (sx s a))
  | .f2i d a _ r _ => oneRes 3 (xReg d.toNat) (floatToInt f32 true 64 (dynMode s r) (ux s a % 2 ^ 32))
  | _ => none

/-- The long-latency floating instructions of the scalar slots (R87, R170). -/
def floatLong (s : State) : Instr → Option (BitVec 5 × FRes)
  | .ddiv d a _ b _ r _ => some (d, fdiv f64 (dynMode s r) (ux s a) (ux s b))
  | .dsqrt d a _ r _ => some (d, fsqrt f64 (dynMode s r) (ux s a))
  | .fdiv d a _ b _ r _ => some (d, fdiv f32 (dynMode s r) (ux s a % 2 ^ 32) (ux s b % 2 ^ 32))
  | .fsqrt d a _ r _ => some (d, fsqrt f32 (dynMode s r) (ux s a % 2 ^ 32))
  | _ => none

/-- Element `j` of a v operand, and of a second operand. -/
def va (s : State) (n : BitVec 5) (t : BitVec 3) (j : Nat) : Nat := elem (fmtBits t) (rv s n) j
def vb (s : State) (n : BitVec 5) (u : BitVec 2) (t : BitVec 3) (j : Nat) : Nat := opB s n u (fmtBits t) j

/-- An element operation on floating elements by `ff`, on integer elements by `fi` of their two's complement values,
cut to the element (R180, R183). -/
def elemOp (t : BitVec 3) (ff : FFmt → FRes) (fi : Nat → Int) : FRes :=
  match efmt t with
  | .fl f => ff f
  | .int w => (intMod w (fi w), 0)

/-- The fields of a quantisation control word (R198): the format code and the rounding mode. -/
def qCode (c : Nat) : Nat := bitsOf c 0 4
def qMode (s : State) (c : Nat) : RMode := if bitsOf c 5 3 = 4 then frmOf s else rmodeOf (bitsOf c 5 3)

/-- The floating format of a vector fmt. -/
def flFmt (t : BitVec 3) : FFmt :=
  match efmt t with
  | .fl f => f
  | .int _ => f32

/-- The element instructions of the vector slots (R183 to R194, R200, R201): latency, destination, element width, mask,
and the result of element `j`. -/
def elemResult (s : State) : Instr → Option (Nat × BitVec 5 × Nat × BitVec 4 × (Nat → FRes))
  | .vadd d a _ b _ t m u => some (2, d, fmtBits t, m, fun j => elemOp t (fun f => fadd f (frmOf s) false (va s a t j) (vb s b u t j))
      fun w => sextNat w (va s a t j) + sextNat w (vb s b u t j))
  | .vsub d a _ b _ t m u => some (2, d, fmtBits t, m, fun j => elemOp t (fun f => fadd f (frmOf s) true (va s a t j) (vb s b u t j))
      fun w => sextNat w (va s a t j) - sextNat w (vb s b u t j))
  | .vmul d a _ b _ t m u => some (2, d, fmtBits t, m, fun j => elemOp t (fun f => fmul f (frmOf s) (va s a t j) (vb s b u t j))
      fun w => sextNat w (va s a t j) * sextNat w (vb s b u t j))
  | .vmin d a _ b _ t m u => some (2, d, fmtBits t, m, fun j => elemOp t (fun f => fminmax f false (va s a t j) (vb s b u t j))
      fun w => min (sextNat w (va s a t j)) (sextNat w (vb s b u t j)))
  | .vmax d a _ b _ t m u => some (2, d, fmtBits t, m, fun j => elemOp t (fun f => fminmax f true (va s a t j) (vb s b u t j))
      fun w => max (sextNat w (va s a t j)) (sextNat w (vb s b u t j)))
  | .vmaxm d a _ b _ t m u => some (2, d, fmtBits t, m, fun j => elemOp t (fun f => fmaxm f (va s a t j) (vb s b u t j))
      fun w => imaxm (sextNat w (va s a t j)) (sextNat w (vb s b u t j)))
  | .vfma d a _ b _ t m u => some (4, d, fmtBits t, m, fun j =>
      elemOp t (fun f => ffma f (frmOf s) false false (va s a t j) (vb s b u t j) (va s d t j))
        fun w => sextNat w (va s a t j) * sextNat w (vb s b u t j) + sextNat w (va s d t j))
  | .vfms d a _ b _ t m u => some (4, d, fmtBits t, m, fun j =>
      elemOp t (fun f => ffma f (frmOf s) false true (va s a t j) (vb s b u t j) (va s d t j))
        fun w => sextNat w (va s a t j) * sextNat w (vb s b u t j) - sextNat w (va s d t j))
  | .vabs d a _ t m => some (2, d, fmtBits t, m, fun j =>
      elemOp t (fun f => (va s a t j % 2 ^ (f.w - 1), 0)) fun w => (sextNat w (va s a t j)).natAbs)
  | .vneg d a _ t m => some (2, d, fmtBits t, m, fun j =>
      elemOp t (fun f => ((va s a t j + 2 ^ (f.w - 1)) % 2 ^ f.w, 0)) fun w => -sextNat w (va s a t j))
  | .vcmpeq d a _ b _ t m u => some (2, d, fmtBits t, m, fun j => match efmt t with
      | .fl f => let r := fcompare f .eq (va s a t j) (vb s b u t j); (b01 r.1 * (2 ^ f.w - 1), r.2)
      | .int w => (b01 (decide (va s a t j = vb s b u t j)) * (2 ^ w - 1), 0))
  | .vcmplt d a _ b _ t m u => some (2, d, fmtBits t, m, fun j => match efmt t with
      | .fl f => let r := fcompare f .lt (va s a t j) (vb s b u t j); (b01 r.1 * (2 ^ f.w - 1), r.2)
      | .int w => (b01 (if u = 2 then decide (va s a t j < vb s b u t j)
          else decide (sextNat w (va s a t j) < sextNat w (vb s b u t j))) * (2 ^ w - 1), 0))
  | .vcmple d a _ b _ t m u => some (2, d, fmtBits t, m, fun j => match efmt t with
      | .fl f => let r := fcompare f .le (va s a t j) (vb s b u t j); (b01 r.1 * (2 ^ f.w - 1), r.2)
      | .int w => (b01 (if u = 2 then decide (va s a t j ≤ vb s b u t j)
          else decide (sextNat w (va s a t j) ≤ sextNat w (vb s b u t j))) * (2 ^ w - 1), 0))
  | .vcmpun d a _ b _ t m u => some (2, d, fmtBits t, m, fun j => match efmt t with
      | .fl f => let r := fcompare f .un (va s a t j) (vb s b u t j); (b01 r.1 * (2 ^ f.w - 1), r.2)
      | .int _ => (0, 0))
  | .vand d a _ b _ t m u => some (2, d, fmtBits t, m, fun j => (Nat.land (va s a t j) (vb s b u t j), 0))
  | .vor d a _ b _ t m u => some (2, d, fmtBits t, m, fun j => (Nat.lor (va s a t j) (vb s b u t j), 0))
  | .vxor d a _ b _ t m u => some (2, d, fmtBits t, m, fun j => (Nat.xor (va s a t j) (vb s b u t j), 0))
  | .vshl d a _ b _ t m u => some (2, d, fmtBits t, m, fun j =>
      (va s a t j * 2 ^ (if u = 2 then b.toNat else vb s b u t j % fmtBits t) % 2 ^ fmtBits t, 0))
  | .vshr d a _ b _ t m u => some (2, d, fmtBits t, m, fun j =>
      (va s a t j / 2 ^ (if u = 2 then b.toNat else vb s b u t j % fmtBits t), 0))
  | .vsra d a _ b _ t m u => some (2, d, fmtBits t, m, fun j => (intMod (fmtBits t)
      (sextNat (fmtBits t) (va s a t j) / (2 ^ (if u = 2 then b.toNat else vb s b u t j % fmtBits t) : Nat)), 0))
  | .vbld d a _ b _ t m u => some (2, d, fmtBits t, m, fun j => (Nat.lor (Nat.land (va s d t j) (va s a t j))
      (Nat.land (2 ^ fmtBits t - 1 - va s d t j) (vb s b u t j)), 0))
  | .vbc d b _ t m => some (2, d, fmtBits t, m, fun _ => (ux s b % 2 ^ fmtBits t, 0))
  | .vins d a _ b _ t m => some (2, d, fmtBits t, m, fun j =>
      (if j = ux s a % (2048 / fmtBits t) then ux s b % 2 ^ fmtBits t else va s d t j, 0))
  | .vperm d a _ b _ t m => some (3, d, fmtBits t, m, fun j =>
      (if va s b t j < 2048 / fmtBits t then va s a t (va s b t j) else 0, 0))
  | .vrot d a _ b _ t m u => some (3, d, fmtBits t, m, fun j =>
      (va s a t ((j + (if u = 1 then ux s b else b.toNat)) % (2048 / fmtBits t)), 0))
  | .vscan d a _ o t m => some (6, d, fmtBits t, m, fun j =>
      ((scanFrom (efmt t) (frmOf s) o.toNat none ((List.range (2048 / fmtBits t)).map fun j =>
        if laneOn (rm s m) (fmtBits t) j then some (va s a t j) else none)).getD j none).getD (0, 0))
  | .vhad d a _ c h _ m => some (2 + h.toNat, d, 32, m, fun j => (hadamard h.toNat c (elems32 (rv s a))).getD j (0, 0))
  | .vcvt d a _ r c n t m =>
    if r then
      let src := codeFmt c.toNat
      let dst := codeFmt (fmtCode t)
      some (3, d, cfWidth dst, m, fun j => if j < 2048 / Nat.max (cfWidth src) (cfWidth dst) then
        convert src dst n (frmOf s) (elem (cfWidth src) (rv s a) j) else (0, 0))
    else none
  | .vdqnt d a _ b _ t m =>
    if qctlOk (ux s b) false then
      some (3, d, fmtBits t, m, fun j => match mxOf (qCode (ux s b)) with
        | none => dequant8 (if qCode (ux s b) = 4 then fE4m3 else fE5m2) (flFmt t) (qMode s (ux s b)) (elem 8 (rv s a) j)
            (bitsOf (ux s b) 32 32)
        | some x => match mxValue x (bitsOf (rv s a) (8 * (248 + j / 32)) 8) (elem x.n (rv s a) j) with
          | none => (fcanon (flFmt t), 0)
          | some y => roundTo (flFmt t) (qMode s (ux s b)) y)
    else none
  | _ => none

/-- The flags of the selected elements (R51, R178). -/
def elemFlags (s : State) (w : Nat) (m : BitVec 4) (res : Nat → FRes) : Flg :=
  orFlags ((List.range (2048 / w)).map fun j => if laneOn (rm s m) w j then res j else (0, 0))

/-- The value and the flags of VQNT (R199): 8-bit elements with one scale, or MX blocks of 32. -/
def quantResult (s : State) (a : BitVec 5) (c : Nat) (t : BitVec 3) (m : BitVec 4) : Nat × Flg :=
  let xs := (List.range (2048 / fmtBits t)).map fun j => if laneOn (rm s m) (fmtBits t) j then va s a t j else 0
  match mxOf (qCode c) with
  | none =>
    let rs := xs.map fun x =>
      quant8 (flFmt t) (if qCode c = 4 then fE4m3 else fE5m2) (bitOf c 4) (qMode s c) x (bitsOf c 32 32)
    (packElems 8 (rs.map (·.1)), orFlags rs)
  | some x =>
    let bs := (chunks 32 (2048 / fmtBits t / 32) xs).map (mxBlock (flFmt t) x (bitsOf c 16 8) (qMode s c))
    (packBlocks x bs, bs.foldl (fun a b => a ||| b.2.2) 0)

/-- The vector and mask instructions that write whole registers at a fixed latency (R186, R192, R195, R197 to R199, R203,
R204, R209 to R211). VQNT is here while its control word asks for no max-magnitude effect. -/
def wholeResult (s : State) : Instr → Option (Nat × List (RegName × Nat) × Flg)
  | .vcmpm d a _ => some (2, [(mReg d.toNat,
      packElems 1 ((List.range 16).map fun i => if bitsOf (rv s a) (128 * i) 128 = 0 then 0 else 1))], 0)
  | .vext d a _ b _ t =>
    let x := va s a t (ux s b % (2048 / fmtBits t))
    some (2, [(xReg d.toNat, match efmt t with
      | .fl _ => x % 2 ^ 64
      | .int w => intMod 64 (sextNat w x))], 0)
  | .vred d a _ o t m =>
    let r := (redTree (efmt t) (frmOf s) o.toNat 8 ((List.range (2048 / fmtBits t)).map fun j =>
      if laneOn (rm s m) (fmtBits t) j then some (va s a t j, 0) else none)).getD (redIdentity (efmt t) o.toNat, 0)
    oneRes 5 (vReg d.toNat) r
  | .vcvt d a _ r c n t m =>
    if r then none
    else
      let src := codeFmt (fmtCode t)
      let dst := codeFmt c.toNat
      let rs := (List.range (2048 / Nat.max (cfWidth src) (cfWidth dst))).map fun j =>
        if laneOn (rm s m) (cfWidth src) j then convert src dst n (frmOf s) (elem (cfWidth src) (rv s a) j) else (0, 0)
      some (3, [(vReg d.toNat, packElems (cfWidth dst) (rs.map (·.1)))], orFlags rs)
  | .vqnt d a _ b _ t m =>
    if qctlOk (ux s b) true && !bitOf (ux s b) 10 then oneRes 3 (vReg d.toNat) (quantResult s a (ux s b) t m) else none
  | .vsmrg d a _ _ m =>
    let r := smaxMerge (smaxOf (rv s d)) (smaxOf (rv s a))
    some (6, [(vReg d.toNat, packElems 128 ((List.range 16).map fun i =>
      if (rm s m).getLsbD i then bitsOf (smaxBits r.1) (128 * i) 128 else bitsOf (rv s d) (128 * i) 128))],
      r.2.2.2 ||| (if (rm s m).getLsbD 0 then r.2.1 else 0) ||| (if (rm s m).getLsbD 1 then r.2.2.1 else 0))
  | .vsmup d a _ b _ _ m =>
    let r := smaxUpdate ((List.range 64).map fun j => if laneOn (rm s m) 32 j then elem 32 (rv s a) j else 0xFF800000)
      (smaxOf (rv s b))
    some (10, [(vReg d.toNat, packElems 32 r.1), (vReg b.toNat, smaxBits r.2.1)], r.2.2)
  | .mand d a _ b _ => some (2, [(mReg d.toNat, Nat.land (rm s a).toNat (rm s b).toNat)], 0)
  | .mor d a _ b _ => some (2, [(mReg d.toNat, Nat.lor (rm s a).toNat (rm s b).toNat)], 0)
  | .mxor d a _ b _ => some (2, [(mReg d.toNat, Nat.xor (rm s a).toNat (rm s b).toNat)], 0)
  | .mnot d a _ => some (2, [(mReg d.toNat, 0xFFFF - (rm s a).toNat)], 0)
  | .mfx d a _ => some (2, [(xReg d.toNat, (rm s a).toNat)], 0)
  | .mtx d a _ => some (2, [(mReg d.toNat, ux s a % 2 ^ 16)], 0)
  | .mbitSet d a _ i => some (2, [(mReg d.toNat, setBits (rm s a).toNat i.toNat 1 1)], 0)
  | .mbitClr d a _ i => some (2, [(mReg d.toNat, setBits (rm s a).toNat i.toNat 1 0)], 0)
  | .mbitInv d a _ i => some (2, [(mReg d.toNat, setBits (rm s a).toNat i.toNat 1 (1 - bitsOf (rm s a).toNat i.toNat 1))], 0)
  | _ => none

/-- The special functions of VB (R212 to R214), element by element: mask, format and the destinations. -/
def specialResult (s : State) : Instr → Option (BitVec 3 × BitVec 4 × List (BitVec 5 × (FFmt → Nat → FRes)))
  | .vexp2 d a _ t m => some (t, m, [(d, fun f j => fexp2 f (va s a t j))])
  | .vlog2 d a _ t m => some (t, m, [(d, fun f j => flog2 f (va s a t j))])
  | .vrcp d a _ t m => some (t, m, [(d, fun f j => frcp f (frmOf s) (va s a t j))])
  | .vrsq d a _ t m => some (t, m, [(d, fun f j => frsq f (va s a t j))])
  | .vsqrt d a _ t m => some (t, m, [(d, fun f j => fsqrt f (frmOf s) (va s a t j))])
  | .vtanh d a _ t m => some (t, m, [(d, fun f j => ftanh f (va s a t j))])
  | .vsincos d a _ t m =>
    some (t, m, [(d, fun f j => (fsincos f (va s a t j)).1), (d + 1, fun f j => (fsincos f (va s a t j)).2)])
  | _ => none

/-- The flags of a special function's selected elements. -/
def specialFlags (s : State) (t : BitVec 3) (m : BitVec 4) (f : FFmt) (ds : List (BitVec 5 × (FFmt → Nat → FRes))) : Flg :=
  orFlags (ds.flatMap fun e => (List.range (2048 / fmtBits t)).map fun j =>
    if laneOn (rm s m) (fmtBits t) j then e.2 f j else (0, 0))

/-! ### Special registers -/

/-- The width of a special register that an MTS writes (R62), but for ckpol, whose bits 2 and 1 stay zero (R64). -/
def sregWidth (n : Nat) : Option Nat :=
  if n ≤ 5 ∨ (8 ≤ n ∧ n ≤ 13) ∨ n = 0x10 ∨ (0x20 ≤ n ∧ n ≤ 0x23) then some 32
  else if n = 0x30 then some 7
  else if n = 0x31 then some 2
  else if 0x40 ≤ n ∧ n ≤ 0x47 then some 16
  else if n = 0x50 then some 12
  else none

/-! ### Registers -/

/-- The registers of a file, and their width (R59). -/
def fileSize : RegFile → Nat
  | .x => 32
  | .v => 32
  | .m => 16
  | .q => 8

def fileWidth : RegFile → Nat
  | .x => 64
  | .v => 2048
  | .m => 16
  | .q => 1

/-- x0, m0 and q0 keep their values (R59). -/
def hardWired (n : RegName) : Bool := n.num == 0 && n.file != .v

/-- Nothing changes but the registers that are in flight, the issuing bundle's marks and the producers it adds: memory,
the other cores, the issuing core and every register of the issuing set are as before. -/
def OnlyFlight (s t : State) : Prop :=
  t = { s with cores := t.cores, scr := t.scr } ∧ (∀ k, k ≠ s.cur → getCore t k = getCore s k) ∧
  setRegs (curCore t) (actWho (curCore s)) (actRegs s) = curCore s ∧
  { actRegs t with flight := (actRegs s).flight } = actRegs s ∧
  t.scr = { s.scr with flags := t.scr.flags, claims := t.scr.claims, prods := t.scr.prods }

/-- A loop level declared by the bundle that is issuing (R94, R144, R145): its body, and whether it runs at all; the
counter and the trip are written for the bundles that follow. -/
def loopDeclared (s : State) (lvl len lc lt : Nat) : State :=
  setAct (modScr s fun q => { q with sregs := q.sregs ++ [(lvl, lc), (8 + lvl, lt)] })
    (.loop ⟨lvl, issueIndex (curCore s) + 1, issueIndex (curCore s) + 1 + len⟩ (decide (lc < lt)))

/-- A level may be declared here (R94): it and every level above it are inactive, and the body stays inside every active
body that holds this bundle; no answer for it is awaited (R157). -/
def LoopFits (s : State) (lvl len : Nat) : Prop :=
  rngPending (actCtx s) lvl = false ∧
  (∀ l, l ∈ (actRegs s).loops → l.lvl < lvl) ∧
  ∀ l, l ∈ (actRegs s).loops → l.first ≤ issueIndex (curCore s) → issueIndex (curCore s) ≤ l.last →
    issueIndex (curCore s) + 1 + len ≤ l.last

/-- The condition of a control instruction with predicate and n bit (R142). -/
def predTrue (s : State) (n : Bool) (p : BitVec 3) : Bool := xor (readQ (actRegs s) p.toNat) n

/-! ### Traps and the curator -/

/-- The curator share holds the vector of a cause (R331, R332). -/
def hasVector (c : Core) (cause : Nat) : Prop := kvecSize c ≠ 0 ∧ 8 * cause < kvecSize c

/-- `t` is `s` with a trap of its issuing stage bundle taken (R332). The context is rolled back; KCAUSE names the cause and
the slot, KFPC the bundle, KVAL the value, KCPC the entry of the context; KSTAT names the context and clears async, rerun,
idle and gone, fena and refused kept; the core goes to the vector of the cause in curator mode. Memory and the other cores
are as before. -/
def EntersTrap (s t : State) (cause val : Nat) : Prop :=
  ∃ b c, b = runCtx (curCore s) ∧ c = curCore t ∧
    c.kcause.toNat = cause + s.scr.slot * 2 ^ 8 ∧ c.kfpc = BitVec.ofNat 16 (issueIndex (curCore s)) ∧
    c.kval.toNat = val ∧ c.kcpc = BitVec.ofNat 13 (actCtx s).kcpc ∧
    kCtx c = b ∧ kAsync c = false ∧ kRerun c = false ∧ kIdle c = false ∧ kGone c = false ∧
    kFena c = kFena (curCore s) ∧ bitOf c.kstat.toNat 16 = bitOf (curCore s).kstat.toNat 16 ∧
    c.curator = true ∧ c.cur.next = .at (kvecBase (curCore s) + 8 * cause) ∧
    getCtx c b = rollBackCtx (actCtx s) ∧ getCtx c (!b) = getCtx (curCore s) (!b) ∧
    (∀ k, k ≠ s.cur → getCore t k = getCore s k) ∧ SameMem s t

/-- A stage bundle outside a rerun issues, and the curator share holds the vector of the cause (R331, R332). -/
def MayEnter (s : State) (cause : Nat) : Prop :=
  s.cur < 16 ∧ (curCore s).curator = false ∧ (actCtx s).rerun = .none ∧ s.scr.slot < 8 ∧ hasVector (curCore s) cause

/-- The control register that a creg number names (R337, R338), its reserved bits 0. -/
def cregValue (s : State) (n : Nat) : Option Nat :=
  let c := curCore s
  let p := getPart s (bitsOf c.partid.toNat 0 8)
  match n with
  | 0x00 => some c.kstat.toNat
  | 0x01 => some c.kcause.toNat
  | 0x02 => some c.kfpc.toNat
  | 0x03 => some c.kcpc.toNat
  | 0x04 => some c.kval.toNat
  | 0x05 => some c.kvec.toNat
  | 0x08 => some (c.kscr.getD 0 0).toNat
  | 0x09 => some (c.kscr.getD 1 0).toNat
  | 0x0A => some (c.kscr.getD 2 0).toNat
  | 0x0B => some (c.kscr.getD 3 0).toNat
  | 0x10 => some p.ptbase.toNat
  | 0x11 => some c.partid.toNat
  | 0x12 => some p.sltctl.toNat
  | 0x13 => some p.linkctl.toNat
  | 0x14 => some p.hangint.toNat
  | 0x15 => some c.budget.toNat
  | 0x16 => some p.ctolmin.toNat
  | 0x17 => some c.shadowctl.toNat
  | 0x18 => some c.margin.toNat
  | 0x19 => some c.fqctl.toNat
  | _ => none

/-- The core has no job outstanding: none launched, and none behind a released FENCE (R254, R285). -/
def NoJobs (c : Core) : Prop :=
  c.jobs = [] ∧ ∀ r, r ∈ c.ctxA.relq ++ c.ctxB.relq → ∀ m a x, r.eff ≠ .launch m a x

/-- Nothing keeps context `b` of the issuing core from retiring (R352): no job of its own, no released effect, and no job of
any core that writes its windows. -/
def MayRetire (s : State) (b : Bool) : Prop :=
  (∀ j, j ∈ (curCore s).jobs → ownJob b j = false) ∧ (getCtx (curCore s) b).relq = [] ∧
  ∀ k, k < 16 → ∀ j, j ∈ (getCore s k).jobs → writesWindow s s.cur (ctxWindows (getCtx (curCore s) b).cfg) k j = false

/-- A message of a region has gone to its home (R345, R403): taken on this package, else queued for its firmware. -/
def ToldHome (s t : State) (r : Region) (m : CtlMsg) : Prop :=
  (r.cfg.homeChip = s.chip → (s.chip, m) ∈ t.ctlIn) ∧ (r.cfg.homeChip ≠ s.chip → (r.cfg.homeChip, m) ∈ t.ctlOut)


/-- Context `b` of the issuing core has been retired (R352, R369): its slot is empty, its share is free, no range cell holds a
range for it, and a region that had not given it up hears of it at its home. -/
def RetiredCtx (s t : State) (b : Bool) : Prop :=
  ∃ x, x = getCtx (curCore s) b ∧ (getCtx (curCore t) b).status = .empty ∧
    (∀ m, x.cfg.first ≤ m → m < x.cfg.first + x.cfg.size → bundleAt (curCore t) m = noBundle) ∧
    (∀ r, r ∈ t.cells → ∀ h, h ∈ r.held → ¬(h.core = s.cur ∧ h.ctx = b)) ∧
    ∀ r, findRegion s (partOf (curCore s)) x.region = some r →
      x.status ≠ .empty → x.status ≠ .reserved → x.status ≠ .drained →
      ToldHome s t r (.error r.part r.num 0x22 s.chip s.cur)

/-- The state after an MTC of `v` to control register `n` has taken effect at the end of its bundle. -/
def afterMtc (s : State) (n v : Nat) : State := applySregs s [(0x1000 + n, v)]

/-- The named cores that the issuing partition owns, and some that it does not (R341, R342). -/
def ownCores (s : State) (v : Nat) : List Nat := (maskCores v).filter fun k => !foreignCore s k
def anyForeign (s : State) (v : Nat) : Bool := (maskCores v).any fun k => foreignCore s k

/-- The core is halted as soon as it is named (R334, R344): it is in curator mode, or nothing runs on it, or its running
context has no Caliper comparison outstanding (R236). -/
def HaltsAtOnce (c : Core) : Prop := c.curator = true ∨ ∀ b, c.running = some b → (getCtx c b).mchk = none

/-- A context of the core still runs: its Caliper comparison is outstanding (R236, R344). -/
def StillChecks (c : Core) : Prop :=
  c.curator = false ∧ ∃ b, c.running = some b ∧ (getCtx c b).mchk ≠ none ∧ (getCtx c b).rerun = .none

/-- Core `k`, halted, once the results of its context `b` and its weight load have arrived: what a save finds (R346). -/
def restFor (s : State) (k : Nat) (b : Bool) : Core := getCore (finishMwld (finishProducers (haltCore s k) k b) k 64) k


/-! ### Storage -/

/-- The checks of a load pass: alignment, bounds and rings (R66, R75), no job that writes the bytes and no acquire in the
way (R241, R286), and no uncorrectable word but those that stores of its own context cover (R394). -/
def LoadGoes (s : State) (sp : Space) (a : Int) (n al : Nat) : Prop :=
  accessTrap s sp a n al = none ∧ loadWait s sp a.toNat n = none ∧ actBad s sp a.toNat n = none

/-- The state after a store of the issuing bundle: performed at once in curator mode (R329), else withheld at the end of
the store-withholding buffer (R99). The other slots of its bundle go on reading what stood there (R86). -/
def stored (s : State) (sp : Space) (a : Nat) (bs : List Byte) : State :=
  let u := noteBefore s sp a bs.length
  if (curCore s).curator then memWrite u (spaceKey s.cur sp a) bs
  else modActCtx u fun x => { x with withheld := x.withheld ++ [.store sp a bs] }

/-- An input port of context `b` of the core has its ring bound (R73): the port and its ring. -/
def BoundRing (c : Core) (b : Bool) (e : Nat × RingCfg) : Prop :=
  (getCtx c b).status ≠ .empty ∧ (getCtx c b).status ≠ .reserved ∧ e ∈ (getCtx c b).cfg.ins

/-- A byte of the scratchpad that a stage access may not reach (R75): of the ring's length array, or of an entry that no
visible token holds. -/
def HiddenByte (x : Context) (e : Nat × RingCfg) (v : Nat) : Prop :=
  (lenArray e.2 ≤ v ∧ v < lenArray e.2 + lenBytes e.2) ∨
  (e.2.base ≤ v ∧ v < e.2.base + 2 ^ e.2.n * e.2.es ∧
    ∀ t, t ∈ visibleToks e.2 (getIn x e.1) → t.slot ≠ (v - e.2.base) / e.2.es)

/-- A store may be withheld without forcing an implicit checkpoint (R99, R103). -/
def StoreRoom (s : State) : Prop := (curCore s).curator = true ∨ storeCount (actCtx s) < 256

/-- The address, the bytes and the alignment of a store instruction of the load/store slot that names its address by
registers (R244, R245). -/
def storeOf (s : State) : Instr → Option (Space × Int × Nat × List Byte)
  | .vsta v a _ _ sp o _ => some (spOf sp, lsAddr s a o 64, 64, natLe 256 (rv s v))
  | .sts v a _ _ sp z o _ => some (spOf sp, lsAddr s a o (2 ^ z.toNat), 2 ^ z.toNat, natLe (2 ^ z.toNat) (ux s v))
  | _ => none

/-- The address, the length and the alignment of a load instruction, its destination, and the value it makes of the
bytes (R244, R245). -/
def loadOf (s : State) : Instr → Option (Space × Int × Nat × RegName × (Nat → Nat))
  | .vlda d a _ sp o _ => some (spOf sp, lsAddr s a o 64, 256, vReg d.toNat, fun v => v)
  | .lds d a _ sp z g o _ => some (spOf sp, lsAddr s a o (2 ^ z.toNat), 2 ^ z.toNat, xReg d.toNat,
      fun v => if g then intMod 64 (sextNat (8 * 2 ^ z.toNat) v) else v)
  | _ => none

/-- The alignment of a load: 64 for a vector, the size of a scalar. -/
def loadAlign (n : Nat) : Nat := if n = 256 then 64 else n

/-! ### Streams -/

/-- The address of an access of `n` bytes at a stream's position: the state after it (a tier-miss record may be withheld,
R72), the address, whether the page is not resident, and the stream's new marks. -/
def StreamAt (s : State) (k : Nat) (st : Stream) (n al : Nat) (s' : State) (a : Int) (miss : Bool) (st' : Stream) : Prop :=
  ∀ body : State → Int → Bool → Stream → State, withStAddr s k st 0 n al body = body s' a miss st'

/-- The bytes that a read at a stream's position takes. -/
def StreamReads (s : State) (k : Nat) (st : Stream) (n al : Nat) (s' : State) (bs : List Byte) (st' : Stream) : Prop :=
  ∀ body : State → List Byte → Stream → State, withStRead s k st n al body = body s' bs st'

/-- The index entry of page offset `p` (R71): a word of the index table, or, with imap, the word of the map table that it
names; the state after the reads, which count the words they correct (R394). -/
def EntryAt (s : State) (st : Stream) (p : Int) (u : State) (e : Nat) : Prop :=
  ∃ a w v, a = stItab st + 4 * (p / ((2 ^ stIshift st : Nat) : Int)) ∧ LoadGoes s .spad a 4 4 ∧
    v = countFixed s (spaceKey s.cur .spad a.toNat) 4 ∧ w = leNat (actRead s .spad a.toNat 4) ∧ entryBad w = false ∧
    if stImap st then
      ∃ b, b = stImapb st + 4 * (bitsOf w 0 20 : Nat) ∧ LoadGoes v .spad b 4 4 ∧
        u = countFixed v (spaceKey v.cur .spad b.toNat) 4 ∧ e = leNat (actRead v .spad b.toNat 4) ∧ entryBad e = false
    else u = v ∧ e = w

/-- The page number of page offset `p`. -/
def pageOf (st : Stream) (p : Int) : Nat := (p / ((2 ^ stIshift st : Nat) : Int) % (2 ^ 32 : Nat)).toNat

/-! ### The array -/

/-- The activation row of a MAC (R217, R221): of a v register, or read through a stream; the state after the read. -/
def ActRow (s : State) (src code : Nat) (s' : State) (a : List FVal) : Prop :=
  if 16 ≤ src then s' = s ∧ a = actReg s (src - 16) code
  else ∀ (body : State → List FVal → State) (ill : State → State), withActStream s src code body ill = body s' a

/-- The beats that an MWLD reads (R219): the state after the reads, their rows, and the stream's marks. -/
def BeatRows (s : State) (k : Nat) (st : Stream) (code k0 : Nat) (s' : State) (data : List (List PlaneRow)) (st' : Stream) :
    Prop :=
  ∀ body : State → List (List PlaneRow) → Stream → State,
    withBeats s k st code k0 (64 - k0) k0 st body = body s' data st'

/-- Row `n` may take a beat: no ACLD is on its way to it, no BF16 beat keeps the array, and the undo area has room. -/
def RowFree (s : State) (n : Nat) : Prop :=
  acldOn (actCtx s) n = false ∧ ((actRegs s).acode = 1 → (actCtx s).bf16Busy = false) ∧ undoOver (actCtx s) [n] = false ∧
    badWord s (accKey s.cur n 0) 4096 = none

/-- Column `n` of a beat: the old element first when the beat adds, then the products row by row (R53, R221). -/
def beatColumn (s : State) (a : List FVal) (add : Bool) (row n : Nat) : List FVal :=
  (if add then [fdecode f32 (elem 32 (accRow (curCore s) row).toNat n)] else []) ++
    (List.range (codeK (frontCode (actRegs s)))).map fun k =>
      termMul (a.getD k (.fin false 0 0)) ((planeVals (curCore s) (actRegs s) (actRegs s).front k).getD n (.fin false 0 0))

/-! ### Engines -/

/-- The launches of the engine slot (R261 to R273): the opcode in the card, and the operands of its address. -/
def launchOf : Instr → Option (Nat × BitVec 5 × BitVec 9)
  | .cpy a _ o _ => some (0x01, a, o)
  | .sca a _ o _ => some (0x02, a, o)
  | .fld a _ o _ => some (0x05, a, o)
  | .fst a _ o _ => some (0x06, a, o)
  | .fatm a _ o _ => some (0x07, a, o)
  | .frep a _ o _ => some (0x08, a, o)
  | .pfxlk a _ o _ => some (0x0B, a, o)
  | .pfxin a _ o _ => some (0x0C, a, o)
  | .pfxref a _ o _ => some (0x0D, a, o)
  | .pfxapp a _ o _ => some (0x0E, a, o)
  | .pfxev a _ o _ => some (0x0F, a, o)
  | .kvmrg a _ o _ => some (0x10, a, o)
  | _ => none

/-- A request is under way on its stream, open or waiting for room (R431). -/
def Underway (t : State) (lane : Nat) (o : OpenFlit) : Prop :=
  ∃ w, w ∈ t.router.tx ∧ w.lane = lane ∧ ∃ q, q ∈ w.opens ++ w.queue ∧ q.who = o.who ∧ q.part = o.part ∧ q.core = o.core ∧
    q.flit.type = o.flit.type ∧ q.flit.partition = o.flit.partition ∧ q.flit.route = o.flit.route ∧
    q.flit.payload = o.flit.payload

/-- An effect joins the pending-effect list of the issuing context. -/
def pended (s : State) (e : Effect) : State := modActCtx s fun x => { x with withheld := x.withheld ++ [e] }

/-! ### Checkpoints -/

/-- An effect without the bytes that its release reads. -/
def bareEffect : Effect → Effect
  | .send port type a len ticket _ => .send port type a len ticket none
  | e => e

/-- A FENCE that orders nothing (R285). -/
def emptyFence : Effect → Bool
  | .fence _ _ m => m == 0
  | _ => false

/-- The flits that have come of the token to which a token flit belongs, with it (R421). -/
def tokenSoFar (s : State) (f : Flit) : List Flit :=
  (if f.type = 1 then []
    else ((s.router.frags.find? fun g => g.schip == f.schip && g.port == tokenPort f).map (·.flits)).getD []) ++ [f]

/-- A receiving port of core `k` has raised RINGERR (R12, R16): the region's home hears of it, and nothing has landed. -/
def RingErrorAt (s t : State) (k region : Nat) : Prop :=
  (∀ r, findRegion s (partOf (getCore s k)) region = some r →
    ToldHome s t r (.error (partOf (getCore s k)) region 0x10 s.chip k)) ∧ SameCtx s t ∧ SameMem s t

/-- A control token of type `type` and tag `tag` has left every output port of a context (R20, R24, R404): on its way to
the consumer's ring, its credit spent on a FIFO port; at an egress port its credit comes back, and a marker closes the
wave of the tokens held there before it (R407, R476). -/
def Forwarded (s t : State) (k : Nat) (b : Bool) (type : Nat) (tag : Word) : Prop :=
  ∀ e, e ∈ (ctxAt s k b).cfg.outs → e.1 < 8 → ((ctxAt s k b).cfg.outs.map (·.1)).Nodup →
    (getOut (ctxAt t k b) e.1).credits = (getOut (ctxAt s k b) e.1).credits - (if e.2.reorder ∨ e.2.egress then 0 else 1) ∧
    (e.2.egress = false → ∀ g, g ∈ tokenFlits s (partOf (getCore s k)) e.2.peer (ctlToken (ctxAt s k b) b e.1 type tag) →
      Underway t tokenLane ⟨0, g, .token, partOf (getCore s k), (ctxAt s k b).region, 0, k⟩) ∧
    (e.2.egress = true → type = 2 → ∀ r, findRegion s (partOf (getCore s k)) (ctxAt s k b).region = some r → ∃ q,
      findRegion t (partOf (getCore s k)) (ctxAt s k b).region = some q ∧
      q.egress.filter (fun y => y.port == portAt s k b e.1) =
        (r.egress.filter fun y => y.port == portAt s k b e.1).map (egressMark (portAt s k b e.1) (tag.toNat % 2 ^ 32)))

/-- The control token at the head of every input port of a context has been popped (R18, R404); on a FIFO port its credit is
owed. -/
def PoppedCtl (s t : State) (k : Nat) (b : Bool) : Prop :=
  ∀ e, e ∈ ctlPorts (ctxAt s k b) → e.1 < 8 → ((ctxAt s k b).cfg.ins.map (·.1)).Nodup →
    (getIn (ctxAt t k b) e.1).toks = (popCtl e.2 (getIn (ctxAt s k b) e.1)).toks ∧
    (getIn (ctxAt t k b) e.1).ctl = (popCtl e.2 (getIn (ctxAt s k b) e.1)).ctl ∧
    (getIn (ctxAt t k b) e.1).owed = (popCtl e.2 (getIn (ctxAt s k b) e.1)).owed

/-! ### When an instruction completes -/

/-- The instruction has done its work: it has raised no trap, frozen nothing, met no memory error and asked for no implicit
checkpoint. -/
def GoesOn (s t : State) : Prop :=
  t.scr.trapped = s.scr.trapped ∧ t.scr.frozen = s.scr.frozen ∧ t.scr.memerr = s.scr.memerr ∧ t.scr.implicit = s.scr.implicit

/-- Nothing forbids a control instruction here: no delay bundle (R93), no last bundle of an active body (R96). -/
def CtlFree (s : State) (i : Instr) : Prop := ctlForbidden s i true true = none

/-- A taken branch has its bundle in its fetch buffer (R92, R142). -/
def TargetHere (s : State) (b : BitVec 2) (n : Bool) (p : BitVec 3) : Prop :=
  predTrue s n p = true → (getBt s b.toNat).bad = none ∧ (getBt s b.toNat).fetched = true

/-- HALT names cores of the partition, and they resume, or none of them still issues stage bundles (R344). -/
def HaltRuns (s : State) (v : Nat) : Prop :=
  v < 2 ^ 17 ∧ (∀ k, k ∈ maskCores v → foreignCore s k = false) ∧
  (bitOf v 16 = true ∨ ∀ k, k ∈ maskCores v → HaltsAtOnce (getCore s k))

/-- PSTOP names regions that are there, whose phase admits the stop or the thaw (R345). -/
def StopRuns (s : State) (v : Nat) : Prop :=
  v < 2 ^ 17 ∧ namedRegions s (v % 2 ^ 16) ≠ [] ∧
  ∀ r, r ∈ namedRegions s (v % 2 ^ 16) →
    if bitOf v 16 then mayThaw s r = true else r.phase ≠ .stopped ∧ r.phase ≠ .stopping

/-- TLBI has a well-formed operand that the partition may use, and nothing in flight uses what it removes (R348). -/
def TlbiRuns (s : State) (v w : Nat) : Prop :=
  v < 3 ∧ (v ≠ 1 → w = 0) ∧ (v = 2 → bitsOf (curCore s).partid.toNat 0 8 = 0) ∧
  (∀ c, c ∈ s.cores → ∀ j, j ∈ c.jobs → jobHolds v (bitsOf (curCore s).partid.toNat 8 16) j = false) ∧
  ∀ c, c ∈ s.accs → accHolds s v (bitsOf (curCore s).partid.toNat 8 16) c = false

/-- SLTW writes an entry of the partition's share, or its commit has been switched (R349). -/
def SlotRuns (s : State) (v w : Nat) : Prop :=
  (bitOf v 16 = false ∧ v < 2 ^ 17 ∧ bitsOf v 8 8 ≤ 145 ∧ (w ≤ 145 ∨ w = 0xFF) ∧ (slotShare s).1 ≤ bitsOf v 0 8 ∧
    bitsOf v 0 8 < (slotShare s).1 + (slotShare s).2) ∨
  (v = 2 ^ 16 ∧ w = 0 ∧ (curCore s).switchWait = some true)

/-- RETC empties a context, or both, that nothing keeps (R352). -/
def RetcRuns (s : State) (v : Nat) : Prop :=
  (v < 2 ∧ MayRetire s (v == 1)) ∨ (v = 2 ∧ MayRetire s false ∧ MayRetire s true)

/-- The context whose special registers the slot reaches has no producer that may still change register `n`, or there is
no such context (R175, R176, R330). -/
def SregFree (s : State) (n : Nat) : Prop :=
  ((curCore s).curator = false → sregWaits (actCtx s) n = false) ∧
  ((curCore s).curator = true → kIdle (curCore s) = true ∨
    sregWaits (getCtx (curCore s) (kCtx (curCore s))) n = false)

/-- When an instruction of the control slot, MFS or MTS completes normally: the conditions of R92 to R97, R140 to R157, R175
and R341 to R353 on the state and the operands. TRAP and BRK are not here: their effect is the entry. -/
inductive ControlRuns (s : State) : Instr → Prop
  | pbr (b : BitVec 2) (o : BitVec 24) :
      (0 ≤ (issueIndex (curCore s) : Int) + o.toInt ∧ (issueIndex (curCore s) : Int) + o.toInt ≤ 8191) →
      ControlRuns s (.pbr b o)
  | br (b : BitVec 2) (n : Bool) (p : BitVec 3) :
      (CtlFree s (.br b n p) ∧ TargetHere s b n p) →
      ControlRuns s (.br b n p)
  | call (d : BitVec 5) (b : BitVec 2) (n : Bool) (p : BitVec 3) :
      (CtlFree s (.call d b n p) ∧ TargetHere s b n p) →
      ControlRuns s (.call d b n p)
  | loopImm (v : BitVec 3) (l : BitVec 8) (t : BitVec 14) :
      (CtlFree s (.loopImm v l t) ∧ LoopFits s v.toNat l.toNat) →
      ControlRuns s (.loopImm v l t)
  | loopReg (v : BitVec 3) (l : BitVec 8) (a : BitVec 5) (e : Bool) :
      (CtlFree s (.loopReg v l a e) ∧ LoopFits s v.toNat l.toNat ∧ ux s a < 2 ^ 32) →
      ControlRuns s (.loopReg v l a e)
  | loopKeep (v : BitVec 3) (l : BitVec 8) :
      (CtlFree s (.loopKeep v l) ∧ LoopFits s v.toNat l.toNat) →
      ControlRuns s (.loopKeep v l)
  | loopsl (v : BitVec 3) (l : BitVec 8) (h : BitVec 4) :
      (CtlFree s (.loopsl v l h) ∧ LoopFits s v.toNat l.toNat) →
      ControlRuns s (.loopsl v l h)
  | lbrk (v : BitVec 3) (n : Bool) (p : BitVec 3) :
      (ctlForbidden s (.lbrk v n p) true false = none ∧ (predTrue s n p = true → ∃ l, l ∈ (actRegs s).loops ∧ l.lvl
       = v.toNat)) →
      ControlRuns s (.lbrk v n p)
  | waitb (d : BitVec 5) (a : BitVec 5) (e : Bool) (b : BitVec 5) (f : Bool) (n : Bool) (p : BitVec 3) :
      (LoadGoes s .spad (ux s a : Nat) 8 8 ∧ (bitsOf (actWord s (ux s a) 8) 48 16 ≠ ux s b % 2 ^ 16 ∨ bitOf (actWord
       s (ux s a) 8) 33 = true)) →
      ControlRuns s (.waitb d a e b f n p)
  | waitt (a : BitVec 5) (e : Bool) (o : BitVec 3) (n' : Bool) (p : BitVec 3) :
      (∃ c, ringCfg (actCtx s) o.toNat = some c ∧ ux s a ≤ (visibleToks c (getIn (actCtx s) o.toNat)).length ∧ ux s
       a ≤ 2 ^ c.n) →
      ControlRuns s (.waitt a e o n' p)
  | done (n : Bool) (p : BitVec 3) : CtlFree s (.done n p) → ControlRuns s (.done n p)
  | fence (k : BitVec 2) (s' : BitVec 2) (m : BitVec 16) (n : Bool) (p : BitVec 3) :
      (((curCore s).curator = false → pendCount (actCtx s) < 64) ∧ ((curCore s).curator = true → (∀ j, j ∈ (curCore
       s).jobs → j.owner = .cur → bitOf m.toNat j.cls = false) ∧ (k ≠ 1 → bitOf m.toNat 0 = true →
       baraOpen s s.cur true (inScope s s.cur s'.toNat) = false))) →
      ControlRuns s (.fence k s' m n p)
  | evpop (d : BitVec 5) (b : BitVec 5) (n : Bool) (p : BitVec 3) :
      (∃ base, (actCtx s).cfg.evq = some base) →
      ControlRuns s (.evpop d b n p)
  | rng (d : BitVec 5) (v : BitVec 3) (n : Bool) (p : BitVec 3) :
      ((∀ l, l ∈ (actRegs s).loops → l.lvl ≠ v.toNat) ∧ rngPending (actCtx s) v.toNat = false) →
      ControlRuns s (.rng d v n p)
  | mtc (a : BitVec 5) (e : Bool) (m : BitVec 11) (n : Bool) (p : BitVec 3) :
      ((m.toNat ≠ 5 ∧ m.toNat ≠ 0x10 ∧ m.toNat ≠ 0x11 ∧ m.toNat ≠ 0x12) ∨ NoJobs (curCore s)) →
      ControlRuns s (.mtc a e m n p)
  | halt (a : BitVec 5) (e : Bool) (n : Bool) (p : BitVec 3) : HaltRuns s (ux s a) → ControlRuns s (.halt a e n p)
  | haltResume (a : BitVec 5) (e : Bool) (n : Bool) (p : BitVec 3) :
      HaltRuns s (ux s a) →
      ControlRuns s (.haltResume a e n p)
  | pstop (a : BitVec 5) (e : Bool) (n : Bool) (p : BitVec 3) : StopRuns s (ux s a) → ControlRuns s (.pstop a e n p)
  | pstopThaw (a : BitVec 5) (e : Bool) (n : Bool) (p : BitVec 3) :
      StopRuns s (ux s a) →
      ControlRuns s (.pstopThaw a e n p)
  | pdrain (a : BitVec 5) (e : Bool) (n : Bool) (p : BitVec 3) :
      (ux s a < 2 ^ 16 ∧ namedRegions s (ux s a) ≠ [] ∧ ∀ r, r ∈ namedRegions s (ux s a) → r.phase = .running ∨
       r.phase = .drained) →
      ControlRuns s (.pdrain a e n p)
  | csave (a : BitVec 5) (e : Bool) (b : BitVec 5) (f : Bool) (n : Bool) (p : BitVec 3) :
      (ux s a < 2 ^ 17 ∧ ux s b < 2 ∧ ∀ k, k ∈ maskCores (ux s a) → saveRefused s k (ux s b) (bitOf (ux s a) 16) =
       false ∧ HaltsAtOnce (getCore s k) ∧ (getCtx (getCore s k) (bitOf (ux s a)
       16)).relq = []) →
      ControlRuns s (.csave a e b f n p)
  | cload (a : BitVec 5) (e : Bool) (b : BitVec 5) (f : Bool) (n : Bool) (p : BitVec 3) :
      (ux s a < 2 ^ 17 ∧ ux s b < 2 ∧ ∀ k, k ∈ maskCores (ux s a) → loadRefused s k (ux s b) (bitOf (ux s a) 16) =
       false ∧ shadowBad s k (ux s b) = false) →
      ControlRuns s (.cload a e b f n p)
  | tlbiAsid (a : BitVec 5) (e : Bool) (b : BitVec 5) (f : Bool) (n : Bool) (p : BitVec 3) :
      TlbiRuns s (ux s a) (ux s b) →
      ControlRuns s (.tlbiAsid a e b f n p)
  | tlbiPage (a : BitVec 5) (e : Bool) (b : BitVec 5) (f : Bool) (n : Bool) (p : BitVec 3) :
      TlbiRuns s (ux s a) (ux s b) →
      ControlRuns s (.tlbiPage a e b f n p)
  | tlbiAll (a : BitVec 5) (e : Bool) (b : BitVec 5) (f : Bool) (n : Bool) (p : BitVec 3) :
      TlbiRuns s (ux s a) (ux s b) →
      ControlRuns s (.tlbiAll a e b f n p)
  | sltw (a : BitVec 5) (e : Bool) (b : BitVec 5) (f : Bool) (n : Bool) (p : BitVec 3) :
      SlotRuns s (ux s a) (ux s b) →
      ControlRuns s (.sltw a e b f n p)
  | sltwCommit (a : BitVec 5) (e : Bool) (b : BitVec 5) (f : Bool) (n : Bool) (p : BitVec 3) :
      SlotRuns s (ux s a) (ux s b) →
      ControlRuns s (.sltwCommit a e b f n p)
  | lkey (a : BitVec 5) (e : Bool) (b : BitVec 5) (f : Bool) (n : Bool) (p : BitVec 3) :
      (ux s a < 2 ^ 8 ∧ ux s b % 32 = 0 ∧ (getLink s (ux s a % 128)).up = true ∧ LoadGoes s .spad (ux s b : Nat) 32
       32 ∧ (bitOf (ux s a) 7 = true → (getKey (getLink s (ux s a % 128)).rx (rowOf (curCore s)) (idleSlot (getLink
       s (ux s a % 128)).rx (rowOf (curCore s)))).state ≠ .held)) →
      ControlRuns s (.lkey a e b f n p)
  | lksw (a : BitVec 5) (e : Bool) (n : Bool) (p : BitVec 3) :
      (ux s a < 2 ^ 7 ∧ (getLink s (ux s a)).up = true ∧ (∃ q, activeSlot (getLink s (ux s a)).tx (rowOf (curCore
       s)) = some q) ∧ (getKey (getLink s (ux s a)).tx (rowOf (curCore s)) (idleSlot (getLink s (ux s a)).tx (rowOf
       (curCore s)))).state = .loaded ∧ ∀ w, w ∈ s.router.waiting → w.inp < 256) →
      ControlRuns s (.lksw a e n p)
  | retc (a : BitVec 5) (e : Bool) (n : Bool) (p : BitVec 3) :
      (s.cur < 16 ∧ RetcRuns s (ux s a)) →
      ControlRuns s (.retc a e n p)
  | retcCore (a : BitVec 5) (e : Bool) (n : Bool) (p : BitVec 3) :
      (s.cur < 16 ∧ RetcRuns s (ux s a)) →
      ControlRuns s (.retcCore a e n p)
  | jrsm (a : BitVec 5) (e : Bool) (n : Bool) (p : BitVec 3) :
      (ux s a % 128 = 0 ∧ ux s a < 2 ^ 23) →
      ControlRuns s (.jrsm a e n p)
  | jkil (a : BitVec 5) (e : Bool) (n : Bool) (p : BitVec 3) :
      (ux s a % 128 = 0 ∧ ux s a < 2 ^ 23) →
      ControlRuns s (.jkil a e n p)
  | mfs (d : BitVec 5) (n : BitVec 12) (p : BitVec 3) : SregFree s n.toNat → ControlRuns s (.mfs d n p)
  | mts (a : BitVec 5) (e : Bool) (n : BitVec 12) (p : BitVec 3) :
      (SregFree s n.toNat ∧ ((curCore s).curator = false → 0x20 ≤ n.toNat → n.toNat ≤ 0x23 → pendCount (actCtx s) <
       64)) →
      ControlRuns s (.mts a e n p)
  | pbrx (a : BitVec 5) (e : Bool) (b : BitVec 2) (n : Bool) (p : BitVec 3) : ControlRuns s (.pbrx a e b n p)
  | ckpt (n : Bool) (p : BitVec 3) : ControlRuns s (.ckpt n p)
  | getid (d : BitVec 5) (n : Bool) (p : BitVec 3) : ControlRuns s (.getid d n p)
  | rdct (d : BitVec 5) (c : BitVec 5) (n : Bool) (p : BitVec 3) : ControlRuns s (.rdct d c n p)
  | mfc (d : BitVec 5) (c : BitVec 11) (n : Bool) (p : BitVec 3) : ControlRuns s (.mfc d c n p)
  | mtcKcpc (a : BitVec 5) (e : Bool) (n : Bool) (p : BitVec 3) : ControlRuns s (.mtcKcpc a e n p)
  | tret (n : Bool) (p : BitVec 3) : ControlRuns s (.tret n p)
  | nop : ControlRuns s .nop

/-- No flag that the results of an arithmetic, vector or mask instruction raise is enabled as a trap (R52). -/
def Quiet (s : State) (i : Instr) : Prop :=
  (∀ lat ws fl, floatResult s i = some (lat, ws, fl) ∨ wholeResult s i = some (lat, ws, fl) → floatTrap s fl = 0) ∧
  (∀ d r, floatLong s i = some (d, r) → floatTrap s r.2 = 0) ∧
  (∀ lat d w m res, elemResult s i = some (lat, d, w, m, res) → floatTrap s (elemFlags s w m res) = 0) ∧
  ∀ t m ds f, specialResult s i = some (t, m, ds) → efmt t = .fl f → floatTrap s (specialFlags s t m f ds) = 0

/-- An instruction of the scalar and vector slots for which a table names the result: the integer, floating, compare and
predicate instructions, the element, whole-register and special functions, and the mask instructions. -/
def HasResult (s : State) (i : Instr) : Prop :=
  intResult s i ≠ none ∨ divResult s i ≠ none ∨ truthResult s i ≠ none ∨ floatResult s i ≠ none ∨ floatLong s i ≠ none ∨
  elemResult s i ≠ none ∨ wholeResult s i ≠ none ∨ specialResult s i ≠ none

/-- A job launch has a free queue slot and a card in the scratchpad (R254, R329). -/
def LaunchRuns (s : State) (a : Int) : Prop :=
  a % 128 = 0 ∧ 0 ≤ a ∧ a < 2 ^ 23 ∧
  ((curCore s).curator = false → queueRoom s = true ∧ pendCount (actCtx s) < 64) ∧
  ((curCore s).curator = true → curatorIdle s = true ∧ s.cur < 16)

/-- A stream read goes through and touches nothing but the marks that it gives (R71, R72, R242). -/
def ReadGoes (s : State) (k n al : Nat) : Prop :=
  ∃ s' bs st', StreamReads s k (getStream s k) n al s' bs st' ∧ s'.scr = s.scr

/-- A barrier operation in stage mode has room to be withheld (R269, R270); the curator has no job. -/
def BarrierRuns (s : State) : Prop :=
  ((curCore s).curator = false → queueRoom s = true ∧ pendCount (actCtx s) < 64) ∧
  ((curCore s).curator = true → curatorIdle s = true)

/-- When an instruction of the matrix slot, of the load/store slot or of the engine slot, or a chain instruction, completes
normally: the conditions of R198, R206, R218 to R238, R242 to R253 and R254 to R275 on the state and the operands. -/
inductive MemoryRuns (s : State) : Instr → Prop
  | vchc (s' : BitVec 3) (o : BitVec 5) (b : BitVec 5) (f : Bool) (t : BitVec 3) (h : BitVec 4) (u : BitVec 2) :
      (chainConstOk o.toNat ((if u = 1 then packElems 32 (List.replicate 64 (ux s b % 2 ^ 32)) else rv s b) % 2 ^
       32) = true) →
      MemoryRuns s (.vchc s' o b f t h u)
  | vch (d : BitVec 5) (a : BitVec 5) (e : Bool) (t : BitVec 3) (m : BitVec 4) :
      (∀ ys, ys = chainRun (frmOf s) (actRegs s).chain.toList (elems32 (rv s a)) → floatTrap s ((List.range
       64).foldl (fun f j => if laneOn (rm s m) (ys.getD 0 ⟨f32, 0, 0⟩).fmt.w j then f ||| (ys.getD j ⟨f32, 0,
       0⟩).fl else f) 0) = 0) →
      MemoryRuns s (.vch d a e t m)
  | vqnt (d : BitVec 5) (a : BitVec 5) (e : Bool) (b : BitVec 5) (f : Bool) (t : BitVec 3) (m : BitVec 4) :
      (qctlOk (ux s b) true = true ∧ bitOf (ux s b) 10 = true ∧ pendCount (actCtx s) < 64 ∧ floatTrap s (quantResult
       s a (ux s b) t m).2 = 0) →
      MemoryRuns s (.vqnt d a e b f t m)
  | mac (r : BitVec 8) (src : BitVec 5) (o : BitVec 2) (e : Bool) (p : BitVec 3) :
      (mfmtPair (actRegs s).acode.toNat (frontCode (actRegs s)) = true ∧ s.cur < 16 ∧ RowFree s r.toNat ∧ ∃ s' a,
       ActRow s src.toNat (actRegs s).acode.toNat s' a ∧ a.length = codeK (frontCode (actRegs s)) ∧ curCore s' =
       curCore s ∧ s'.cur = s.cur ∧ s'.flips = s.flips ∧ s'.scr = s.scr) →
      MemoryRuns s (.mac r src o e p)
  | mwld (k : BitVec 6) (n : BitVec 4) (p : BitVec 3) :
      (mwldIllegal (actRegs s) (getStream s n.toNat) = false ∧ s.cur < 16 ∧ (curCore s).mwld = none ∧ (actCtx
       s).copy.front = (actRegs s).front ∧ ∃ s' data st', BeatRows s n.toNat (getStream s n.toNat) (actRegs
       s).wcode.toNat k.toNat s' data st' ∧ s'.cores = s.cores ∧ s'.cur = s.cur ∧ s'.scr = s.scr) →
      MemoryRuns s (.mwld k n p)
  | mswp (p : BitVec 3) : (∀ l, (curCore s).mwld = some l → l.ctx ≠ runCtx (curCore s)) → MemoryRuns s (.mswp p)
  | mclr (r : BitVec 8) (c : BitVec 5) (p : BitVec 3) :
      (s.cur < 16 ∧ (∀ n, r.toNat ≤ n → n ≤ r.toNat + c.toNat → acldOn (actCtx s) n = false) ∧ undoOver (actCtx s)
       (rangeFrom r.toNat (r.toNat + c.toNat + 1)) = false) →
      MemoryRuns s (.mclr r c p)
  | mmpb (a : BitVec 5) (e : Bool) (p : BitVec 3) :
      (s.cur < 16 ∧ LoadGoes s .spad (ux s a : Nat) 1024 64 ∧ ∀ w, w = leNat (actRead s .spad (ux s a) 1024) →
       maskIllegal w = false ∧ (bitOf w 2 = true → LoadGoes s .spad (bitsOf w 224 23 : Nat) 4096 64)) →
      MemoryRuns s (.mmpb a e p)
  | mdrn (d : BitVec 5) (r : BitVec 8) (g : BitVec 4) (m : Bool) (c : Bool) (p : BitVec 3) :
      (r.toNat ∉ (actCtx s).macBusy ∧ acldOn (actCtx s) r.toNat = false ∧ (m = true ∨ c = true → (actCtx s).mmpbBusy
       = false) ∧ badWord s (accKey s.cur r.toNat (64 * g.toNat)) 256 = none) →
      MemoryRuns s (.mdrn d r g m c p)
  | mchk (p : BitVec 3) : (bitOf (actRegs s).ckpol.toNat 0 = true → pendCount (actCtx s) < 64) → MemoryRuns s (.mchk p)
  | mfix (p : BitVec 3) :
      ((actRegs s).fixEn = true → s.cur < 16 ∧ acldOn (actCtx s) (bitsOf (actRegs s).ckloc.toNat 0 8) = false ∧
       undoOver (actCtx s) [bitsOf (actRegs s).ckloc.toNat 0 8] = false ∧ badWord s (accKey s.cur (bitsOf (actRegs
       s).ckloc.toNat 0 8) (bitsOf (actRegs s).ckloc.toNat 8 10)) 4 = none) →
      MemoryRuns s (.mfix p)
  | vld (d : BitVec 5) (k : BitVec 4) (p : BitVec 3) :
      ((getStream s k.toNat).loaded = true ∧ stDir (getStream s k.toNat) = false ∧ mxOf (stFmt (getStream s
       k.toNat)) = none ∧ ReadGoes s k.toNat 256 64) →
      MemoryRuns s (.vld d k p)
  | vst (v : BitVec 5) (k : BitVec 4) (e : Bool) (p : BitVec 3) :
      ((getStream s k.toNat).loaded = true ∧ stDir (getStream s k.toNat) = true ∧ ∃ s' a miss st', StreamAt s
       k.toNat (getStream s k.toNat) 256 64 s' a miss st' ∧ s'.scr = s.scr ∧ (miss = false → storeTrap (putStream s'
       k.toNat st') (spaceOf (stSpace st')) a 256 64 = none ∧ StoreRoom (putStream s' k.toNat st'))) →
      MemoryRuns s (.vst v k e p)
  | vlda (d' : BitVec 5) (a' : BitVec 5) (e : Bool) (s' : Bool) (o : BitVec 10) (p : BitVec 3) :
      (∀ sp a n d g, loadOf s (.vlda d' a' e s' o p) = some (sp, a, n, d, g) → LoadGoes s sp a n (loadAlign n)) →
      MemoryRuns s (.vlda d' a' e s' o p)
  | lds (d' : BitVec 5) (a' : BitVec 5) (e : Bool) (s' : Bool) (z : BitVec 2) (g' : Bool) (o : BitVec 7) (p : BitVec
      3) :
      (∀ sp a n d g, loadOf s (.lds d' a' e s' z g' o p) = some (sp, a, n, d, g) → LoadGoes s sp a n (loadAlign n))
       →
      MemoryRuns s (.lds d' a' e s' z g' o p)
  | vsta (v : BitVec 5) (a' : BitVec 5) (e : Bool) (f : Bool) (s' : Bool) (o : BitVec 10) (p : BitVec 3) :
      (StoreRoom s ∧ ∀ sp a al bs, storeOf s (.vsta v a' e f s' o p) = some (sp, a, al, bs) → storeTrap s sp a
       bs.length al = none) →
      MemoryRuns s (.vsta v a' e f s' o p)
  | sts (v : BitVec 5) (a' : BitVec 5) (e : Bool) (f : Bool) (s' : Bool) (z : BitVec 2) (o : BitVec 7) (p : BitVec 3)
      :
      (StoreRoom s ∧ ∀ sp a al bs, storeOf s (.sts v a' e f s' z o p) = some (sp, a, al, bs) → storeTrap s sp a
       bs.length al = none) →
      MemoryRuns s (.sts v a' e f s' z o p)
  | acst (r : BitVec 8) (g : BitVec 4) (a : BitVec 5) (e : Bool) (p : BitVec 3) :
      (storeTrap s .spad (ux s a : Nat) 256 64 = none ∧ rowBusy s r.toNat = false ∧ acldOn (actCtx s) r.toNat =
       false ∧ badWord s (accKey s.cur r.toNat (64 * g.toNat)) 256 = none ∧ StoreRoom s) →
      MemoryRuns s (.acst r g a e p)
  | acld (r : BitVec 8) (s' : BitVec 4) (a : BitVec 5) (e : Bool) (p : BitVec 3) :
      (LoadGoes s .spad (ux s a : Nat) 256 64 ∧ undoOver (actCtx s) [r.toNat] = false) →
      MemoryRuns s (.acld r s' a e p)
  | stcfg (s' : BitVec 4) (a : BitVec 5) (e : Bool) (o : BitVec 10) (p : BitVec 3) :
      (LoadGoes s .spad (lsAddr s a o 64) 64 64 ∧ descIllegal (curCore s) (leNat (actRead s .spad (lsAddr s a o
       64).toNat 64)) = false) →
      MemoryRuns s (.stcfg s' a e o p)
  | stset (v : BitVec 5) (k : BitVec 4) (e : Bool) (l : BitVec 3) (p : BitVec 3) :
      ((getStream s k.toNat).loaded = true ∧ (l ≠ 6 → ux s v < stCount (getStream s k.toNat) l.toNat)) →
      MemoryRuns s (.stset v k e l p)
  | stadv (k : BitVec 4) (l : BitVec 3) (p : BitVec 3) :
      ((getStream s k.toNat).loaded = true) →
      MemoryRuns s (.stadv k l p)
  | rpop (o : BitVec 3) (p : BitVec 3) :
      (∃ c t l, ringCfg (actCtx s) o.toNat = some c ∧ visibleToks c (getIn (actCtx s) o.toNat) = t :: l) →
      MemoryRuns s (.rpop o p)
  | xrd (d : BitVec 5) (a : BitVec 5) (e : Bool) (o : BitVec 10) (p : BitVec 3) :
      (LoadGoes s .spad (lsAddr s a o 16) 16 16 ∧ ∀ w v fl, w = leNat (actRead s .spad (lsAddr s a o 16).toNat 16) →
       (v, fl) = roundTo f64 .rne (dyOfInt (sextNat 128 w) (actRegs s).xbp.toInt) → floatTrap s (if bitsOf w 119 9 =
       0 ∨ bitsOf w 119 9 = 511 then fl else fl ||| fXRANGE) = 0) →
      MemoryRuns s (.xrd d a e o p)
  | cpy (a : BitVec 5) (e : Bool) (o : BitVec 9) (p : BitVec 3) :
      LaunchRuns s (lsAddr s a o 128) →
      MemoryRuns s (.cpy a e o p)
  | sca (a : BitVec 5) (e : Bool) (o : BitVec 9) (p : BitVec 3) :
      LaunchRuns s (lsAddr s a o 128) →
      MemoryRuns s (.sca a e o p)
  | fld (a : BitVec 5) (e : Bool) (o : BitVec 9) (p : BitVec 3) :
      LaunchRuns s (lsAddr s a o 128) →
      MemoryRuns s (.fld a e o p)
  | fst (a : BitVec 5) (e : Bool) (o : BitVec 9) (p : BitVec 3) :
      LaunchRuns s (lsAddr s a o 128) →
      MemoryRuns s (.fst a e o p)
  | fatm (a : BitVec 5) (e : Bool) (o : BitVec 9) (p : BitVec 3) :
      LaunchRuns s (lsAddr s a o 128) →
      MemoryRuns s (.fatm a e o p)
  | frep (a : BitVec 5) (e : Bool) (o : BitVec 9) (p : BitVec 3) :
      LaunchRuns s (lsAddr s a o 128) →
      MemoryRuns s (.frep a e o p)
  | pfxlk (a : BitVec 5) (e : Bool) (o : BitVec 9) (p : BitVec 3) :
      LaunchRuns s (lsAddr s a o 128) →
      MemoryRuns s (.pfxlk a e o p)
  | pfxin (a : BitVec 5) (e : Bool) (o : BitVec 9) (p : BitVec 3) :
      LaunchRuns s (lsAddr s a o 128) →
      MemoryRuns s (.pfxin a e o p)
  | pfxref (a : BitVec 5) (e : Bool) (o : BitVec 9) (p : BitVec 3) :
      LaunchRuns s (lsAddr s a o 128) →
      MemoryRuns s (.pfxref a e o p)
  | pfxapp (a : BitVec 5) (e : Bool) (o : BitVec 9) (p : BitVec 3) :
      LaunchRuns s (lsAddr s a o 128) →
      MemoryRuns s (.pfxapp a e o p)
  | pfxev (a : BitVec 5) (e : Bool) (o : BitVec 9) (p : BitVec 3) :
      LaunchRuns s (lsAddr s a o 128) →
      MemoryRuns s (.pfxev a e o p)
  | kvmrg (a : BitVec 5) (e : Bool) (o : BitVec 9) (p : BitVec 3) :
      LaunchRuns s (lsAddr s a o 128) →
      MemoryRuns s (.kvmrg a e o p)
  | tsend (t : BitVec 5) (a : BitVec 5) (e : Bool) (b : BitVec 5) (f : Bool) (o : BitVec 3) (p : BitVec 3) :
      (ux s a % 16 = 0 ∧ ux s a + 16 + ux s b ≤ 2 ^ 23 ∧ actBad s .spad (ux s a) (16 + ux s b) = none ∧ pendCount (actCtx s) < 64 ∧ s.scr.implicit = false ∧ ∃ c,
       outCfg (actCtx s) o.toNat = some c ∧ ux s b % 16 = 0 ∧ 64 ≤ ux s b ∧ ux s b ≤ c.maxlen ∧ (c.reorder = false →
       (getOut (actCtx s) o.toNat).credits ≠ 0) ∧ (c.reorder = true → 2 ^ c.n ≤ 2 ^ 15 ∧ ∃ k, ticketDist k (getOut
       (actCtx s) o.toNat).head < 2 ^ c.n ∧ ((∃ rest, (getOut (actCtx s) o.toNat).granted = k :: rest) ∨ ((getOut
       (actCtx s) o.toNat).granted = [] ∧ LoadGoes s .spad (ux s a + 4 : Nat) 2 2 ∧ k = leNat (actRead s .spad (ux s
       a + 4) 2))))) →
      MemoryRuns s (.tsend t a e b f o p)
  | tktg (d : BitVec 5) (o : BitVec 3) (p : BitVec 3) :
      (∃ c, outCfg (actCtx s) o.toNat = some c ∧ c.reorder = true) →
      MemoryRuns s (.tktg d o p)
  | bara (a : BitVec 5) (e : Bool) (r : Bool) (p : BitVec 3) :
      (ux s a % 8 = 0 ∧ BarrierRuns s ∧ (if bitOf (ux s a) 63 then remoteBarBad (ux s a) = false else ux s a < 2 ^
       23)) →
      MemoryRuns s (.bara a e r p)
  | bari (a : BitVec 5) (e : Bool) (b : BitVec 5) (f : Bool) (p : BitVec 3) :
      (ux s a % 8 = 0 ∧ ux s a < 2 ^ 23 ∧ ux s b < 2 ^ 32 ∧ queueRoom s = true ∧ ((curCore s).curator = false →
       pendCount (actCtx s) < 64)) →
      MemoryRuns s (.bari a e b f p)
  | mark (p : BitVec 3) :
      (ctlPorts (actCtx s) = [] ∧ (∀ m, m ∈ membersOf s s.cur (runCtx (curCore s)) → ctlPorts (ctxAt s m.1 m.2) = [])
       ∧ noCredit (actCtx s) = none ∧ heldTicket (actCtx s) = none ∧ pendCount (actCtx s) < 64 ∧ s.scr.implicit =
       false) →
      MemoryRuns s (.mark p)
  | jstat (d : BitVec 3) (a : BitVec 5) (e : Bool) (p : BitVec 3) :
      (ux s a % 128 = 0 ∧ ux s a < 2 ^ 23 ∧ ((curCore s).curator = true ∨ (actCtx s).relq = []) ∧ badWord s
       (spaceKey s.cur .spad (ux s a + 4)) 2 = none) →
      MemoryRuns s (.jstat d a e p)
  | mfmt (a : BitVec 4) (w : BitVec 4) (p : BitVec 3) : MemoryRuns s (.mfmt a w p)
  | mloc (p : BitVec 3) : MemoryRuns s (.mloc p)
  | stget (d : BitVec 5) (s' : BitVec 4) (l : BitVec 3) (p : BitVec 3) : MemoryRuns s (.stget d s' l p)

end Sys2Proof.Machine
end

