-- ==== Sys2Proof/Certificates/Slice0/Obligations.lean ====
section
/-!
DEFINITION. The statements for the provers.
-/
open Sys2Proof Sys2Proof.Machine

/-- R160, R161, R163 to R165, R168 and R171: each integer instruction of the scalar slots puts its result in flight at
its latency, and does nothing else. R162: DIV, DIVU, REM and REMU claim their destination and deliver later; no
operand traps. R128, R166 and R169: integer compares and predicate logic write a q register at latency 1 and raise no
flag. -/
def Obligations.IntegerResults : Prop :=
  (∀ (s : State) (i : Instr) (lat : Nat) (d : BitVec 5) (v : Nat), intResult s i = some (lat, d, v) → Ready s i →
     exec i s = .next (sendReg s lat (xReg d.toNat) v)) ∧
  (∀ (s : State) (i : Instr) (d : BitVec 5) (v : Nat), divResult s i = some (d, v) → Ready s i →
     exec i s = .next (sendLong s [(xReg d.toNat, v)] 0 .plain)) ∧
  (∀ (s : State) (i : Instr) (d : BitVec 3) (P : Prop), truthResult s i = some (d, P) → Ready s i →
     ∃ v : Bool, (v = true ↔ P) ∧ exec i s = .next (sendReg s 1 (qReg d.toNat) (b01 v)))

/-- R167 and R170 to R174: a floating instruction of the scalar slots whose flags are not enabled as traps puts its
result in flight and notes its flags at issue (R51, R176). R87, R170 and R176: DDIV, DSQRT, FDIV and FSQRT claim their
destination; value and flags arrive together. R52: an enabled flag that a floating or vector instruction raises traps
FLOAT with the enabled flags that the slot raised as KVAL. -/
def Obligations.FloatResults : Prop :=
  (∀ (s : State) (i : Instr) (lat : Nat) (ws : List (RegName × Nat)) (fl : Flg), floatResult s i = some (lat, ws, fl) →
     Ready s i → floatTrap s fl = 0 → exec i s = .next (sendMany (noteFlags s fl) lat ws)) ∧
  (∀ (s : State) (i : Instr) (d : BitVec 5) (r : FRes), floatLong s i = some (d, r) → Ready s i → floatTrap s r.2 = 0 →
     exec i s = .next (sendLong s [(xReg d.toNat, r.1)] r.2 .float)) ∧
  (∀ (s : State) (i : Instr), Ready s i →
     (∀ lat ws fl, (floatResult s i = some (lat, ws, fl) ∨ wholeResult s i = some (lat, ws, fl)) → floatTrap s fl ≠ 0 →
       exec i s = .next (raise s 0x08 (floatTrap s fl))) ∧
     (∀ d r, floatLong s i = some (d, r) → floatTrap s r.2 ≠ 0 → exec i s = .next (raise s 0x08 (floatTrap s r.2))) ∧
     (∀ lat d w m res, elemResult s i = some (lat, d, w, m, res) → floatTrap s (elemFlags s w m res) ≠ 0 →
       exec i s = .next (raise s 0x08 (floatTrap s (elemFlags s w m res)))) ∧
     (∀ t m ds f, specialResult s i = some (t, m, ds) → efmt t = .fl f → floatTrap s (specialFlags s t m f ds) ≠ 0 →
       exec i s = .next (raise s 0x08 (floatTrap s (specialFlags s t m f ds)))))

/-- R178 and R183 to R201: an element instruction writes the elements of the selected lanes, keeps those of the
others, and notes the flags of the selected ones. Where the rules leave a choice the clause is the model’s own reading
(log entries 99 and 154). -/
def Obligations.ElementResults : Prop :=
  ∀ (s : State) (i : Instr) (lat : Nat) (d : BitVec 5) (w : Nat) (m : BitVec 4) (res : Nat → FRes),
    elemResult s i = some (lat, d, w, m, res) → Ready s i → floatTrap s (elemFlags s w m res) = 0 →
    ∃ v : Nat, exec i s = .next (sendReg (noteFlags s (elemFlags s w m res)) lat (vReg d.toNat) v) ∧
      v < 2 ^ 2048 ∧ ∀ j, j < 2048 / w → elem w v j = if laneOn (rm s m) w j then (res j).1 % 2 ^ w else elem w (rv s d) j

/-- R186, R192, R195, R197, R203, R204 and R209 to R211: the results of the vector and mask instructions that write
whole registers. Where the rules leave a choice the clause is the model’s own reading (log entries 105, 106, 155 and
156). -/
def Obligations.WholeResults : Prop :=
  ∀ (s : State) (i : Instr) (lat : Nat) (ws : List (RegName × Nat)) (fl : Flg), wholeResult s i = some (lat, ws, fl) →
    Ready s i → floatTrap s fl = 0 → exec i s = .next (sendMany (noteFlags s fl) lat ws)

/-- R212 to R214: a special function claims its destinations and delivers, element by element, its value in the
selected lanes and the old element in the others; its flags arrive with the result (R176). -/
def Obligations.SpecialResults : Prop :=
  ∀ (s : State) (i : Instr) (t : BitVec 3) (m : BitVec 4) (ds : List (BitVec 5 × (FFmt → Nat → FRes))) (f : FFmt),
    specialResult s i = some (t, m, ds) → Ready s i → efmt t = .fl f → floatTrap s (specialFlags s t m f ds) = 0 →
    ∃ g : BitVec 5 × (FFmt → Nat → FRes) → Nat,
      exec i s = .next (sendLong s (ds.map fun e => (vReg e.1.toNat, g e)) (specialFlags s t m f ds) .float) ∧
      ∀ e, e ∈ ds → ∀ j, j < 2048 / fmtBits t →
        elem (fmtBits t) (g e) j = if laneOn (rm s m) (fmtBits t) j then (e.2 f j).1 % 2 ^ fmtBits t else va s e.1 t j

/-- R206: VCHC sets one chain stage for the bundles that follow, its constant read at issue. R207: VCH runs the 64
FP32 elements of va through the six stages as they stand and delivers later; a deselected lane keeps the old bits. R55
and R198: a VQNT whose control word asks for it withholds a max-magnitude effect over the selected elements beside its
result; a word that breaks the table traps ILLEGAL. Where the rules leave a choice the clause is the model’s own
reading (log entries 42, 44 and 45). -/
def Obligations.ChainsAndQuants : Prop :=
  (∀ (s : State) (n : BitVec 3) (o b : BitVec 5) (f : Bool) (t : BitVec 3) (h : BitVec 4) (u : BitVec 2) (c : Nat),
     Ready s (.vchc n o b f t h u) →
     c = (if u = 1 then packElems 32 (List.replicate 64 (ux s b % 2 ^ 32)) else rv s b) →
     exec (.vchc n o b f t h u) s = .next (
       if chainConstOk o.toNat (c % 2 ^ 32) then
         modAct s fun r => { r with chain := r.chain.setIfInBounds n.toNat ⟨o.toNat, BitVec.ofNat 2048 c, h.toNat⟩ }
       else raise s 0x01 ((encode (.vchc n o b f t h u)).getD 0))) ∧
  (∀ (s : State) (d a : BitVec 5) (e : Bool) (t : BitVec 3) (m : BitVec 4) (ys : List ChainEl) (fl : Flg),
     Ready s (.vch d a e t m) → ys = chainRun (frmOf s) (actRegs s).chain.toList (elems32 (rv s a)) →
     fl = (List.range 64).foldl (fun f j =>
       if laneOn (rm s m) (ys.getD 0 ⟨f32, 0, 0⟩).fmt.w j then f ||| (ys.getD j ⟨f32, 0, 0⟩).fl else f) 0 →
     floatTrap s fl = 0 →
     ∃ v, exec (.vch d a e t m) s = .next (sendLong s [(vReg d.toNat, v)] fl .chain) ∧
       ∀ i, i < 16 → bitsOf v (128 * i) 128 = if (rm s m).getLsbD i then
         bitsOf (packElems (ys.getD 0 ⟨f32, 0, 0⟩).fmt.w (ys.map (·.b))) (128 * i) 128 else bitsOf (rv s d) (128 * i) 128) ∧
  (∀ (s : State) (d a : BitVec 5) (e : Bool) (b : BitVec 5) (f : Bool) (t : BitVec 3) (m : BitVec 4),
     Ready s (.vqnt d a e b f t m) →
     (qctlOk (ux s b) true = true → bitOf (ux s b) 10 = true → pendCount (actCtx s) < 64 →
       floatTrap s (quantResult s a (ux s b) t m).2 = 0 →
       ∃ ms nan, exec (.vqnt d a e b f t m) s = .next (sendReg
           (modActCtx (noteFlags s (quantResult s a (ux s b) t m).2) fun x =>
             { x with withheld := x.withheld ++ [.amax (bitsOf (ux s b) 8 2) ms nan] })
           3 (vReg d.toNat) (quantResult s a (ux s b) t m).1) ∧
         (∀ v, v ∈ ms ↔ ∃ j, j < 2048 / fmtBits t ∧ laneOn (rm s m) (fmtBits t) j = true ∧
           magFp32 (flFmt t) (va s a t j) = some v) ∧
         (nan = true ↔ ∃ j, j < 2048 / fmtBits t ∧ laneOn (rm s m) (fmtBits t) j = true ∧
           fisNan (flFmt t) (va s a t j) = true)) ∧
     (qctlOk (ux s b) true = false → exec (.vqnt d a e b f t m) s =
       .next (raise s 0x01 ((encode (.vqnt d a e b f t m)).getD 0))) ∧
     (Ready s (.vdqnt d a e b f t m) → qctlOk (ux s b) false = false → exec (.vdqnt d a e b f t m) s =
       .next (raise s 0x01 ((encode (.vdqnt d a e b f t m)).getD 0))))

/-- R86, R89 to R91: while no flag traps, an arithmetic, vector or mask instruction changes no register, no special
register, no accumulator and no byte of memory when it issues: its results are in flight or claimed, and its flags
noted. -/
def Obligations.ResultFrame : Prop :=
  ∀ (s t : State) (i : Instr), Ready s i →
    ((∃ r, intResult s i = some r) ∨ (∃ r, divResult s i = some r) ∨ (∃ r, truthResult s i = some r) ∨
     (∃ lat ws fl, floatResult s i = some (lat, ws, fl) ∧ floatTrap s fl = 0) ∨
     (∃ d r, floatLong s i = some (d, r) ∧ floatTrap s r.2 = 0) ∨
     (∃ lat d w m res, elemResult s i = some (lat, d, w, m, res) ∧ floatTrap s (elemFlags s w m res) = 0) ∨
     (∃ lat ws fl, wholeResult s i = some (lat, ws, fl) ∧ floatTrap s fl = 0) ∨
     (∃ t m ds f, specialResult s i = some (t, m, ds) ∧ efmt t = .fl f ∧ floatTrap s (specialFlags s t m f ds) = 0)) →
    exec i s = .next t → OnlyFlight s t ∧ SameMem s t

/-- R59, R89 and R90: of the results of a register set whose count has expired, the latest for a full register is
written; an empty register and every register that none is for keep their values; the others stay in flight. R59 and
R60: x0 reads 0, m0 all ones and q0 true, whatever is written to them, and they are always full. R87, R90 and R92: the
deliveries of a core: a branch fetch that completes, the fixed-latency results that are due, and a long-latency
result, which makes its register full and raises its flags. Where the rules leave a choice the clause is the model’s
own reading (log entry 100). -/
def Obligations.Deliveries : Prop :=
  (∀ (c : Core) (w : Who) (n : RegName), n.num < fileSize n.file → hardWired n = false →
     (isFull (getRegs c w) n = true → readReg (getRegs (deliverDue c w) w) n =
       match (((getRegs c w).flight.filter fun f => f.count == 0 && f.dest == n).getLast?) with
       | some f => f.val % 2 ^ fileWidth n.file
       | none => readReg (getRegs c w) n) ∧
     (isFull (getRegs c w) n = false → readReg (getRegs (deliverDue c w) w) n = readReg (getRegs c w) n) ∧
     (getRegs (deliverDue c w) w).flight = (getRegs c w).flight.filter (fun f => f.count != 0) ∧
     isFull (getRegs (deliverDue c w) w) n = isFull (getRegs c w) n) ∧
  (∀ (r : Regs) (v : Nat) (n : RegName), hardWired n = true →
     writeReg r n v = r ∧ readX r 0 = 0 ∧ readM r 0 = 0xFFFF ∧ readQ r 0 = true ∧
     ∀ f, isFull (setFull r (xReg 0) f) (xReg 0) = true ∧ isFull (setFull r (mReg 0) f) (mReg 0) = true) ∧
  (∀ (s : State) (k : Nat) (w : Who) (n : Nat), k < 16 →
     (n < 4 → ∃ t, exec (.branchFetchComplete k w n) s = .next t ∧
       (getRegs (getCore t k) w).bt.getD n .reset = { (getRegs (getCore s k) w).bt.getD n .reset with fetched := true } ∧
       SameMem s t) ∧
     exec (.fixedResultDelivery k w) s = .next (setCore s k (deliverDue (getCore s k) w)) ∧
     (∀ d v fl, (getProd (getCore s k) w)[n]? = some (.value [(d, v)] fl .plain) → d.num < fileSize d.file →
       hardWired d = false → ∃ t, exec (.longLatencyWriteback k w n) s = .next t ∧
         readReg (getRegs (getCore t k) w) d = v % 2 ^ fileWidth d.file ∧ isFull (getRegs (getCore t k) w) d = true ∧
         (getRegs (getCore t k) w).fst = ((getRegs (getCore s k) w).fst ||| fl) ∧
         getProd (getCore t k) w = (getProd (getCore s k) w).eraseIdx n ∧ SameMem s t) ∧
     (∀ ws fl kd, (getProd (getCore s k) w)[n]? = some (.value ws fl kd) →
       (kd = .chain → ∀ q, q ∈ (getProd (getCore s k) w).take n → isChain q = false) →
       ∃ t, exec (.longLatencyWriteback k w n) s = .next t ∧
         getProd (getCore t k) w = (getProd (getCore s k) w).eraseIdx n ∧
         (getRegs (getCore t k) w).fst = ((getRegs (getCore s k) w).fst ||| fl) ∧ SameMem s t))

/-- R84, R86, R88, R89 and R119: when a slot instruction acts. Its fields are legal and the mode may run it; its
guard's register is full and the guard holds; every source and destination is full. R84 and R124: a field with a
reserved value, or an instruction outside the curator's set in curator mode, traps ILLEGAL; a system instruction in
stage mode traps PRIV; KVAL is the slot word, and the guard does not matter. R86: an instruction whose guard is full
and false does nothing. R88, R89 and R91: an empty guard freezes the bundle; with its guard true, an empty source
whose e bit is set traps EMPTY with the register as KVAL; any other empty source or destination freezes the bundle. -/
def Obligations.SlotGates : Prop :=
  (∀ (s : State) (i : Instr), Ready s i ↔
     (i.wf = true ∧ (if (curCore s).curator then curatorOk i = true else isPriv i = false)) ∧
     guardFull (actRegs s) i = true ∧ guardTrue (actRegs s) i = true ∧
     (∀ q, q ∈ srcsOf i → isFull (actRegs s) q.1 = true) ∧ (∀ d, d ∈ dstsOf i → isFull (actRegs s) d = true)) ∧
  (∀ (s : State) (i : Instr), isSlot i = true →
     (i.wf = false → exec i s = .next (raise s 0x01 ((encode i).getD 0))) ∧
     (i.wf = true → (curCore s).curator = true → curatorOk i = false →
       exec i s = .next (raise s 0x01 ((encode i).getD 0))) ∧
     (i.wf = true → (curCore s).curator = false → isPriv i = true →
       exec i s = .next (raise s 0x02 ((encode i).getD 0)))) ∧
  (∀ (s : State) (i : Instr), isSlot i = true → decodeCause (curCore s).curator i = none →
     ctlForbidden s i true true = none → guardFull (actRegs s) i = true → guardTrue (actRegs s) i = false →
     exec i s = .next s) ∧
  (∀ (s : State) (i : Instr), isSlot i = true → decodeCause (curCore s).curator i = none →
     ctlForbidden s i true true = none → (guardFull (actRegs s) i = false → exec i s = .next (freeze s .register)) ∧
     (guardFull (actRegs s) i = true → guardTrue (actRegs s) i = true →
     (∀ n, emptySrc (actRegs s) i = some n → exec i s = .next (raise s 0x03 (n.num + 32 * fileCode n.file))) ∧
     (emptySrc (actRegs s) i = none → ((∃ q, q ∈ srcsOf i ∧ isFull (actRegs s) q.1 = false) ∨
         (∃ d, d ∈ dstsOf i ∧ isFull (actRegs s) d = false)) →
       exec i s = .next (freeze s .register))))

/-- R121, R140 and R141: PBR prepares the bundle at its offset from its own index, which must lie in program store;
PBRX prepares the bundle that a register names, and marks the register bad above 8191. R92, R141 to R143: BR and CALL.
Untaken they only make the next bundle a delay bundle; taken they go to the target after it, once the fetch buffer
holds it, and CALL links to the bundle after the delay bundle. -/
def Obligations.Branches : Prop :=
  (∀ (s : State) (b : BitVec 2),
     (∀ o : BitVec 24, Ready s (.pbr b o) →
       exec (.pbr b o) s = .next (
         if 0 ≤ (issueIndex (curCore s) : Int) + o.toInt ∧ (issueIndex (curCore s) : Int) + o.toInt ≤ 8191 then
           setBt s b.toNat ⟨BitVec.ofInt 16 ((issueIndex (curCore s) : Int) + o.toInt), false, none⟩
         else raise s 0x01 ((encode (.pbr b o)).getD 0))) ∧
     (∀ a e n p, Ready s (.pbrx a e b n p) →
       exec (.pbrx a e b n p) s = .next (setBt s b.toNat
         (if ux s a ≤ 8191 then ⟨BitVec.ofNat 16 (ux s a), false, none⟩
          else ⟨(getBt s b.toNat).target, false, some (rx s a)⟩)))) ∧
  (∀ (s : State) (b : BitVec 2) (n : Bool) (p : BitVec 3) (d : BitVec 5),
     (CtlReady s (.br b n p) →
       (predTrue s n p = false → exec (.br b n p) s = .next (setAct s (.branch none false))) ∧
       (predTrue s n p = true → ∀ v, (getBt s b.toNat).bad = some v →
         exec (.br b n p) s = .next (setAct s (.branch (some (.bad v)) false))) ∧
       (predTrue s n p = true → (getBt s b.toNat).bad = none → (getBt s b.toNat).fetched = true →
         exec (.br b n p) s = .next (setAct s (.branch (some (.goto (getBt s b.toNat).target.toNat)) false))) ∧
       (predTrue s n p = true → (getBt s b.toNat).bad = none → (getBt s b.toNat).fetched = false →
         exec (.br b n p) s = .next (freeze s .fetch))) ∧
     (CtlReady s (.call d b n p) →
       (predTrue s n p = false → exec (.call d b n p) s = .next (setAct s (.branch none true))) ∧
       (predTrue s n p = true → ∀ v, (getBt s b.toNat).bad = some v → exec (.call d b n p) s = .next (setAct
         (sendReg s 1 (xReg d.toNat) ((issueIndex (curCore s) + 2) % 2 ^ 64)) (.branch (some (.bad v)) true))) ∧
       (predTrue s n p = true → (getBt s b.toNat).bad = none → (getBt s b.toNat).fetched = false →
         exec (.call d b n p) s = .next (freeze s .fetch)) ∧
       (predTrue s n p = true → (getBt s b.toNat).bad = none → (getBt s b.toNat).fetched = true →
         exec (.call d b n p) s = .next (setAct (sendReg s 1 (xReg d.toNat) ((issueIndex (curCore s) + 2) % 2 ^ 64))
           (.branch (some (.goto (getBt s b.toNat).target.toNat)) true)))))

/-- R94, R95, R144 and R145: a level that may be declared here takes its body and its trip: an immediate, a register
below 2^32, its own kept counter and trip, or the sequence length divided by a power of two and rounded up. R94 and
R393: a level that is already active traps LOOP with reason 1; else one at or below an active level with reason 2;
else a body that leaves an active body with reason 3. Where the rules leave a choice the clause is the model’s own
reading (log entry 30). -/
def Obligations.Loops : Prop :=
  (∀ (s : State) (v : BitVec 3) (len : BitVec 8), LoopFits s v.toNat len.toNat →
     (∀ t : BitVec 14, CtlReady s (.loopImm v len t) →
       exec (.loopImm v len t) s = .next (loopDeclared s v.toNat len.toNat 0 t.toNat)) ∧
     (∀ a e, CtlReady s (.loopReg v len a e) → ux s a < 2 ^ 32 →
       exec (.loopReg v len a e) s = .next (loopDeclared s v.toNat len.toNat 0 (ux s a))) ∧
     (∀ a e, CtlReady s (.loopReg v len a e) → 2 ^ 32 ≤ ux s a →
       exec (.loopReg v len a e) s = .next (raise s 0x0E (v.toNat + 6 * 2 ^ 8))) ∧
     (CtlReady s (.loopKeep v len) → exec (.loopKeep v len) s = .next (setAct s
       (.loop ⟨v.toNat, issueIndex (curCore s) + 1, issueIndex (curCore s) + 1 + len.toNat⟩
         (decide (((actRegs s).lc.getD v.toNat 0).toNat < ((actRegs s).lt.getD v.toNat 0).toNat))))) ∧
     (∀ h : BitVec 4, CtlReady s (.loopsl v len h) →
       exec (.loopsl v len h) s = .next (loopDeclared s v.toNat len.toNat 0 (((actRegs s).sl.toNat + 2 ^ h.toNat - 1) / 2 ^ h.toNat)))) ∧
  (∀ (s : State) (v : BitVec 3) (len : BitVec 8) (t : BitVec 14), CtlReady s (.loopImm v len t) →
     rngPending (actCtx s) v.toNat = false →
     ((∃ l, l ∈ (actRegs s).loops ∧ l.lvl = v.toNat) →
       exec (.loopImm v len t) s = .next (raise s 0x0E (v.toNat + 1 * 2 ^ 8))) ∧
     ((∀ l, l ∈ (actRegs s).loops → l.lvl ≠ v.toNat) → (∃ l, l ∈ (actRegs s).loops ∧ v.toNat ≤ l.lvl) →
       exec (.loopImm v len t) s = .next (raise s 0x0E (v.toNat + 2 * 2 ^ 8))) ∧
     ((∀ l, l ∈ (actRegs s).loops → l.lvl < v.toNat) →
       (∃ l, l ∈ (actRegs s).loops ∧ l.first ≤ issueIndex (curCore s) ∧ issueIndex (curCore s) ≤ l.last ∧
         l.last < issueIndex (curCore s) + 1 + len.toNat) →
       exec (.loopImm v len t) s = .next (raise s 0x0E (v.toNat + 3 * 2 ^ 8))))

/-- R92 to R97: where the sequencer goes after the bundle at `i`. A delay bundle of a taken branch goes to its target,
and a BR out of the innermost body leaves active only the levels whose bodies hold the target; a branch makes the next
bundle a delay bundle; a declared body is entered or passed over; the end of a body steps its counter, advances the
index of its level in every loaded stream by one modulo its count (0 where the dimension is absent), returns the
deeper indices to 0, and goes back while the counter is below the trip; every other bundle is followed by the next
one. R83 to R86: where the fetch stops. A bundle index outside the context's share traps PROGBOUND with the index; of
a bundle, the lowest slot with a decode cause is reported, before any empty source; an empty source that the bundle
would read and was told to trap on comes next, and then a wait freezes the core. Where the rules leave a choice the
clause is the model’s own reading (log entry 33). -/
def Obligations.Sequencing : Prop :=
  (∀ (r : Regs) (i : Nat) (act : CtlAct),
     (∀ j n call, r.next = .delay j (some (.goto n)) call → (advance r i act).next = .at n ∧
       (call = true → (advance r i act).loops = r.loops) ∧
       (call = false → ∀ l rest, r.loops = l :: rest →
         (l.first ≤ n → n ≤ l.last → (advance r i act).loops = r.loops) ∧
         (n < l.first ∨ l.last < n → (advance r i act).loops =
           r.loops.filter fun l => decide (l.first ≤ n) && decide (n ≤ l.last)))) ∧
     (∀ j v call, r.next = .delay j (some (.bad v)) call → (advance r i act).next = .badTarget v) ∧
     (∀ j, r.next = .at j →
       (∀ t call, advance r i (.branch t call) = { r with next := .delay (i + 1) t call }) ∧
       (∀ l, (advance r i (.loop l true)).next = .at (i + 1) ∧ (advance r i (.loop l true)).loops = l :: r.loops) ∧
       (∀ l, advance r i (.loop l false) = { r with next := .at (l.last + 1) }) ∧
       (advance r i .done).next = .openFiring ∧ (advance r i .done).loops = [] ∧
       ((∀ l, l ∈ r.loops → l.last ≠ i) → advance r i .none = { r with next := .at (i + 1) }) ∧
       (∀ l rest, r.loops = l :: rest → l.last = i → l.lvl < 6 →
         (((r.lc.getD l.lvl 0).toNat + 1) % 2 ^ 32 < (r.lt.getD l.lvl 0).toNat →
           (advance r i .none).next = .at l.first ∧ (advance r i .none).loops = r.loops ∧
           (advance r i .none).lc.getD l.lvl 0 = r.lc.getD l.lvl 0 + 1) ∧
         ((r.lt.getD l.lvl 0).toNat ≤ ((r.lc.getD l.lvl 0).toNat + 1) % 2 ^ 32 → (∀ m, m ∈ rest → m.last ≠ i) →
           (advance r i .none).next = .at (i + 1) ∧ (advance r i .none).loops = r.loops.filter fun m => m.lvl != l.lvl) ∧
         ((∀ m, m ∈ rest → m.last ≠ i) → ∀ (k j : Nat), k < 16 → j < 6 → ∀ x y, x = r.st.getD k .reset →
           y = (advance r i .none).st.getD k .reset → y.desc = x.desc ∧ y.loaded = x.loaded ∧
           (x.loaded = true → nth 0 y.idx j = if j < l.lvl then nth 0 x.idx j else if j = l.lvl ∧ stCount x j ≠ 0 then
             (nth 0 x.idx j + 1) % stCount x j else 0) ∧
           (x.loaded = false → y.idx = x.idx))))) ∧
  (∀ (s : State) (i : Nat) (l : List (Nat × Instr)), l = bundleInstrs (curCore s) i →
     (∀ e, l.find? (fun e => (slotCause s i l e).isSome) = some e → ∃ c, slotCause s i l e = some c ∧
       issueDecoded exec s i l = bundleTrap s ⟨c, e.1, false, none, BitVec.ofNat 64 (slotWord (curCore s) i e.1)⟩) ∧
     (∀ e r, l.find? (fun e => (slotCause s i l e).isSome) = none → l.find? (fun e => (slotEmpty s e).isSome) = some e →
       slotEmpty s e = some r →
       issueDecoded exec s i l = bundleTrap s ⟨0x03, e.1, false, none, BitVec.ofNat 64 (emptyVal r)⟩) ∧
     (l.find? (fun e => (slotCause s i l e).isSome) = none → l.find? (fun e => (slotEmpty s e).isSome) = none →
       l.any (fun e => slotWaits s e) = true → issueDecoded exec s i l = bundleFreeze s .register) ∧
     (∀ b, (getCtx (curCore s) b).live.next = .at i →
       (i < (getCtx (curCore s) b).cfg.first ∨ (getCtx (curCore s) b).cfg.first + (getCtx (curCore s) b).cfg.size ≤ i) →
       issueStage exec s b = fetchTrap s i (BitVec.ofNat 64 i)))

/-- R146, R150, R151 and R152 with R99: LBRK leaves an active level when its condition holds and traps LOOP at an
inactive one; DONE and CKPT end the bundle with a checkpoint; FENCE is withheld in stage mode, and in curator mode
waits for the curator's jobs of its classes and, as a release, for the curator's barrier arrivals on other packages;
NOP does nothing. R147 and R148: WAITB loads a barrier word and goes on once its phase has left xb's or it is
cancelled; WAITT goes on once its port shows the wanted number of tokens. Where the rules leave a choice the clause is
the model’s own reading (log entries 32 and 55). -/
def Obligations.BoundariesAndWaits : Prop :=
  (∀ (s : State) (n : Bool) (p : BitVec 3),
     (∀ v : BitVec 3, Ready s (.lbrk v n p) → ctlForbidden s (.lbrk v n p) true false = none →
       exec (.lbrk v n p) s = .next (
         if predTrue s n p = false then s
         else if (actRegs s).loops.all (fun l => l.lvl != v.toNat) then raise s 0x0E (v.toNat + 5 * 2 ^ 8)
         else setAct s (.brk v.toNat))) ∧
     (CtlReady s (.done n p) → exec (.done n p) s = .next (setAct s .done)) ∧
     (Ready s (.ckpt n p) → exec (.ckpt n p) s = .next (setAct s .ckpt)) ∧
     (∀ k sc m, Ready s (.fence k sc m n p) → (curCore s).curator = false → pendCount (actCtx s) < 64 →
       exec (.fence k sc m n p) s =
         .next (modActCtx s fun x => { x with withheld := x.withheld ++ [.fence k.toNat sc.toNat m] })) ∧
     (∀ k sc m, Ready s (.fence k sc m n p) → (curCore s).curator = true →
       exec (.fence k sc m n p) s = .next (
         if (∃ j, j ∈ (curCore s).jobs ∧ j.owner = .cur ∧ bitOf m.toNat j.cls = true) ∨
             (k ≠ 1 ∧ bitOf m.toNat 0 = true ∧ baraOpen s s.cur true (inScope s s.cur sc.toNat) = true) then
           freeze s .fence else s)) ∧
     (Ready s .nop → exec .nop s = .next s)) ∧
  (∀ (s : State) (a : BitVec 5) (e n : Bool) (p : BitVec 3),
     (∀ d b f w, Ready s (.waitb d a e b f n p) → LoadGoes s .spad (ux s a : Nat) 8 8 → w = actWord s (ux s a) 8 →
       (bitsOf w 48 16 ≠ ux s b % 2 ^ 16 ∨ bitOf w 33 = true →
         exec (.waitb d a e b f n p) s = .next (sendReg (countFixed s (spaceKey s.cur .spad (ux s a)) 8) 1 (xReg d.toNat)
           (w % 2 ^ 64))) ∧
       (bitsOf w 48 16 = ux s b % 2 ^ 16 → bitOf w 33 = false →
         exec (.waitb d a e b f n p) s = .next (freeze (countFixed s (spaceKey s.cur .spad (ux s a)) 8) .waitb))) ∧
     (∀ d b f c v, Ready s (.waitb d a e b f n p) → accessTrap s .spad (ux s a : Nat) 8 8 = some (c, v) →
       exec (.waitb d a e b f n p) s = .next (raise s c v)) ∧
     (∀ o : BitVec 3, Ready s (.waitt a e o n p) →
       (∀ c, ringCfg (actCtx s) o.toNat = some c →
         (ux s a ≤ (visibleToks c (getIn (actCtx s) o.toNat)).length → ux s a ≤ 2 ^ c.n → exec (.waitt a e o n p) s = .next s) ∧
         ((visibleToks c (getIn (actCtx s) o.toNat)).length < ux s a → ux s a ≤ 2 ^ c.n →
           exec (.waitt a e o n p) s = .next (freeze s (.waitt o.toNat))) ∧
         (2 ^ c.n < ux s a → exec (.waitt a e o n p) s = .next (raise s 0x10 (ringVal o.toNat false 5)))) ∧
       (ringCfg (actCtx s) o.toNat = none → exec (.waitt a e o n p) s = .next (raise s 0x10 (ringVal o.toNat false 1)))))

/-- R149, R154, R156 and R157: EVPOP and RNG claim their destinations until the answer arrives; GETID and RDCT read
the identity and the counters of their context. R62, R64, R175, R239 and R330: MFS reads a special register of its
context, as it stood in the issue cycle (R86), zero-extended; MTS writes one for the bundles that follow, and defers
am0 to am3; both wait for producers that may still change the register. After its bundle the register that an MTS
names reads as the bits of the operand that it holds, ckpol with bits 2 and 1 zero, and every other special register
as before. Where the rules leave a choice the clause is the model’s own reading (log entries 97 and 102). -/
def Obligations.ContextRegisters : Prop :=
  (∀ (s : State) (d b : BitVec 5) (n : Bool) (p : BitVec 3) (x : Context) (c : Core),
     c = curCore s → x = (if (if c.curator then kCtx c else runCtx c) then c.ctxB else c.ctxA) →
     (Ready s (.evpop d b n p) →
       ((∃ base, (actCtx s).cfg.evq = some base) → exec (.evpop d b n p) s =
         .next (addProducer (claim s [xReg d.toNat, xReg b.toNat]) (.evpop d.toNat b.toNat))) ∧
       ((actCtx s).cfg.evq = none → exec (.evpop d b n p) s = .next (raise s 0x10 (ringVal 0 false 6)))) ∧
     (∀ v : BitVec 3, Ready s (.rng d v n p) →
       ((∀ l, l ∈ (actRegs s).loops → l.lvl ≠ v.toNat) → rngPending (actCtx s) v.toNat = false →
         ∃ t, exec (.rng d v n p) s = .next t ∧
           t.cores = s.cores ∧ SameMem s t ∧ t.scr.claims = s.scr.claims ++ [xReg d.toNat] ∧
           t.scr.prods = s.scr.prods ++ [.rng d.toNat v.toNat]) ∧
       ((∀ l, l ∈ (actRegs s).loops → l.lvl ≠ v.toNat) → rngPending (actCtx s) v.toNat = true →
         exec (.rng d v n p) s = .next (freeze s .rngAnswer)) ∧
       ((∃ l, l ∈ (actRegs s).loops ∧ l.lvl = v.toNat) →
         exec (.rng d v n p) s = .next (raise s 0x0E (v.toNat + 7 * 2 ^ 8)))) ∧
     (Ready s (.getid d n p) → exec (.getid d n p) s = .next (sendReg s 1 (xReg d.toNat)
       ((s.chip % 2 ^ 12 + s.cur / 4 * 2 ^ 12 + s.cur % 4 * 2 ^ 14 + b01 (if c.curator then kCtx c else runCtx c) * 2 ^ 16
         + x.cfg.stage % 2 ^ 12 * 2 ^ 20 + (x.cfg.gang.length - 1) % 16 * 2 ^ 32 + (x.cfg.gang.filter fun j => decide (j < s.cur)).length * 2 ^ 36
         + bitsOf c.partid.toNat 0 8 * 2 ^ 40) % 2 ^ 64))) ∧
     (∀ m : BitVec 5, Ready s (.rdct d m n p) → exec (.rdct d m n p) s = .next (sendReg s 1 (xReg d.toNat)
       (if m = 0 then x.cyc.toNat else if m = 1 then x.fires.toNat else (x.cnt.getD (m.toNat - 2) 0).toNat)))) ∧
  (∀ (s : State) (d a : BitVec 5) (e : Bool) (n : BitVec 12) (p : BitVec 3),
     (Ready s (.mfs d n p) → ((curCore s).curator = true → kIdle (curCore s) = false) →
       (sregWaits (seenCtx s) n.toNat = false →
         exec (.mfs d n p) s = .next (sendReg s 1 (xReg d.toNat) (readSreg (seenCtx s) n.toNat % 2 ^ 64))) ∧
       (sregWaits (seenCtx s) n.toNat = true → exec (.mfs d n p) s = .next (freeze s .flags))) ∧
     (Ready s (.mfs d n p) → (curCore s).curator = true → kIdle (curCore s) = true →
       exec (.mfs d n p) s = .next (sendReg s 1 (xReg d.toNat) 0)) ∧
     seenCtx (noteSeen s) = getCtx (curCore s) (sregCtx (curCore s)) ∧
     (sregWaits (getCtx (curCore s) (sregCtx (curCore s))) n.toNat = true →
       ((curCore s).curator = true → kIdle (curCore s) = false) →
       Ready s (.mts a e n p) → exec (.mts a e n p) s = .next (freeze s .flags)) ∧
     (Ready s (.mts a e n p) → (curCore s).curator = false → sregWaits (actCtx s) n.toNat = false →
       (n.toNat < 0x20 ∨ 0x24 ≤ n.toNat) → exec (.mts a e n p) s =
         .next (modScr s fun q => { q with sregs := q.sregs ++ [(n.toNat, ux s a)] })) ∧
     (Ready s (.mts a e n p) → (curCore s).curator = false → pendCount (actCtx s) < 64 →
       ∀ j, j < 4 → n.toNat = 0x20 + j → exec (.mts a e n p) s =
         .next (modActCtx s fun x => { x with withheld := x.withheld ++ [.amset j (BitVec.ofNat 32 (ux s a))] })) ∧
     (Ready s (.mts a e n p) → (curCore s).curator = true →
       (kIdle (curCore s) = true → exec (.mts a e n p) s = .next s) ∧
       (kIdle (curCore s) = false → sregWaits (getCtx (curCore s) (kCtx (curCore s))) n.toNat = false →
         exec (.mts a e n p) s = .next (modScr s fun q => { q with sregs := q.sregs ++ [(n.toNat, ux s a)] }))) ∧
     (∀ (v w k : Nat) (x : Context), s.cur < 16 → sregWidth k = some w →
       x = getCtx (curCore (applySregs s [(k, v)])) (sregCtx (curCore s)) →
       readSreg x k = v % 2 ^ w ∧ ∀ j, j ≠ k → readSreg x j = readSreg (getCtx (curCore s) (sregCtx (curCore s))) j) ∧
     (∀ (v : Nat) (x : Context), s.cur < 16 → x = getCtx (curCore (applySregs s [(0x4B, v)])) (sregCtx (curCore s)) →
       readSreg x 0x4B = bitsOf v 0 1 + bitsOf v 3 20 * 2 ^ 3 ∧
       ∀ j, j ≠ 0x4B → readSreg x j = readSreg (getCtx (curCore s) (sregCtx (curCore s))) j))

/-- R153 and R332: TRAP raises SWTRAP and BRK raises BREAK, with the immediate as KVAL; in stage mode each enters the
curator at the vector of its cause. R332: what taking a trap of a stage bundle outside a rerun saves, clears and
keeps, for every cause. R331: a trap in curator mode, or one in stage mode whose vector lies outside the curator
share, an empty share among them, is a curator fault: the core stops issuing, its K registers are as they were, and a
Plinth event carries the cause and the bundle. -/
def Obligations.Traps : Prop :=
  (∀ (s : State) (i : BitVec 16) (n : Bool) (p : BitVec 3),
     (Ready s (.trap i n p) → exec (.trap i n p) s = .next (raise s 0x06 i.toNat) ∧
       (MayEnter s 0x06 → ∃ t, exec (.trap i n p) s = .next t ∧ EntersTrap s t 0x06 i.toNat)) ∧
     (Ready s (.brk i n p) → exec (.brk i n p) s = .next (raise s 0x07 i.toNat) ∧
       (MayEnter s 0x07 → ∃ t, exec (.brk i n p) s = .next t ∧ EntersTrap s t 0x07 i.toNat))) ∧
  (∀ (s : State) (cause val : Nat), MayEnter s cause → cause < 256 → val < 2 ^ 64 → EntersTrap s (raise s cause val) cause val) ∧
  (∀ (s : State) (cause val : Nat), s.cur < 16 →
     ((curCore s).curator = true ∨ ((curCore s).curator = false ∧ (actCtx s).rerun = .none ∧ ¬hasVector (curCore s) cause)) →
     ∃ c, curCore (raise s cause val) = c ∧ c.faulted = true ∧ c.kstat = (curCore s).kstat ∧
       c.kcause = (curCore s).kcause ∧ c.kfpc = (curCore s).kfpc ∧ c.kcpc = (curCore s).kcpc ∧
       c.kval = (curCore s).kval ∧ c.curator = (curCore s).curator ∧ SameMem s (raise s cause val) ∧
       (raise s cause val).hostOut = s.hostOut ++ [⟨0, 0, .event 0x01 s.chip s.cur 0 (BitVec.ofNat 64 (cause +
         (if (curCore s).curator then issueIndex (curCore s) else issueIndex (curCore s) % 2 ^ 16) * 2 ^ 16)) none⟩])

/-- R335: TRET ends its bundle with the return; the core leaves curator mode, and goes on with the context of
KSTAT.ctx unless the entry was idle or its context is gone, when the arbiter chooses. -/
def Obligations.TrapReturn : Prop :=
  (∀ (s : State) (n : Bool) (p : BitVec 3), Ready s (.tret n p) → exec (.tret n p) s = .next (setAct s .ret)) ∧
  (∀ (s : State) (k : Nat), k < 16 → (getCore s k).stopEntry = [] →
    ∃ c, getCore (doReturn s k) k = c ∧ c.curator = false ∧ c.ctxA = (getCore s k).ctxA ∧ c.ctxB = (getCore s k).ctxB ∧
      (kIdle (getCore s k) = true ∨ kGone (getCore s k) = true → c.running = none) ∧
      (kIdle (getCore s k) = false → kGone (getCore s k) = false →
        (getCtx (getCore s k) (kCtx (getCore s k))).stopped = none →
        (getCtx (getCore s k) (kCtx (getCore s k))).status = .running → c.running = some (kCtx (getCore s k))))

/-- R337, R338 and R343: MFC reads the control register that its number names, at latency 1. R343: MTC writes for the
bundles that follow; a write of KVEC, PARTID, SLTCTL or PTBASE waits until the core has no job, a launch behind a
released FENCE among them. R5 and R338: what an MTC changes. Read-only registers keep their values; KSTAT takes fena,
and clears refused where the operand holds 1; firmware's registers are written in partition 0 only; KSCRn and BUDGET
take the operand. PTBASE, LINKCTL, HANGINT, CTOLMIN and, for firmware, SLTCTL take it for the partition as wide as
they are; MARGIN takes its offset, and FQCTL its base, its head and qen. R336 and R338: a write of KCPC sets the
register. In a synchronous entry the context resumes at the new bundle with no pending transfer and no active level;
in an asynchronous one it is first rolled back and async is cleared. With no context to resume nothing else changes.
Where the rules leave a choice the clause is the model’s own reading (log entries 75 and 102). -/
def Obligations.ControlRegisters : Prop :=
  (∀ (s : State) (d : BitVec 5) (m : BitVec 11) (n : Bool) (p : BitVec 3) (v : Nat), Ready s (.mfc d m n p) →
     cregValue s m.toNat = some v → exec (.mfc d m n p) s = .next (sendReg s 1 (xReg d.toNat) (v % 2 ^ 64))) ∧
  (∀ (s : State) (a : BitVec 5) (e n : Bool) (p : BitVec 3),
     (∀ m : BitVec 11, Ready s (.mtc a e m n p) →
       ((m.toNat ≠ 5 ∧ m.toNat ≠ 0x10 ∧ m.toNat ≠ 0x11 ∧ m.toNat ≠ 0x12) ∨ NoJobs (curCore s) →
         exec (.mtc a e m n p) s = .next (modScr s fun q => { q with sregs := q.sregs ++ [(0x1000 + m.toNat, ux s a)] })) ∧
       ((m.toNat = 5 ∨ m.toNat = 0x10 ∨ m.toNat = 0x11 ∨ m.toNat = 0x12) → ¬NoJobs (curCore s) →
         exec (.mtc a e m n p) s = .next (freeze s .jobs))) ∧
     (Ready s (.mtcKcpc a e n p) → exec (.mtcKcpc a e n p) s =
       .next (modScr s fun q => { q with sregs := q.sregs ++ [(0x1000 + 3, ux s a)] }))) ∧
  (∀ (s : State) (v : Nat), s.cur < 16 →
     (∀ n, n = 1 ∨ n = 2 ∨ n = 4 ∨ n = 0x17 → afterMtc s n v = s) ∧
     (∃ c, curCore (afterMtc s 0 v) = c ∧ kFena c = bitsOf v 8 5 ∧ kCtx c = kCtx (curCore s) ∧
       kAsync c = kAsync (curCore s) ∧ kRerun c = kRerun (curCore s) ∧ kIdle c = kIdle (curCore s) ∧
       kGone c = kGone (curCore s) ∧
       bitOf c.kstat.toNat 16 = (bitOf (curCore s).kstat.toNat 16 && !bitOf v 16)) ∧
     (∀ n, n = 5 ∨ n = 0x11 ∨ n = 0x12 ∨ n = 0x18 → bitsOf (curCore s).partid.toNat 0 8 ≠ 0 → afterMtc s n v = s) ∧
     (bitsOf (curCore s).partid.toNat 0 8 = 0 →
       (curCore (afterMtc s 5 v)).kvec.toNat = bitsOf v 0 13 + bitsOf v 16 13 * 2 ^ 16 ∧
       (curCore (afterMtc s 0x11 v)).partid = BitVec.ofNat 28 v) ∧
     (∀ j, j < 4 → (curCore (afterMtc s (8 + j) v)).kscr.getD j 0 = BitVec.ofNat 64 v) ∧
     (curCore (afterMtc s 0x15 v)).budget = BitVec.ofNat 32 v ∧
     (∀ p, p = bitsOf (curCore s).partid.toNat 0 8 → (∃ q, findPart s p = some q) →
       (getPart (afterMtc s 0x10 v) p).ptbase.toNat = bitsOf v 16 40 * 2 ^ 16 ∧
       (getPart (afterMtc s 0x13 v) p).linkctl.toNat = v % 2 ^ 53 ∧
       (getPart (afterMtc s 0x14 v) p).hangint.toNat = v % 2 ^ 48 ∧
       (getPart (afterMtc s 0x16 v) p).ctolmin.toNat = v % 2 ^ 16 ∧
       (p = 0 → (getPart (afterMtc s 0x12 v) p).sltctl.toNat = v % 2 ^ 17)) ∧
     (bitsOf (curCore s).partid.toNat 0 8 = 0 →
       ∃ m, (curCore (afterMtc s 0x18 v)).margin = m ∧ bitsOf m.toNat 16 8 = bitsOf v 16 8 ∧
         bitsOf m.toNat 24 8 = bitsOf (curCore s).margin.toNat 24 8) ∧
     (∃ q, (curCore (afterMtc s 0x19 v)).fqctl = q ∧ bitsOf q.toNat 11 12 = bitsOf v 11 12 ∧
       bitsOf q.toNat 24 6 = bitsOf v 24 6 ∧ bitsOf q.toNat 40 1 = bitsOf v 40 1 ∧
       ((curCore s).fqPost = [] → bitsOf q.toNat 32 6 = bitsOf (curCore s).fqctl.toNat 32 6 ∧
         SameMem s (afterMtc s 0x19 v)))) ∧
  (∀ (s : State) (v : Nat), s.cur < 16 →
     (kIdle (curCore s) = false → kGone (curCore s) = false →
       ∃ c x, curCore (afterMtc s 3 v) = c ∧ getCtx c (kCtx (curCore s)) = x ∧ kAsync c = false ∧ c.kcpc = BitVec.ofNat 13 v ∧
         x.live.next = .at (v % 2 ^ 13) ∧ x.copy.next = .at (v % 2 ^ 13) ∧ x.live.loops = [] ∧ x.copy.loops = [] ∧
         x.kcpc = v % 2 ^ 13 ∧ x.copy.lc = (getCtx (curCore s) (kCtx (curCore s))).copy.lc ∧
         (kAsync (curCore s) = true → x.live.x = (getCtx (curCore s) (kCtx (curCore s))).copy.x ∧ x.withheld = [] ∧
           x.producers = [])) ∧
     (kIdle (curCore s) = true ∨ kGone (curCore s) = true →
       afterMtc s 3 v = modCore s s.cur fun c => { c with kcpc := BitVec.ofNat 13 v }))

/-- R342, R344: HALT. A reserved operand bit traps ILLEGAL. With resume set the named cores of the partition resume;
else they are halted, and the bundle stands frozen until each is; others' cores are skipped and KSTAT.refused is set.
R341, R342 and R345: PSTOP and PDRAIN act on every region of the operand's number in the issuing partition, firmware
on those of every partition. PSTOP with thaw 0 stops a region that is not stopped or stopping, PSTOP with thaw 1 has
the home release a stopped one, PDRAIN drains a running or drained one; the issuing core is noted for the record and
the home told. What a region's phase does not allow, or a number that names no region, sets KSTAT.refused; a reserved
operand bit traps ILLEGAL. Where the rules leave a choice the clause is the model’s own reading (log entries 70 and
153). -/
def Obligations.CoreAndRegionControl : Prop :=
  (∀ (s : State) (a : BitVec 5) (e n : Bool) (p : BitVec 3) (i : Instr),
     i = .halt a e n p ∨ i = .haltResume a e n p → Ready s i →
     (2 ^ 17 ≤ ux s a → exec i s = .next (raise s 0x01 ((encode i).getD 0))) ∧
     (ux s a < 2 ^ 17 → s.cur < 16 → ∃ t, exec i s = .next t ∧ SameMem s t ∧
       (∀ k, k < 16 → (getCore t k).halted =
         (if k ∈ ownCores s (ux s a) then !bitOf (ux s a) 16 else (getCore s k).halted)) ∧
       (∀ k, k < 16 → k ∉ ownCores s (ux s a) → k ≠ s.cur → getCore t k = getCore s k) ∧
       bitOf (curCore t).kstat.toNat 16 = (bitOf (curCore s).kstat.toNat 16 || anyForeign s (ux s a)) ∧
       (bitOf (ux s a) 16 = true ∨ (∀ k, k ∈ ownCores s (ux s a) → HaltsAtOnce (getCore s k)) → t.scr = s.scr) ∧
       (bitOf (ux s a) 16 = false → ∀ k, k ∈ ownCores s (ux s a) → StillChecks (getCore s k) →
         t.scr = { s.scr with frozen := some .halt, keep := true }))) ∧
  (∀ (s : State) (a : BitVec 5) (e n : Bool) (p : BitVec 3) (num : Nat) (l : List Region), s.cur < 16 →
     num = ux s a % 2 ^ 16 → l = namedRegions s num → l.Nodup → (∀ r, r ∈ l → findRegion s r.part num = some r) →
     (∀ i, i = .pstop a e n p ∨ i = .pstopThaw a e n p → Ready s i →
       (2 ^ 17 ≤ ux s a → exec i s = .next (raise s 0x01 ((encode i).getD 0))) ∧
       (ux s a < 2 ^ 17 → l = [] → exec i s = .next (refuse s)) ∧
       (ux s a < 2 ^ 17 → ∃ t, exec i s = .next t ∧ SameMem s t ∧ t.scr = s.scr ∧
         (∀ r, r ∈ l → ∃ q, findRegion t r.part num = some q ∧
           (bitOf (ux s a) 16 = false → r.phase ≠ .stopped → r.phase ≠ .stopping → q.phase = .stopping ∧ q.issuer = some s.cur ∧
             q.wasDrained = (r.phase == .drained) ∧ ToldHome s t r (.stopAsk r.part num 0)) ∧
           (bitOf (ux s a) 16 = true → q = r ∧ (mayThaw s r = true → ToldHome s t r (.thawAsk r.part num))) ∧
           ((bitOf (ux s a) 16 = false ∧ (r.phase = .stopped ∨ r.phase = .stopping)) ∨
               (bitOf (ux s a) 16 = true ∧ mayThaw s r = false) →
             q = r ∧ bitOf (curCore t).kstat.toNat 16 = true)) ∧
         ((∀ r, r ∈ l → if bitOf (ux s a) 16 then mayThaw s r = true else r.phase ≠ .stopped ∧ r.phase ≠ .stopping) →
           l ≠ [] → (curCore t).kstat = (curCore s).kstat)) ∧
       (∀ r, ux s a < 2 ^ 16 → l = [r] → r.phase = .running → ∃ t, exec i s = .next t ∧
         (r.cfg.homeChip = s.chip → t.ctlIn = s.ctlIn ++ [(s.chip, .stopAsk r.part num 0)]) ∧
         (r.cfg.homeChip ≠ s.chip → t.ctlOut = s.ctlOut ++ [(r.cfg.homeChip, .stopAsk r.part num 0)]))) ∧
     (∀ r, mayThaw s r = true ↔ r.phase = .stopped ∧ r.source ≠ 2 ∧ r.errors = [] ∧ r.recover = false ∧
       treeLost s r.part = false) ∧
     (Ready s (.pdrain a e n p) →
       (2 ^ 16 ≤ ux s a → exec (.pdrain a e n p) s = .next (raise s 0x01 ((encode (.pdrain a e n p)).getD 0))) ∧
       (ux s a < 2 ^ 16 → l = [] → exec (.pdrain a e n p) s = .next (refuse s)) ∧
       (ux s a < 2 ^ 16 → ∃ t, exec (.pdrain a e n p) s = .next t ∧ SameMem s t ∧ t.scr = s.scr ∧ ∀ r, r ∈ l → ∃ q,
         findRegion t r.part num = some q ∧
         (r.phase = .running ∨ r.phase = .drained → q.phase = .draining ∧ q.closed = true ∧ q.drainer = some s.cur ∧
           ToldHome s t r (.drain r.part num)) ∧
         (r.phase ≠ .running → r.phase ≠ .drained → q = r ∧ bitOf (curCore t).kstat.toNat 16 = true))))

/-- R342, R346, R347 and R416: CSAVE moves the contexts named that may be saved, once their cores are halted and their
results have arrived, whole into a shadow slot, with the accumulators of an array context, and leaves their context
slots empty; CLOAD moves a context back whole, its fetch buffers apart, rewrites its program share from its image part
and gives back its accumulators. SHADOWCTL shows the slot. A core that refuses, or whose slot holds an error that
stays, is left as it was and KSTAT.refused is set; a reserved operand traps ILLEGAL. R348: TLBI removes from every
copy engine's TLB, and from the walker cache, the translations of the current ASID, those of one page of it, or, for
firmware, all, and waits only for accesses in flight by a removed one; an ill-formed operand traps ILLEGAL. Where the
rules leave a choice the clause is the model’s own reading (log entries 77 and 122). -/
def Obligations.ShadowAndTranslations : Prop :=
  (∀ (s : State) (a : BitVec 5) (e : Bool) (b : BitVec 5) (f n : Bool) (p : BitVec 3) (x : Bool), s.cur < 16 →
     x = bitOf (ux s a) 16 →
     (∀ i, i = .csave a e b f n p ∨ i = .cload a e b f n p → Ready s i → 2 ^ 17 ≤ ux s a ∨ 2 ≤ ux s b →
       exec i s = .next (raise s 0x01 ((encode i).getD 0))) ∧
     (Ready s (.csave a e b f n p) → ux s a < 2 ^ 17 → ux s b < 2 →
       ((∀ k, k ∈ maskCores (ux s a) → saveRefused s k (ux s b) x = true) → maskCores (ux s a) ≠ [] →
         exec (.csave a e b f n p) s = .next (refuse s)) ∧
       ((∀ k, k ∈ maskCores (ux s a) → saveRefused s k (ux s b) x = false →
           HaltsAtOnce (getCore s k) ∧ (getCtx (getCore s k) x).relq = []) →
         ∃ t, exec (.csave a e b f n p) s = .next t ∧ t.scr = s.scr ∧
           bitOf (curCore t).kstat.toNat 16 = (bitOf (curCore s).kstat.toNat 16 ||
             (maskCores (ux s a)).any fun k => saveRefused s k (ux s b) x) ∧
           ∀ k, k < 16 →
           (k ∈ maskCores (ux s a) → saveRefused s k (ux s b) x = false → ∃ h, getShadow (getCore t k) (ux s b) = some h ∧
             h.ctx = x ∧ h.part = bitsOf (curCore s).partid.toNat 0 8 ∧ h.saved = getCtx (restFor s k x) x ∧
             h.acc = (if h.saved.cfg.arrayUse = false then [] else
               if stagedArray h.saved then (restFor s k x).stagedAcc else (restFor s k x).acc) ∧
             (getCtx (getCore t k) x).status = .empty ∧
             bitOf (getCore t k).shadowctl.toNat (ux s b) = true ∧
             bitOf (getCore t k).shadowctl.toNat (2 + ux s b) = x ∧ (getCore t k).halted = true ∧
             (k = s.cur → x = kCtx (curCore s) → kGone (curCore t) = true)) ∧
           (k ∉ maskCores (ux s a) ∨ saveRefused s k (ux s b) x = true →
             getShadow (getCore t k) (ux s b) = getShadow (getCore s k) (ux s b) ∧
             getCtx (getCore t k) x = getCtx (getCore s k) x))) ∧
     (∀ k, k < 16 → (getCtx (getCore s k) x).producers = [] → (getCore s k).mwld = none →
       (∀ y, (getCore s k).running = some y → (getCtx (getCore s k) y).rerun = .none) →
       getCtx (restFor s k x) x = getCtx (getCore s k) x ∧ (restFor s k x).acc = (getCore s k).acc) ∧
     (Ready s (.cload a e b f n p) → ux s a < 2 ^ 17 → ux s b < 2 → ∃ t, exec (.cload a e b f n p) s = .next t ∧
       t.scr = s.scr ∧ SameMem s t ∧
       bitOf (curCore t).kstat.toNat 16 = (bitOf (curCore s).kstat.toNat 16 ||
         (maskCores (ux s a)).any fun k => loadRefused s k (ux s b) x || shadowBad s k (ux s b)) ∧
       ∀ k, k < 16 →
         (k ∈ maskCores (ux s a) → loadRefused s k (ux s b) x = false →
           getShadow (getCore t k) (ux s b) = none ∧ bitOf (getCore t k).shadowctl.toNat (ux s b) = false ∧
           (shadowBad s k (ux s b) = true → getCtx (getCore t k) x = getCtx (getCore s k) x) ∧
           (shadowBad s k (ux s b) = false → ∃ h y, getShadow (getCore s k) (ux s b) = some h ∧
             y = getCtx (getCore t k) x ∧
             y = { h.saved with live := refetch h.saved.live, copy := refetch h.saved.copy, wait := 0 } ∧
             (h.saved.cfg.arrayUse = true → stagedArray h.saved = false → (getCore t k).acc = h.acc) ∧
             (h.saved.cfg.arrayUse = true → stagedArray h.saved = true → (getCore t k).stagedAcc = h.acc) ∧
             (tabWf noBundle (getCore s k).prog = true → ∀ m, h.saved.cfg.first ≤ m →
               m < h.saved.cfg.first + h.saved.cfg.size → bundleAt (getCore t k) m = (partProgram s h.saved).getD (m - h.saved.cfg.first) noBundle))) ∧
         (k ∉ maskCores (ux s a) ∨ loadRefused s k (ux s b) x = true →
           getShadow (getCore t k) (ux s b) = getShadow (getCore s k) (ux s b) ∧
           getCtx (getCore t k) x = getCtx (getCore s k) x))) ∧
  (∀ (s : State) (a : BitVec 5) (e : Bool) (b : BitVec 5) (f n : Bool) (p : BitVec 3) (i : Instr) (asid : Nat),
     i = .tlbiAsid a e b f n p ∨ i = .tlbiPage a e b f n p ∨ i = .tlbiAll a e b f n p → Ready s i →
     asid = bitsOf (curCore s).partid.toNat 8 16 →
     (3 ≤ ux s a ∨ (ux s a ≠ 1 ∧ ux s b ≠ 0) → exec i s = .next (raise s 0x01 ((encode i).getD 0))) ∧
     (ux s a = 2 → ux s b = 0 → bitsOf (curCore s).partid.toNat 0 8 ≠ 0 → exec i s = .next (refuse s)) ∧
     (ux s a < 3 → (ux s a ≠ 1 → ux s b = 0) → (ux s a = 2 → bitsOf (curCore s).partid.toNat 0 8 = 0) →
       ∃ t, exec i s = .next t ∧ SameMem s t ∧
         (∀ k, k < 16 → ∀ q, q ∈ (getCore t k).tlb ↔ q ∈ (getCore s k).tlb ∧ ¬(ux s a = 2 ∨ (q.asid.toNat = asid ∧
           (ux s a = 0 ∨ (ux s a = 1 ∧ q.vpn ≤ ux s b ∧ ux s b < q.vpn + q.pages))))) ∧
         (∀ q, q ∈ t.wcache → q ∈ s.wcache ∧ (ux s a ≠ 1 → q.asid.toNat ≠ asid)) ∧
         ((∀ c, c ∈ s.cores → ∀ j, j ∈ c.jobs → jobHolds (ux s a) asid j = false) →
           (∀ c, c ∈ s.accs → accHolds s (ux s a) asid c = false) → t.scr = s.scr) ∧
         ((∃ c, c ∈ s.cores ∧ ∃ j, j ∈ c.jobs ∧ jobHolds (ux s a) asid j = true) →
           t.scr = { s.scr with frozen := some .translations, keep := true })))

/-- R349: SLTW writes one pending entry inside the partition's share and refuses one outside it; with commit set it
waits for the switch, which makes the pending entries of the committed shares live and lets the waiting bundle issue.
R350 and R351: LKEY loads a key into the partition's idle key slot of a direction of a link that is up, from 32
aligned bytes of the scratchpad; LKSW queues the switch-over marker when the idle transmit slot has been loaded. Where
the rules leave a choice the clause is the model’s own reading (log entries 76 and 78). -/
def Obligations.SlotTablesAndKeys : Prop :=
  ((∀ (s : State) (a : BitVec 5) (e : Bool) (b : BitVec 5) (f n : Bool) (p : BitVec 3) (i : Instr),
     i = .sltw a e b f n p ∨ i = .sltwCommit a e b f n p → Ready s i →
     (bitOf (ux s a) 16 = false → ux s a < 2 ^ 17 → bitsOf (ux s a) 8 8 ≤ 145 → (ux s b ≤ 145 ∨ ux s b = 0xFF) →
       exec i s = .next (
         if (slotShare s).1 ≤ bitsOf (ux s a) 0 8 ∧ bitsOf (ux s a) 0 8 < (slotShare s).1 + (slotShare s).2 then
           writePending s (bitsOf (ux s a) 0 8) (bitsOf (ux s a) 8 8) (ux s b)
         else refuse s)) ∧
     (ux s a = 2 ^ 16 → ux s b = 0 → (curCore s).switchWait = none → s.cur < 16 → ∃ t, exec i s = .next t ∧
       t.router.commit = s.router.commit ++ [slotShare s] ∧ (curCore t).switchWait = some false ∧
       t.scr.frozen = some .slotSwitch ∧ SameMem s t) ∧
     (ux s a = 2 ^ 16 → ux s b = 0 → (curCore s).switchWait = some true →
       exec i s = .next (modCore s s.cur fun c => { c with switchWait := none }))) ∧
   (∀ s : State, ∃ t, exec .slotTableSwitch s = .next t ∧ t.router.commit = [] ∧ t.router.pending = s.router.pending ∧
     (tabWf freeSlot s.router.slots = true → tabWf freeSlot s.router.pending = true → ∀ out slot, slot < 256 →
       tabGet freeSlot t.router.slots (slotKey out slot) =
         if ∃ c, c ∈ s.router.commit ∧ c.1 ≤ slot ∧ slot < c.1 + c.2 then tabGet freeSlot s.router.pending (slotKey out slot)
         else tabGet freeSlot s.router.slots (slotKey out slot)) ∧
     (∀ k, k < 16 → (getCore t k).switchWait =
       (if (getCore s k).switchWait = some false then some true else (getCore s k).switchWait)) ∧ SameMem s t)) ∧
  (∀ (s : State) (a : BitVec 5) (e : Bool) (b : BitVec 5) (f n : Bool) (p : BitVec 3) (l row : Nat),
     row = rowOf (curCore s) →
     (Ready s (.lkey a e b f n p) →
       (2 ^ 8 ≤ ux s a → exec (.lkey a e b f n p) s = .next (raise s 0x01 ((encode (.lkey a e b f n p)).getD 0))) ∧
       (ux s a < 2 ^ 8 → ux s b % 32 ≠ 0 → exec (.lkey a e b f n p) s = .next (raise s 0x04 (ux s b % 2 ^ 63))) ∧
       (ux s a < 2 ^ 8 → ux s b % 32 = 0 → ux s b < 2 ^ 23 → (getLink s (ux s a % 128)).up = false →
         exec (.lkey a e b f n p) s = .next (refuse s))) ∧
     (Ready s (.lksw a e n p) →
       (2 ^ 7 ≤ ux s a → exec (.lksw a e n p) s = .next (raise s 0x01 ((encode (.lksw a e n p)).getD 0))) ∧
       (ux s a < 2 ^ 7 → (getLink s (ux s a)).up = false ∨ activeSlot (getLink s (ux s a)).tx row = none ∨
           (getKey (getLink s (ux s a)).tx row (idleSlot (getLink s (ux s a)).tx row)).state ≠ .loaded →
         exec (.lksw a e n p) s = .next (refuse s))) ∧
     (l = ux s a % 128 → Ready s (.lkey a e b f n p) → ux s a < 2 ^ 8 → (getLink s l).up = true →
       ux s b % 32 = 0 → LoadGoes s .spad (ux s b) 32 32 →
       (bitOf (ux s a) 7 = false → exec (.lkey a e b f n p) s = .next (setLink (countFixed s (spaceKey s.cur .spad (ux s b)) 32) l { getLink s l with
         tx := setKey (getLink s l).tx row (idleSlot (getLink s l).tx row)
           ⟨.loaded, BitVec.ofNat 256 (leNat (actRead s .spad (ux s b) 32)), 0, 0⟩ })) ∧
       (bitOf (ux s a) 7 = true → (getKey (getLink s l).rx row (idleSlot (getLink s l).rx row)).state ≠ .held →
         exec (.lkey a e b f n p) s = .next (setLink (countFixed s (spaceKey s.cur .spad (ux s b)) 32) l { getLink s l with
           rx := setKey (getLink s l).rx row (idleSlot (getLink s l).rx row)
             ⟨.loaded, BitVec.ofNat 256 (leNat (actRead s .spad (ux s b) 32)), 0, 0⟩ }))) ∧
     (l = ux s a → Ready s (.lksw a e n p) → ux s a < 2 ^ 7 → (getLink s l).up = true →
       (∃ q, activeSlot (getLink s l).tx row = some q) →
       (getKey (getLink s l).tx row (idleSlot (getLink s l).tx row)).state = .loaded →
       (∀ w, w ∈ s.router.waiting → w.inp < 256) → ∃ t w, exec (.lksw a e n p) s = .next t ∧
         t.router.waiting = s.router.waiting ++ [w] ∧ w.flit.type = 0x10 ∧ w.flit.partition = bitsOf (curCore s).partid.toNat 0 8 ∧
         SameMem s t))

/-- R352 and R369: RETC empties a context once its jobs are over and nothing writes its windows, and frees its share
and the range cells that it held; a region that has not given the context up hears of it at its home. Retiring the
core empties both contexts, withdraws the core and reports it by a Plinth event. While a job of the context runs the
bundle stands frozen. A reserved operand traps ILLEGAL. R353: JKIL ends the job whose card is named as cancelled, its
writes so far kept: one that is suspended, or that stands between its elements, at once, and one whose requests are
under way at its next element boundary; it does nothing to one that has ended. JRSM lets a suspended job go on and
clears the suspended bit of its card, whose other status bits stay; a card address that is misaligned or out of range
traps. Where the rules leave a choice the clause is the model’s own reading (log entries 71, 143 and 144). -/
def Obligations.RetirementAndJobs : Prop :=
  (∀ (s : State) (a : BitVec 5) (e n : Bool) (p : BitVec 3) (i : Instr),
     i = .retc a e n p ∨ i = .retcCore a e n p → Ready s i → s.cur < 16 →
     (ux s a < 2 → MayRetire s (ux s a == 1) → ∃ t, exec i s = .next t ∧ RetiredCtx s t (ux s a == 1) ∧
       (getCtx (curCore t) (ux s a != 1)).status = (getCtx (curCore s) (ux s a != 1)).status ∧
       (curCore t).withdrawn = (curCore s).withdrawn ∧ t.hostOut = s.hostOut ∧ t.scr = s.scr ∧ SameMem s t) ∧
     (ux s a = 2 → MayRetire s false → MayRetire s true → ∃ t, exec i s = .next t ∧ RetiredCtx s t false ∧
       RetiredCtx s t true ∧ (curCore t).withdrawn = true ∧
       t.hostOut = s.hostOut ++ [⟨0, 0, .event 0x02 s.chip s.cur 0 (BitVec.ofNat 64 s.cur) none⟩] ∧
       t.scr = s.scr ∧ SameMem s t) ∧
     (ux s a < 2 → (∃ j, j ∈ (curCore s).jobs ∧ ownJob (ux s a == 1) j = true ∧ j.state = .running) → ∃ t, exec i s = .next t ∧
       t.scr.frozen = some .jobs ∧ (getCtx (curCore t) (ux s a == 1)) = getCtx (curCore s) (ux s a == 1) ∧ SameMem s t) ∧
     (3 ≤ ux s a → exec i s = .next (raise s 0x01 ((encode i).getD 0)))) ∧
  (∀ (s : State) (a : BitVec 5) (e n : Bool) (p : BitVec 3), s.cur < 16 →
     (Ready s (.jkil a e n p) → ux s a % 128 = 0 → ux s a < 2 ^ 23 → ∃ t, exec (.jkil a e n p) s = .next t ∧
       (curCore t).jobs = (curCore s).jobs.map (fun j => if j.card = ux s a then killJob j else j) ∧
       t.scr = s.scr ∧ SameMem s t) ∧
     (∀ j : Job, (j.state = .suspended ∨ j.state = .queued ∨ (j.state = .running ∧ j.pend = []) →
         (killJob j).state = .finished ∧ (killJob j).cancel = true ∧ (killJob j).err = 7 ∧ (killJob j).progress = j.progress ∧
         (killJob j).id = j.id ∧ (killJob j).card = j.card) ∧
       (j.state = .running → j.pend ≠ [] → killJob j = { j with killed := true }) ∧
       (j.state = .finished ∨ j.state = .posting → killJob j = j)) ∧
     (Ready s (.jrsm a e n p) → ux s a % 128 = 0 → ux s a < 2 ^ 23 →
       ((∃ j, j ∈ (curCore s).jobs ∧ j.card = ux s a ∧ j.state = .suspended) → ∃ t, exec (.jrsm a e n p) s = .next t ∧
         (∀ j, j ∈ (curCore t).jobs → j.card = ux s a → j.state ≠ .suspended) ∧
         (∀ j, j ∈ (curCore s).jobs → j.card = ux s a → j.state = .suspended →
           ∃ q, q ∈ (curCore t).jobs ∧ q.id = j.id ∧ q.state = .running ∧ q.progress = j.progress) ∧
         t.scr = { s.scr with before := t.scr.before } ∧
         (Memory.wf s.mem = true → ∀ v, v = leNat (actRead s .spad (ux s a + 4) 2) →
           leNat (spRead t t.cur .spad (ux s a + 4) 2) = setBits v 1 1 0 ∧
           ∀ k : Nat, (k < spaceKey s.cur .spad (ux s a + 4) ∨ spaceKey s.cur .spad (ux s a + 6) ≤ k) →
             memByte t k = memByte s k)) ∧
       ((∀ j, j ∈ (curCore s).jobs → j.card = ux s a → j.state ≠ .suspended) → exec (.jrsm a e n p) s = .next s)) ∧
     (∀ i, i = .jkil a e n p ∨ i = .jrsm a e n p → Ready s i →
       (ux s a % 128 ≠ 0 → exec i s = .next (raise s 0x04 (ux s a % 2 ^ 63))) ∧
       (ux s a % 128 = 0 → 2 ^ 23 ≤ ux s a → exec i s = .next (raise s 0x05 (ux s a % 2 ^ 63)))))

/-- The memory after reset is in its canonical form. R59, R62, R63, R338 and R363: what reset leaves. Every slot is
empty; the x, v, m and q registers hold 0, every register is full, and x0, m0 and q0 read their fixed values; special
registers are 0 but for ctol, control registers are 0 but for LINKCTL, HANGINT, BUDGET and CTOLMIN. Where the rules
leave a choice the clause is the model’s own reading (log entries 1 and 6). -/
def Obligations.ResetState : Prop :=
  (Memory.wf State.reset.mem = true ∧ ∀ a, memByte State.reset a = memDefault) ∧
  (∀ (k : Nat) (b : Bool), k < 16 →
     (ctxAt .reset k b).status = .empty ∧ (getCore .reset k).curator = false ∧
     (∀ n, n < 32 → readX (ctxAt .reset k b).live n = 0 ∧ readV (ctxAt .reset k b).live n = 0) ∧
     (∀ n, n < 16 → readM (ctxAt .reset k b).live n = if n = 0 then 0xFFFF else 0) ∧
     (∀ n, n < 8 → readQ (ctxAt .reset k b).live n = decide (n = 0)) ∧
     (∀ r, isFull (ctxAt .reset k b).live r = true) ∧
     (∀ n, readSreg (ctxAt .reset k b) n = if 0x40 ≤ n ∧ n ≤ 0x47 then 0x0200 else 0) ∧
     (∀ n, readCreg .reset k n = if n = 0x13 then 0x1800000000000 else if n = 0x14 then 0x40000000 else if n = 0x15 then 0x00100000
       else if n = 0x16 then 0x0100 else 0))

/-- A write of bytes keeps the canonical form; afterwards each written byte reads as written and every other byte as
before (R3, R66). R3: eight bytes and a 64-bit number, least significant byte first, are two forms of one thing. R65
to R67, R81 and R82: the windows and scratchpads of the sixteen cores share no byte. R66, R67 and R75: the causes of
an access, in the order of their codes: a misaligned address, then bytes outside the space, then, in stage mode, bytes
of a bound ring's entries or length array that no visible token holds, of either context of the core; a store to the
weight-store window below the arena base, or with no arena, traps BOUND too. Where the rules leave a choice the clause
is the model’s own reading (log entries 1, 32 and 139). -/
def Obligations.MemoryBytes : Prop :=
  (∀ (s : State) (a : Nat) (bs : List Byte), Memory.wf s.mem = true →
     Memory.wf (memWrite s a bs).mem = true ∧
     ∀ b, memByte (memWrite s a bs) b = if a ≤ b ∧ b < a + bs.length then bs.getD (b - a) 0 else memByte s b) ∧
  (∀ (n v : Nat), leNat (natLe n v) = v % 2 ^ (8 * n) ∧ (natLe n v).length = n ∧
     ∀ bs : List Byte, natLe bs.length (leNat bs) = bs) ∧
  (∀ (k l : Nat) (p q : Space) (a b : Nat), k < 16 → l < 16 → a < spaceSize p → b < spaceSize q →
     spaceKey k p a = spaceKey l q b → k = l ∧ p = q ∧ a = b) ∧
  (∀ (s : State) (sp : Space) (a : Int) (n al : Nat),
     (a % (al : Int) ≠ 0 → accessTrap s sp a n al = some (0x04, addrValI sp a)) ∧
     (a % (al : Int) = 0 → (a < 0 ∨ (spaceSize sp : Int) < a + n) → accessTrap s sp a n al = some (0x05, addrValI sp a)) ∧
     (a % (al : Int) = 0 → 0 ≤ a → a + n ≤ spaceSize sp → (curCore s).curator = true ∨ sp = .win →
       accessTrap s sp a n al = none) ∧
     (a % (al : Int) = 0 → 0 ≤ a → a + n ≤ spaceSize .spad → 0 < n → (curCore s).curator = false →
       (∀ b e, BoundRing (curCore s) b e → 0 < e.2.es) →
       ((∀ b e v, BoundRing (curCore s) b e → a.toNat ≤ v → v < a.toNat + n → ¬HiddenByte (getCtx (curCore s) b) e v) →
         accessTrap s .spad a n al = none) ∧
       ((∃ b e v, BoundRing (curCore s) b e ∧ a.toNat ≤ v ∧ v < a.toNat + n ∧ HiddenByte (getCtx (curCore s) b) e v) →
         ∃ b e v, BoundRing (curCore s) b e ∧ a.toNat ≤ v ∧ v < a.toNat + n ∧ HiddenByte (getCtx (curCore s) b) e v ∧
           accessTrap s .spad a n al = some (0x10, ringVal e.1 false 4))) ∧
     (a % (al : Int) = 0 → 0 ≤ a → a + n ≤ spaceSize .win →
       ((∃ base, (curCore s).arena = some base ∧ (base : Int) ≤ a) → storeTrap s .win a n al = none) ∧
       ((∀ base, (curCore s).arena = some base → a < (base : Int)) →
         storeTrap s .win a n al = some (0x05, addrValI .win a))))

/-- R244 and R245: VLDA and LDS whose access may go claim their destination and deliver the bytes, as loads see them,
little-endian, extended as LDS asks. R99, R244, R245 and R329: VSTA and STS whose access may go are withheld in stage
mode and performed at once in curator mode; a cause traps. The frame of the stores of R244 and R245: a store that is
withheld changes no byte; one that performs changes no byte outside the bytes at the address it computes; the
registers are as before. Where the rules leave a choice the clause is the model’s own reading (log entries 32 and
125). -/
def Obligations.LoadsAndStores : Prop :=
  (∀ (s : State) (i : Instr) (sp : Space) (a : Int) (n : Nat) (d : RegName) (g : Nat → Nat),
     loadOf s i = some (sp, a, n, d, g) → Ready s i → LoadGoes s sp a n (loadAlign n) →
     exec i s = .next (sendLong (countFixed s (spaceKey s.cur sp a.toNat) n) [(d, g (leNat (actRead s sp a.toNat n)))] 0 .plain)) ∧
  (∀ (s : State) (i : Instr) (sp : Space) (a : Int) (al : Nat) (bs : List Byte), storeOf s i = some (sp, a, al, bs) →
     Ready s i →
     (storeTrap s sp a bs.length al = none → StoreRoom s → exec i s = .next (stored s sp a.toNat bs)) ∧
     (∀ c v, storeTrap s sp a bs.length al = some (c, v) → exec i s = .next (raise s c v))) ∧
  (∀ (s t : State) (i : Instr) (sp : Space) (a : Int) (al : Nat) (bs : List Byte), Memory.wf s.mem = true →
     storeOf s i = some (sp, a, al, bs) → Ready s i → storeTrap s sp a bs.length al = none → StoreRoom s →
     exec i s = .next t →
     ((curCore s).curator = false → SameMem s t) ∧
     (∀ b, (b < spaceKey s.cur sp a.toNat ∨ spaceKey s.cur sp a.toNat + bs.length ≤ b) → memByte t b = memByte s b) ∧
     actRegs t = actRegs s ∧ (∀ k, k ≠ s.cur → getCore t k = getCore s k) ∧ t.scr = { s.scr with before := t.scr.before })

/-- R71 and R72: the address of a stream access: base and offset for a direct stream; for an indirect one the entry of
its page, an offset that must stay inside the page, and non-residency from the entry, which posts a record when the
position has moved onto the page. R72, R242: a read at a stream's position takes bytes of storage, of the head token's
payload when the stream is bound to a ring, or zeros when its page is not resident. R242 and R243: VLD through a
loaded read stream delivers the 256 bytes of its position; VST through a loaded write stream stores the register
there, and drops the store when the page is not resident; any other stream traps ILLEGAL. Where the rules leave a
choice the clause is the model’s own reading (log entries 39 and 40). -/
def Obligations.StreamAccesses : Prop :=
  (∀ (s : State) (k : Nat) (st : Stream) (n al : Nat),
     (stIen st = false → (stBase st + stOffset st) % (al : Int) = 0 →
       StreamAt s k st n al s (stBase st + stOffset st) false st) ∧
     (stIen st = true → ∀ (u : State) (e : Nat) (off : Int), EntryAt s st (stPage st) u e →
       off = stPage st % ((2 ^ stIshift st : Nat) : Int) + (stOffset st - stPage st) → 0 ≤ off →
       off + n ≤ ((2 ^ stIshift st : Nat) : Int) →
       ((bitOf e 31 = false ∨ stSpace st = 2) → ((bitsOf e 0 27 : Nat) + off) % (al : Int) = 0 →
         StreamAt s k st n al u ((bitsOf e 0 27 : Nat) + off) false { st with page := some (pageOf st (stPage st)) }) ∧
       (bitOf e 31 = true → stSpace st ≠ 2 →
         StreamAt s k st n al (noteMiss u k st (pageOf st (stPage st)) e) ((bitsOf e 0 27 : Nat) + off) true
           { st with page := some (pageOf st (stPage st)), miss := true }))) ∧
  (∀ (s s' : State) (k : Nat) (st st' : Stream) (n al : Nat) (a : Int) (miss : Bool), StreamAt s k st n al s' a miss st' →
     (stSpace st' = 2 → ∀ c t rest, ringCfg (actCtx s') (stPort st') = some c →
       visibleToks c (getIn (actCtx s') (stPort st')) = t :: rest → 0 ≤ a → a + n ≤ (t.len : Int) →
       LoadGoes s' .spad (entryAddr c t.slot + 16 + a) n 1 →
       StreamReads s k st n al (countFixed s' (spaceKey s'.cur .spad (entryAddr c t.slot + 16 + a).toNat) n)
         (actRead s' .spad (entryAddr c t.slot + 16 + a).toNat n) st') ∧
     (stSpace st' ≠ 2 → miss = true → StreamReads s k st n al s' (List.replicate n 0) st') ∧
     (stSpace st' ≠ 2 → miss = false → LoadGoes s' (spaceOf (stSpace st')) a n al →
       StreamReads s k st n al (countFixed s' (spaceKey s'.cur (spaceOf (stSpace st')) a.toNat) n)
         (actRead s' (spaceOf (stSpace st')) a.toNat n) st')) ∧
  (∀ (s : State) (d : BitVec 5) (k : BitVec 4) (e : Bool) (p : BitVec 3) (st : Stream), st = getStream s k.toNat →
     (Ready s (.vld d k p) →
       (∀ s' bs st', st.loaded = true → stDir st = false → mxOf (stFmt st) = none → StreamReads s k.toNat st 256 64 s' bs st' →
         exec (.vld d k p) s = .next (sendLong (putStream s' k.toNat st') [(vReg d.toNat, leNat bs)] 0 .plain)) ∧
       (st.loaded = false ∨ stDir st = true ∨ mxOf (stFmt st) ≠ none →
         exec (.vld d k p) s = .next (raise s 0x01 ((encode (.vld d k p)).getD 0)))) ∧
     (Ready s (.vst d k e p) →
       (∀ s' a st', st.loaded = true → stDir st = true → StreamAt s k.toNat st 256 64 s' a false st' →
         storeTrap (putStream s' k.toNat st') (spaceOf (stSpace st')) a 256 64 = none →
         StoreRoom (putStream s' k.toNat st') →
         exec (.vst d k e p) s = .next (stored (putStream s' k.toNat st') (spaceOf (stSpace st')) a.toNat (natLe 256 (rv s d)))) ∧
       (∀ s' a st', st.loaded = true → stDir st = true → StreamAt s k.toNat st 256 64 s' a true st' →
         exec (.vst d k e p) s = .next (putStream s' k.toNat st')) ∧
       (st.loaded = false ∨ stDir st = false →
         exec (.vst d k e p) s = .next (raise s 0x01 ((encode (.vst d k e p)).getD 0)))))

/-- R246 and R247: ACST stores a segment of an idle accumulator row; ACLD takes its 256 bytes at issue, clears the fix
enable, counts its row towards the undo area, and writes the segment when it lands: the row is saved to the undo area
first, and no other element changes. -/
def Obligations.AccumulatorSegments : Prop :=
  (∀ (s : State) (k : Nat) (b : Bool) (n row seg : Nat) (bits : VWord), k < 16 → seg < 16 → tabWf 0 (getCore s k).acc = true →
    (getProd (getCore s k) (whoCtx b))[n]? = some (.acld row seg bits) →
    (∀ r g v, Producer.acld r g v ∈ (getProd (getCore s k) (whoCtx b)).take n → r ≠ row) →
    ∃ t, exec (.longLatencyWriteback k (whoCtx b) n) s = .next t ∧
      (∀ j, j < 1024 → elem 32 (accRow (getCore t k) row).toNat j = if 64 * seg ≤ j ∧ j < 64 * seg + 64 then
        elem 32 bits.toNat (j - 64 * seg) else elem 32 (accRow (getCore s k) row).toNat j) ∧
      (∀ r, r ≠ row → accRow (getCore t k) r = accRow (getCore s k) r) ∧
      ((∀ w, (row, w) ∉ (ctxAt s k b).undo) → (row, accRow (getCore s k) row) ∈ (ctxAt t k b).undo) ∧
      (∀ u, u ∈ (ctxAt s k b).undo → u ∈ (ctxAt t k b).undo) ∧
      getProd (getCore t k) (whoCtx b) = (getProd (getCore s k) (whoCtx b)).eraseIdx n ∧ SameMem s t) ∧
  ∀ (s : State) (r : BitVec 8) (g : BitVec 4) (a : BitVec 5) (e : Bool) (p : BitVec 3),
    (Ready s (.acst r g a e p) → storeTrap s .spad (ux s a) 256 64 = none → rowBusy s r.toNat = false →
      acldOn (actCtx s) r.toNat = false → badWord s (accKey s.cur r.toNat (64 * g.toNat)) 256 = none → StoreRoom s →
      exec (.acst r g a e p) s = .next (stored (countFixed s (accKey s.cur r.toNat (64 * g.toNat)) 256) .spad (ux s a) (natLe 256 (packElems 32 ((List.range 64).map fun j =>
        elem 32 (oldRow s r.toNat).toNat (64 * g.toNat + j)))))) ∧
    (Ready s (.acld r g a e p) → LoadGoes s .spad (ux s a) 256 64 → undoOver (actCtx s) [r.toNat] = false →
      s.cur < 16 → (curCore s).curator = false → ∃ t, exec (.acld r g a e p) s = .next t ∧
        t.scr.prods = s.scr.prods ++ [.acld r.toNat g.toNat (BitVec.ofNat 2048 (leNat (actRead s .spad (ux s a) 256)))] ∧
        (actRegs t).fixEn = false ∧ r.toNat ∈ (actCtx t).undoRows ∧ (curCore t).acc = (curCore s).acc ∧ SameMem s t)

/-- R248 to R251: STCFG loads a legal descriptor and starts at index 0 in every dimension, or at the restored indices
(R415) for the first load after a restore; STGET reads an index or the miss flag; STSET sets an index below its count
or clears the miss flag; STADV advances the stream. Where the rules leave a choice the clause is the model’s own
reading (log entry 4). -/
def Obligations.StreamRegisters : Prop :=
  ∀ (s : State) (k : BitVec 4) (p : BitVec 3) (st : Stream), st = getStream s k.toNat →
    (∀ a e o, Ready s (.stcfg k a e o p) → LoadGoes s .spad (lsAddr s a o 64) 64 64 → ∀ w u,
      w = leNat (actRead s .spad (lsAddr s a o 64).toNat 64) →
      u = countFixed s (spaceKey s.cur .spad (lsAddr s a o 64).toNat) 64 →
      (descIllegal (curCore s) w = true → exec (.stcfg k a e o p) s =
        .next (raise u 0x01 ((encode (.stcfg k a e o p)).getD 0))) ∧
      (descIllegal (curCore s) w = false → ((actRegs s).st.getD k.toNat .reset).loaded = true →
        exec (.stcfg k a e o p) s =
          .next (putStream u k.toNat ⟨true, BitVec.ofNat 512 w, [0, 0, 0, 0, 0, 0], false, none⟩)) ∧
      (descIllegal (curCore s) w = false → (curCore s).curator = true ∨ (∀ r, r ∈ (actCtx s).restored → r.1 ≠ k.toNat) →
        exec (.stcfg k a e o p) s =
          .next (putStream u k.toNat ⟨true, BitVec.ofNat 512 w, [0, 0, 0, 0, 0, 0], false, none⟩)) ∧
      (descIllegal (curCore s) w = false → ((actRegs s).st.getD k.toNat .reset).loaded = false →
        (curCore s).curator = false → ∀ r, ((actCtx s).restored.find? fun r => r.1 == k.toNat) = some r →
        exec (.stcfg k a e o p) s = .next (putStream u k.toNat ⟨true, BitVec.ofNat 512 w, r.2.1, r.2.2, none⟩))) ∧
    (∀ d l, Ready s (.stget d k l p) → exec (.stget d k l p) s = .next (sendReg s 1 (xReg d.toNat)
      ((if ((actRegs s).st.getD k.toNat .reset).loaded = false then 0
        else if l = 6 then b01 ((actRegs s).st.getD k.toNat .reset).miss
        else ((actRegs s).st.getD k.toNat .reset).idx.getD l.toNat 0) % 2 ^ 64))) ∧
    (∀ v e l, Ready s (.stset v k e l p) →
      (st.loaded = true → l = 6 → exec (.stset v k e l p) s = .next (putStream s k.toNat { st with miss := false })) ∧
      (st.loaded = true → l ≠ 6 → ux s v < stCount st l.toNat →
        exec (.stset v k e l p) s = .next (putStream s k.toNat { st with idx := st.idx.set l.toNat (ux s v) })) ∧
      (st.loaded = true → l ≠ 6 → stCount st l.toNat ≤ ux s v → ∃ val,
        exec (.stset v k e l p) s = .next (raise s 0x05 val)) ∧
      (st.loaded = false → exec (.stset v k e l p) s = .next (raise s 0x01 ((encode (.stset v k e l p)).getD 0)))) ∧
    (∀ l, Ready s (.stadv k l p) → st.loaded = false →
      exec (.stadv k l p) s = .next (raise s 0x01 ((encode (.stadv k l p)).getD 0))) ∧
    (∀ l idx, Ready s (.stadv k l p) → st.loaded = true →
      idx = ((List.range 6).map fun j =>
        if j < l.toNat then st.idx.getD j 0
        else if j = l.toNat then (if stCount st l.toNat = 0 then 0 else (st.idx.getD l.toNat 0 + 1) % stCount st l.toNat)
        else 0) →
      exec (.stadv k l p) s = .next (putStream s k.toNat { st with idx := idx }))

/-- R252, R253 and R58: RPOP frees the head token of a port at the end of its bundle, and waits while none is visible;
XRD delivers an exact cell of 16 bytes as a binary64 number, rounded once, scaled by xbp, with its flags. Where the
rules leave a choice the clause is the model’s own reading (log entry 96). -/
def Obligations.RingPopsAndCells : Prop :=
  ∀ (s : State) (p : BitVec 3),
    (∀ o : BitVec 3, Ready s (.rpop o p) → ∀ c, ringCfg (actCtx s) o.toNat = some c →
      exec (.rpop o p) s = .next (
        if visibleToks c (getIn (actCtx s) o.toNat) = [] then freeze s (.rpop o.toNat)
        else modScr s fun q => { q with pops := q.pops ++ [o.toNat] })) ∧
    (∀ o : BitVec 3, Ready s (.rpop o p) → ringCfg (actCtx s) o.toNat = none →
      exec (.rpop o p) s = .next (raise s 0x10 (o.toNat + 1 * 2 ^ 8))) ∧
    (∀ d a e o, Ready s (.xrd d a e o p) → LoadGoes s .spad (lsAddr s a o 16) 16 16 → ∀ w v fl u,
      u = countFixed s (spaceKey s.cur .spad (lsAddr s a o 16).toNat) 16 →
      w = leNat (actRead s .spad (lsAddr s a o 16).toNat 16) →
      (v, fl) = roundTo f64 .rne (dyOfInt (sextNat 128 w) (actRegs s).xbp.toInt) →
      floatTrap s (if bitsOf w 119 9 = 0 ∨ bitsOf w 119 9 = 511 then fl else fl ||| fXRANGE) = 0 →
      exec (.xrd d a e o p) s = .next (sendLong u [(xReg d.toNat, v)]
        (if bitsOf w 119 9 = 0 ∨ bitsOf w 119 9 = 511 then fl else fl ||| fXRANGE) .float))

/-- R221, R53 and R101: MAC replaces, or adds to, every element of its row the exact dot product of the activation row
with a column of the front plane, rounded once; the row is saved to the undo area first, and no other row changes.
R217 and R221: the activation row of a MAC through a stream of an unscaled format is the elements that the stream
reads; a stream that is not loaded, that writes, or that has another format traps ILLEGAL. -/
def Obligations.MacBeats : Prop :=
  (∀ (s s' : State) (r : BitVec 8) (src : BitVec 5) (o : BitVec 2) (e : Bool) (p : BitVec 3) (a : List FVal),
     Ready s (.mac r src o e p) → mfmtPair (actRegs s).acode.toNat (frontCode (actRegs s)) = true → s.cur < 16 →
     ActRow s src.toNat (actRegs s).acode.toNat s' a → a.length = codeK (frontCode (actRegs s)) →
     curCore s' = curCore s → s'.cur = s.cur → s'.flips = s.flips → RowFree s r.toNat →
     tabWf 0 (curCore s).acc = true →
     ∃ t, exec (.mac r src o e p) s = .next t ∧
       (∀ n, n < 1024 → elem 32 (accRow (curCore t) r.toNat).toNat n = exactDot (beatColumn s a (o == 1) r.toNat n) % 2 ^ 32) ∧
       (∀ m, m ≠ r.toNat → accRow (curCore t) m = accRow (curCore s) m) ∧
       ((∀ w, (r.toNat, w) ∉ (actCtx s).undo) → (r.toNat, accRow (curCore s) r.toNat) ∈ (actCtx t).undo) ∧ r.toNat ∈ (actCtx t).macBusy ∧ (actRegs t).fixEn = false ∧ t.mem = s'.mem) ∧
  (∀ (s s' : State) (src code : Nat) (bs : List Byte) (st' : Stream), src < 16 →
     (mxOf code = none → (getStream s src).loaded = true → stFmt (getStream s src) = code → stDir (getStream s src) = false →
       StreamReads s src (getStream s src) (codeK code * codeBits code / 8) (codeBits code / 8) s' bs st' →
       ActRow s src code (putStream s' src st') (rowVals code (codeK code) (leNat bs) [])) ∧
     (∀ r o e p (v : BitVec 5), v.toNat = src → code = (actRegs s).acode.toNat → Ready s (.mac r v o e p) →
       ((getStream s src).loaded = false ∨ stFmt (getStream s src) ≠ code ∨ stDir (getStream s src) = true) →
       exec (.mac r v o e p) s = .next (raise s 0x01 ((encode (.mac r v o e p)).getD 0))))

/-- R219 and R218: MWLD through a legal stream starts a load of beats k to 63 into the back plane and records it; each
beat that lands writes its rows and sets its bit of the loaded-beat mask. Where the rules leave a choice the clause is
the model’s own reading (log entries 108 and 158). -/
def Obligations.WeightLoads : Prop :=
  (∀ (s s' : State) (k : BitVec 6) (n : BitVec 4) (p : BitVec 3) (data : List (List PlaneRow)) (st' : Stream),
    Ready s (.mwld k n p) → mwldIllegal (actRegs s) (getStream s n.toNat) = false → s.cur < 16 →
    BeatRows s n.toNat (getStream s n.toNat) (actRegs s).wcode.toNat k.toNat s' data st' →
    s'.cores = s.cores → s'.cur = s.cur → (curCore s).mwld = none → (actCtx s).copy.front = (actRegs s).front →
    (curCore s).curator = false →
    ∃ t, exec (.mwld k n p) s = .next t ∧
      (curCore t).mwld = some ⟨runCtx (curCore s), !(actRegs s).front, k.toNat, data, false⟩ ∧
      (getRec (actRegs t) (!(actRegs s).front)).mask = (getRec (actRegs s) (!(actRegs s).front)).mask ∧
      (∃ l, l ∈ (getRec (actRegs t) (!(actRegs s).front)).entries ∧ l.k = k.toNat) ∧ t.mem = s'.mem) ∧
  (∀ (s : State) (k : Nat) (l : MwldLoad) (d : List PlaneRow) (ds : List (List PlaneRow)), k < 16 →
    (getCore s k).mwld = some l → l.data = d :: ds → l.beat < 64 → ∃ t, exec (.mwldBeatLand k) s = .next t ∧
      (getRec (ctxAt t k l.ctx).live l.plane).mask.getLsbD l.beat = true ∧
      (ds = [] → (getCore t k).mwld = none) ∧
      (ds ≠ [] → (getCore t k).mwld = some { l with beat := l.beat + 1, data := ds }) ∧
      getPlane (getCore t k) l.plane = putBeat (getRec (ctxAt s k l.ctx).live l.plane).code (getPlane (getCore s k) l.plane) l.beat d ∧
      (getCore t k).acc = (getCore s k).acc ∧ SameMem s t)

/-- R218, R220, R223, R224, R237 and R238: MFMT sets the format register; MSWP exchanges the planes once the context's
load has landed, empties the outgoing record and clears ckres, ckloc and the fix enable; MCLR sets its rows to +0 and
saves them; MMPB loads the mask unit from 1024 aligned bytes, and its bias array when lmb is set. Where the rules
leave a choice the clause is the model’s own reading (log entry 43). -/
def Obligations.ArrayConfiguration : Prop :=
  ∀ (s : State) (p : BitVec 3),
    (∀ a w : BitVec 4, Ready s (.mfmt a w p) →
      exec (.mfmt a w p) s = .next (modAct s fun r => { r with acode := a, wcode := w })) ∧
    (Ready s (.mswp p) → s.cur < 16 → (curCore s).curator = false →
      (∀ l, (curCore s).mwld = some l → l.ctx ≠ runCtx (curCore s)) → ∃ t, exec (.mswp p) s = .next t ∧
        (actRegs t).front = !(actRegs s).front ∧ (getRec (actRegs t) (actRegs s).front).mask = 0 ∧
        (getRec (actRegs t) (actRegs s).front).entries = [] ∧
        getRec (actRegs t) (!(actRegs s).front) = getRec (actRegs s) (!(actRegs s).front) ∧
        (actRegs t).ckres = 0 ∧ (actRegs t).ckloc = 0 ∧ (actRegs t).fixEn = false ∧
        (curCore t).acc = (curCore s).acc ∧ SameMem s t) ∧
    (∀ (r : BitVec 8) (c : BitVec 5), Ready s (.mclr r c p) → s.cur < 16 → tabWf 0 (curCore s).acc = true →
      (∀ n, r.toNat ≤ n → n ≤ r.toNat + c.toNat → acldOn (actCtx s) n = false) →
      undoOver (actCtx s) (rangeFrom r.toNat (r.toNat + c.toNat + 1)) = false → ∃ t, exec (.mclr r c p) s = .next t ∧
        (∀ n, accRow (curCore t) n =
          if r.toNat ≤ n ∧ n ≤ r.toNat + c.toNat then 0 else accRow (curCore s) n) ∧
        (∀ n, r.toNat ≤ n → n ≤ r.toNat + c.toNat → (∀ w, (n, w) ∉ (actCtx s).undo) →
          (n, accRow (curCore s) n) ∈ (actCtx t).undo) ∧
        (∀ u, u ∈ (actCtx s).undo → u ∈ (actCtx t).undo) ∧ (actRegs t).fixEn = false ∧ SameMem s t) ∧
    (∀ a e w, Ready s (.mmpb a e p) → s.cur < 16 → LoadGoes s .spad (ux s a) 1024 64 →
      w = leNat (actRead s .spad (ux s a) 1024) → maskIllegal w = false →
      (bitOf w 2 = false → ∃ t, exec (.mmpb a e p) s = .next t ∧
        (actRegs t).mask = maskBlock w (actRegs s).mask.bias ∧ (actCtx t).mmpbBusy = true ∧ SameMem s t) ∧
      (bitOf w 2 = true → LoadGoes s .spad (bitsOf w 224 23 : Nat) 4096 64 → ∃ t, exec (.mmpb a e p) s = .next t ∧
        (actCtx t).mmpbBusy = true ∧ (actRegs t).mask.lmb = true ∧ (∀ i, i < 1024 →
          tabGet 0 (actRegs t).mask.bias i =
            BitVec.ofNat 32 (elem 32 (leNat (actRead s .spad (bitsOf w 224 23) 4096)) i)) ∧ SameMem s t))

/-- R222 and R227: MDRN delivers a segment of an idle row, element by element masked and scaled as it asks, and the
raw elements when it asks for neither; the row stays as it was. Where the rules leave a choice the clause is the
model’s own reading (log entry 48). -/
def Obligations.Drains : Prop :=
  ∀ (s : State) (d : BitVec 5) (r : BitVec 8) (g : BitVec 4) (m c : Bool) (p : BitVec 3),
    Ready s (.mdrn d r g m c p) → r.toNat ∉ (actCtx s).macBusy → acldOn (actCtx s) r.toNat = false →
    (m = true ∨ c = true → (actCtx s).mmpbBusy = false) → badWord s (accKey s.cur r.toNat (64 * g.toNat)) 256 = none →
    ∃ sp v, exec (.mdrn d r g m c p) s =
        .next (sendLong (modAct (countFixed s (accKey s.cur r.toNat (64 * g.toNat)) 256) fun q => { q with span := sp }) [(vReg d.toNat, v)] 0 .plain) ∧
      ∀ j, j < 64 → elem 32 v j =
        (if m = false ∧ c = false then elem 32 (accRow (curCore s) r.toNat).toNat (64 * g.toNat + j)
         else drainElem (actRegs s).mask m c r.toNat (64 * g.toNat + j)
           (elem 32 (accRow (curCore s) r.toNat).toNat (64 * g.toNat + j)) % 2 ^ 32)

/-- R229, R233 and R234: MCHK awaits its comparison; MLOC reports the located element while the fix is enabled and 0
otherwise; MFIX without the fix enable does nothing, and with it takes the residual of the located row from the
located element, exactly and rounded once to nearest, and changes no other element; the row is saved to the undo area
first. R64, R224, R229, R232, R235 and R239: the comparison that follows an MCHK once the array is idle and its drains
and ACLDs have landed. Nothing found resets the check span; one row and one column enable the fix; anything else rolls
back for a retry, or, with policy 1, marks the barrier word that ckpol names. The array's own waits end. Where the
rules leave a choice the clause is the model’s own reading (log entries 34, 46 and 107). -/
def Obligations.Caliper : Prop :=
  (∀ (s : State) (p : BitVec 3), s.cur < 16 →
     (Ready s (.mchk p) → (bitOf (actRegs s).ckpol.toNat 0 = true → pendCount (actCtx s) < 64) →
       exec (.mchk p) s = .next (modActCtx s fun x => { x with mchk := some (issueIndex (curCore s)) })) ∧
     (Ready s (.mloc p) → ∃ t, exec (.mloc p) s = .next t ∧
       ((actRegs s).fixEn = false → (actRegs t).ckloc = 0) ∧
       (∀ row col d, (actRegs s).fixEn = true → (actRegs s).span.delta = some (row, col, d) → row < 256 → col < 1024 →
         bitsOf (actRegs t).ckloc.toNat 0 8 = row ∧ bitsOf (actRegs t).ckloc.toNat 8 10 = col ∧
         bitOf (actRegs t).ckloc.toNat 18 = true) ∧ SameMem s t) ∧
     (Ready s (.mfix p) → (actRegs s).fixEn = false → exec (.mfix p) s = .next s) ∧
     (Ready s (.mfix p) → (actRegs s).fixEn = true → (curCore s).curator = false → ∀ row col,
       row = bitsOf (actRegs s).ckloc.toNat 0 8 → col = bitsOf (actRegs s).ckloc.toNat 8 10 →
       acldOn (actCtx s) row = false → undoOver (actCtx s) [row] = false → tabWf 0 (curCore s).acc = true →
       badWord s (accKey s.cur row col) 4 = none → ∀ o, o = elem 32 (accRow (curCore s) row).toNat col →
       ∃ t, exec (.mfix p) s = .next t ∧ (actRegs t).fixEn = false ∧
         elem 32 (accRow (curCore t) row).toNat col % 2 ^ 32 = (if fvFinite (fdecode f32 o) then
           (roundTo f32 .rne (exDy (exSub (ex32 o) (fixDelta (actRegs s).span row)))).1 else o) % 2 ^ 32 ∧
         ((∀ w, (row, w) ∉ (actCtx s).undo) → (row, accRow (curCore s) row) ∈ (actCtx t).undo) ∧
         (∀ n, n ≠ row → accRow (curCore t) n = accRow (curCore s) n) ∧
         (∀ j, j < 1024 → j ≠ col →
           elem 32 (accRow (curCore t) row).toNat j = elem 32 (accRow (curCore s) row).toNat j) ∧ SameMem s t)) ∧
  (∀ (s : State) (k : Nat) (b : Bool), k < 16 →
     (∃ t, exec (.mmpbLoadDone k b) s = .next t ∧ (ctxAt t k b).mmpbBusy = false ∧ SameMem s t) ∧
     (∀ row, ∃ t, exec (.arrayInterlockExpiry k b row) s = .next t ∧
       (∀ n, row = some n → n ∉ (ctxAt t k b).macBusy) ∧ (row = none → (ctxAt t k b).bf16Busy = false) ∧ SameMem s t) ∧
     (∀ pc v, (ctxAt s k b).mchk = some pc → (ctxAt s k b).mmpbBusy = false → (ctxAt s k b).macBusy = [] →
       arrayOpen (ctxAt s k b) = false → v = compareSpan s k b →
       (v.rows = [] → v.cols = [] → ∃ t, exec (.caliperCompare k b) s = .next t ∧ (ctxAt t k b).mchk = none ∧
         (ctxAt t k b).live.ckres = ckresOf v ∧ (ctxAt t k b).live.span = .reset ∧ (ctxAt t k b).live.fixEn = false ∧
         SameMem s t) ∧
       (∀ row d col, v.rows = [(row, d)] → v.cols = [col] → ∃ t, exec (.caliperCompare k b) s = .next t ∧
         (ctxAt t k b).mchk = none ∧ (ctxAt t k b).live.fixEn = true ∧
         (ctxAt t k b).live.span.delta = some (row, col, d) ∧ SameMem s t) ∧
       (v.rows.length + v.cols.length ≠ 0 → (v.rows.length ≠ 1 ∨ v.cols.length ≠ 1) →
         (bitOf (ctxAt s k b).live.ckpol.toNat 0 = false → (ctxAt s k b).rerun = .none → (ctxAt s k b).ckcnt = 0 →
           ∃ t, exec (.caliperCompare k b) s = .next t ∧ (ctxAt t k b).ckcnt = 1 ∧ (ctxAt t k b).retry = true ∧
             (ctxAt t k b).pattern = patternOf v ∧ (ctxAt t k b).withheld = [] ∧
             (ctxAt t k b).live.x = (ctxAt s k b).copy.x ∧ SameMem s t) ∧
         (bitOf (ctxAt s k b).live.ckpol.toNat 0 = true → ∃ t, exec (.caliperCompare k b) s = .next t ∧
           (ctxAt t k b).mchk = none ∧ (ctxAt t k b).live.ckres = ckresOf v ∧ (ctxAt t k b).withheld =
             (ctxAt s k b).withheld ++ [.barError (8 * bitsOf (ctxAt s k b).live.ckpol.toNat 3 20)] ∧ SameMem s t))) ∧
     (∀ pc, (ctxAt s k b).mchk = some pc →
       ((ctxAt s k b).mmpbBusy = true ∨ (ctxAt s k b).macBusy ≠ [] ∨ arrayOpen (ctxAt s k b) = true) →
       exec (.caliperCompare k b) s = .next s))

/-- R254: a launch with a free queue slot and an aligned card in the scratchpad is withheld in stage mode; it freezes
while the queue is full, and traps ALIGN or BOUND by the card's address. R254 and R329: a curator launch reads its
card at issue and makes a queued job of it; it writes only the status and the xbp fields of the card. Where the rules
leave a choice the clause is the model’s own reading (log entries 54, 127 and 142). -/
def Obligations.Launches : Prop :=
  (∀ (s : State) (i : Instr) (major : Nat) (a : BitVec 5) (o : BitVec 9), launchOf i = some (major, a, o) → Ready s i →
     (queueRoom s = true → lsAddr s a o 128 % 128 = 0 → lsAddr s a o 128 < 2 ^ 23 →
       (curCore s).curator = false → pendCount (actCtx s) < 64 →
       exec i s = .next (pended s (.launch major (lsAddr s a o 128).toNat none))) ∧
     (queueRoom s = false → exec i s = .next (freeze s .engineQueue)) ∧
     (queueRoom s = true → lsAddr s a o 128 % 128 ≠ 0 →
       exec i s = .next (raise s 0x04 (addrValI .spad (lsAddr s a o 128)))) ∧
     (queueRoom s = true → lsAddr s a o 128 % 128 = 0 → 2 ^ 23 ≤ lsAddr s a o 128 →
       exec i s = .next (raise s 0x05 (addrValI .spad (lsAddr s a o 128))))) ∧
  (∀ (s : State) (i : Instr) (major : Nat) (a : BitVec 5) (o : BitVec 9) (C : Nat), launchOf i = some (major, a, o) →
     Ready s i → (curCore s).curator = true → s.cur < 16 → curatorIdle s = true → Memory.wf s.mem = true →
     (C : Int) = lsAddr s a o 128 → C % 128 = 0 → C < 2 ^ 23 →
     ∃ t j, exec i s = .next t ∧ (curCore t).jobs = (curCore s).jobs ++ [j] ∧ j.major = major ∧ j.card = C ∧
       j.owner = .cur ∧ j.state = .queued ∧ j.bytes = actRead s .spad C 128 ∧
       (s.scr.before = [] → j.bytes = memRead s (spaceKey s.cur .spad C) 128) ∧
       ∀ b, ¬(spaceKey s.cur .spad (C + 4) ≤ b ∧ b < spaceKey s.cur .spad (C + 6)) →
         ¬(spaceKey s.cur .spad (C + 48) ≤ b ∧ b < spaceKey s.cur .spad (C + 58)) → memByte t b = memByte s b)

/-- R15, R16, R264 and R265: TSEND withholds a send, reserving a credit of a FIFO port or taking the oldest granted
ticket of a REORDER port; without a credit, or while the ticket is beyond the ring, it freezes; a length outside the
port's limits and a port that is not configured trap RINGERR. TKTG claims its destination for a ticket, to be asked
for only after the commit of a MARK that stands before it (R274). R274 and R275: MARK in a source with a credit on
every FIFO port and no unsent ticket is withheld and reserves the credits; in a stage with inputs, cow ports apart
(R311), it traps RINGERR. JSTAT reads the done and killed bits of a card at latency 6. Where the rules leave a choice
the clause is the model’s own reading (log entries 53, 110 and 140). -/
def Obligations.TokenInstructions : Prop :=
  (∀ (s : State) (t : BitVec 5) (a : BitVec 5) (e : Bool) (b : BitVec 5) (f : Bool) (o : BitVec 3) (p : BitVec 3),
     (Ready s (.tsend t a e b f o p) → ux s a % 16 = 0 → ux s a + 16 + ux s b ≤ 2 ^ 23 →
       (∀ c, outCfg (actCtx s) o.toNat = some c → ux s b % 16 = 0 → 64 ≤ ux s b → ux s b ≤ c.maxlen →
         pendCount (actCtx s) < 64 → s.scr.implicit = false → actBad s .spad (ux s a) (16 + ux s b) = none →
         (c.reorder = false → (getOut (actCtx s) o.toNat).credits = 0 →
           exec (.tsend t a e b f o p) s = .next (freeze s (.credit o.toNat))) ∧
         (c.reorder = false → (getOut (actCtx s) o.toNat).credits ≠ 0 →
           exec (.tsend t a e b f o p) s = .next (modActCtx (pended s (.send o.toNat t.toNat (ux s a) (ux s b) none none))
             fun x => modOut x o.toNat fun q => { q with credits := q.credits - 1, reserved := q.reserved + 1 })) ∧
         (c.reorder = true → ∀ k rest, (getOut (actCtx s) o.toNat).granted = k :: rest →
           ticketDist k (getOut (actCtx s) o.toNat).head < 2 ^ c.n → 2 ^ c.n ≤ 2 ^ 15 →
           exec (.tsend t a e b f o p) s = .next (modActCtx (pended s (.send o.toNat t.toNat (ux s a) (ux s b) (some k) none))
             fun x => modOut x o.toNat fun q => { q with granted := q.granted.drop 1, used := q.used ++ [k], last := k })) ∧
         (c.reorder = true → (getOut (actCtx s) o.toNat).granted = [] → LoadGoes s .spad (ux s a + 4 : Nat) 2 2 →
           ∀ k u, k = leNat (actRead s .spad (ux s a + 4) 2) → u = countFixed s (spaceKey s.cur .spad (ux s a + 4)) 2 →
           ticketDist k (getOut (actCtx s) o.toNat).head < 2 ^ c.n → 2 ^ c.n ≤ 2 ^ 15 →
           exec (.tsend t a e b f o p) s = .next (modActCtx (pended u (.send o.toNat t.toNat (ux s a) (ux s b) (some k) none))
             fun x => modOut x o.toNat fun q => { q with last := k })) ∧
         (c.reorder = true → ∀ k rest, (getOut (actCtx s) o.toNat).granted = k :: rest →
           (2 ^ 15 ≤ ticketDist k (getOut (actCtx s) o.toNat).head →
             exec (.tsend t a e b f o p) s = .next (raise s 0x10 (ringVal o.toNat true 3))) ∧
           (2 ^ c.n ≤ ticketDist k (getOut (actCtx s) o.toNat).head → ticketDist k (getOut (actCtx s) o.toNat).head < 2 ^ 15 →
             exec (.tsend t a e b f o p) s = .next (freeze s (.ticket o.toNat))))) ∧
       (∀ c, outCfg (actCtx s) o.toNat = some c → (ux s b % 16 ≠ 0 ∨ ux s b < 64 ∨ c.maxlen < ux s b) →
         exec (.tsend t a e b f o p) s = .next (raise s 0x10 (ringVal o.toNat true 2))) ∧
       (outCfg (actCtx s) o.toNat = none → exec (.tsend t a e b f o p) s = .next (raise s 0x10 (ringVal o.toNat true 1)))) ∧
     (Ready s (.tsend t a e b f o p) →
       (ux s a % 16 ≠ 0 → exec (.tsend t a e b f o p) s = .next (raise s 0x04 (ux s a % 2 ^ 63))) ∧
       (ux s a % 16 = 0 → 2 ^ 23 < ux s a + 16 + ux s b →
         exec (.tsend t a e b f o p) s = .next (raise s 0x05 (ux s a % 2 ^ 63)))) ∧
     (Ready s (.tktg t o p) →
       (∀ c, outCfg (actCtx s) o.toNat = some c → c.reorder = true → exec (.tktg t o p) s =
         .next (addProducer (claim s [xReg t.toNat]) (.tktg t.toNat o.toNat ((actCtx s).withheld.contains .mark)))) ∧
       (∀ c, outCfg (actCtx s) o.toNat = some c → c.reorder = false → exec (.tktg t o p) s =
         .next (raise s 0x10 (ringVal o.toNat true 8))) ∧
       (outCfg (actCtx s) o.toNat = none → exec (.tktg t o p) s = .next (raise s 0x10 (ringVal o.toNat true 1))))) ∧
  (∀ (s : State) (p : BitVec 3),
     (Ready s (.mark p) → ctlPorts (actCtx s) = [] →
       (∀ m, m ∈ membersOf s s.cur (runCtx (curCore s)) → ctlPorts (ctxAt s m.1 m.2) = []) →
       (noCredit (actCtx s) = none → heldTicket (actCtx s) = none → pendCount (actCtx s) < 64 → s.scr.implicit = false →
         exec (.mark p) s = .next (modActCtx (pended s .mark) reserveAll)) ∧
       (∀ o, noCredit (actCtx s) = some o → exec (.mark p) s = .next (freeze s (.credit o))) ∧
       (∀ o, noCredit (actCtx s) = none → heldTicket (actCtx s) = some o → exec (.mark p) s = .next (freeze s (.ticket o)))) ∧
     (Ready s (.mark p) → ∀ i l, ctlPorts (actCtx s) = i :: l → exec (.mark p) s =
       .next (raise s 0x10 (ringVal i.1 false 7))) ∧
     (∀ d a e, Ready s (.jstat d a e p) → ux s a % 128 ≠ 0 → exec (.jstat d a e p) s = .next (raise s 0x04 (ux s a % 2 ^ 63))) ∧
     (∀ d a e, Ready s (.jstat d a e p) → ux s a % 128 = 0 → ux s a < 2 ^ 23 →
       ((curCore s).curator = true ∨ (actCtx s).relq = []) → badWord s (spaceKey s.cur .spad (ux s a + 4)) 2 = none →
       exec (.jstat d a e p) s = .next (sendReg (countFixed s (spaceKey s.cur .spad (ux s a + 4)) 2) 6 (qReg d.toNat)
         (b01 (bitOf (leNat (actRead s .spad (ux s a + 4) 2)) 0 || bitOf (leNat (actRead s .spad (ux s a + 4) 2)) 6)))))

/-- R76, R269 and R270: BARI and BARA on an aligned scratchpad word are withheld in stage mode; in curator mode BARI
writes the word at once, remaining and status with the phase kept, and BARA arrives on it once the curator has no job
and no remote arrival of its own outstanding. A BARA on another package's word is queued as a request of class 0,
whose first bit is the error bit, or counted as dropped where no way leads there; a misaligned address traps ALIGN,
one that names no word BOUND. R76: one arrival on a barrier word. An arrival beyond the last marks an error; the last
one advances the phase; an arrival with an error marks it; the cancelled bit is set by a cancelling arrival. Where the
rules leave a choice the clause is the model’s own reading (log entries 9 and 55). -/
def Obligations.Barriers : Prop :=
  ((∀ (s : State) (a : BitVec 5) (e r : Bool) (p : BitVec 3), Ready s (.bara a e r p) →
     (ux s a % 8 = 0 → bitOf (ux s a) 63 = true → remoteBarBad (ux s a) = false →
       ((curCore s).curator = false → queueRoom s = true → pendCount (actCtx s) < 64 →
         exec (.bara a e r p) s = .next (pended s (.bara (rx s a) r))) ∧
       ((curCore s).curator = true → curatorIdle s = true → ∀ fl, fl = baraFlit s (partOf (curCore s)) (ux s a) r →
         ∃ t, exec (.bara a e r p) s = .next t ∧ t.cores = s.cores ∧ t.scr = s.scr ∧ SameMem s t ∧
         (routable s fl = true → Underway t 0 ⟨0, fl, .bara s.cur (rx s a) true, partOf (curCore s), 0, 0, s.cur⟩) ∧
         (routable s fl = false → t.router = { s.router with dropped := s.router.dropped + 1 })) ∧
       ((curCore s).curator = true → curatorIdle s = false → exec (.bara a e r p) s = .next (freeze s .jobs))) ∧
     (ux s a % 8 = 0 → bitOf (ux s a) 63 = true → remoteBarBad (ux s a) = true →
       exec (.bara a e r p) s = .next (raise s 0x05 (ux s a))) ∧
     (ux s a % 8 ≠ 0 → bitOf (ux s a) 63 = true → exec (.bara a e r p) s = .next (raise s 0x04 (ux s a))) ∧
     (ux s a % 8 ≠ 0 → bitOf (ux s a) 63 = false → exec (.bara a e r p) s = .next (raise s 0x04 (ux s a))) ∧
     (ux s a % 8 = 0 → bitOf (ux s a) 63 = false → 2 ^ 23 ≤ ux s a → exec (.bara a e r p) s = .next (raise s 0x05 (ux s a)))) ∧
   ∀ (s : State) (a : BitVec 5) (e : Bool) (b : BitVec 5) (f r : Bool) (p : BitVec 3), ux s a % 8 = 0 → ux s a < 2 ^ 23 →
     (Ready s (.bari a e b f p) → ux s b < 2 ^ 32 → (curCore s).curator = false → queueRoom s = true →
       pendCount (actCtx s) < 64 →
       exec (.bari a e b f p) s = .next (pended s (.bari (ux s a) (BitVec.ofNat 32 (ux s b))))) ∧
     (Ready s (.bari a e b f p) → ux s b < 2 ^ 32 → queueRoom s = false → exec (.bari a e b f p) s =
       .next (freeze s .engineQueue)) ∧
     (Ready s (.bari a e b f p) → ux s b < 2 ^ 32 → (curCore s).curator = true → queueRoom s = true → ∃ w t, exec (.bari a e b f p) s = .next t ∧
       t = memWrite s (spaceKey s.cur .spad (ux s a)) (natLe 8 w) ∧ bitsOf w 0 32 = ux s b ∧ bitsOf w 32 2 = 0 ∧
       bitsOf w 48 16 = (bitsOf (leNat (memRead s (spaceKey s.cur .spad (ux s a)) 8)) 48 16 + (if ux s b = 0 then 1 else 0)) % 2 ^ 16) ∧
     (Ready s (.bari a e b f p) → 2 ^ 32 ≤ ux s b → exec (.bari a e b f p) s =
       .next (raise s 0x01 ((encode (.bari a e b f p)).getD 0))) ∧
     (Ready s (.bara a e r p) → (curCore s).curator = false → queueRoom s = true → pendCount (actCtx s) < 64 →
       exec (.bara a e r p) s = .next (pended s (.bara (rx s a) r))) ∧
     (Ready s (.bara a e r p) → (curCore s).curator = true →
       (curatorIdle s = true → exec (.bara a e r p) s = .next (arrive s s.cur (ux s a) r false)) ∧
       (curatorIdle s = false → exec (.bara a e r p) s = .next (freeze s .jobs))) ∧
     (curatorIdle s = true ↔ (∀ j, j ∈ (curCore s).jobs → j.owner ≠ .cur) ∧ remoteBaras s s.cur true = [])) ∧
  (∀ (w : Nat) (err cancel : Bool), w < 2 ^ 64 →
     (bitsOf w 0 32 = 0 → bitsOf (arriveWord w err cancel) 0 32 = 0 ∧ bitOf (arriveWord w err cancel) 32 = true ∧
       bitsOf (arriveWord w err cancel) 48 16 = bitsOf w 48 16) ∧
     (bitsOf w 0 32 ≠ 0 → bitsOf (arriveWord w err cancel) 0 32 = bitsOf w 0 32 - 1 ∧
       bitOf (arriveWord w err cancel) 32 = (bitOf w 32 || err) ∧
       bitsOf (arriveWord w err cancel) 48 16 = (bitsOf w 48 16 + (if bitsOf w 0 32 = 1 then 1 else 0)) % 2 ^ 16) ∧
     bitOf (arriveWord w err cancel) 33 = (bitOf w 33 || cancel))

/-- R55, R100 and R104: a boundary that may commit. The max-magnitude effects reach am0 to am3, the registers become
the checkpoint copy, withheld effects are released in program order, the undo area and the replay lists empty, and a
firing that DONE ended is armed again. R241: the oldest released effect of a context, when nothing it waits for is
left, performs: a store writes its bytes at its address and leaves the release order. R396 and R397: at the boundary
of rerun 1 the signature is kept, the context rolls back and rerun 2 begins; rerun 2 commits when signature, bundle
count and outcome agree, and else takes DIVERGE with both signatures. Where the rules leave a choice the clause is the
model’s own reading (log entries 126, 127, 128, 140 and 141). -/
def Obligations.Checkpoints : Prop :=
  (∀ (s : State) (k : Nat) (b : Bool) (r : Regs), k < 16 → commitDue s k b = true →
     r = (ctxAt s k b).withheld.foldl applyAm (ctxAt s k b).live →
     (∀ m a x, (ctxAt s k b).withheld = [.launch m a x] → (ctxAt s k b).relq = [] → ∃ t j,
       exec (.checkpointCommit k b) s = .next t ∧ (getCore t k).jobs = (getCore s k).jobs ++ [j] ∧ j.major = m ∧ j.card = a ∧
       j.owner = whoCtx b ∧ j.state = .queued ∧ j.xbp = (ctxAt s k b).live.xbp ∧ SameMem s t) ∧
     ((∀ e, e ∈ (ctxAt s k b).withheld → (∀ m a x, e ≠ .launch m a x) ∧ ∀ n p w, e ≠ .tierMiss n p w) → ∃ t, exec (.checkpointCommit k b) s = .next t ∧ (ctxAt t k b).live = r ∧ (ctxAt t k b).copy = r ∧
       (ctxAt t k b).kcpc = nextIndex (ctxAt s k b) (ctxAt s k b).live.next ∧ (ctxAt t k b).withheld = [] ∧
       (ctxAt t k b).undo = [] ∧ (ctxAt t k b).undoRows = [] ∧ (ctxAt t k b).rngGot = [] ∧ (ctxAt t k b).boundary = none ∧
       (ctxAt t k b).relq.map (fun q => bareEffect q.eff) = (ctxAt s k b).relq.map (fun q => bareEffect q.eff) ++
         ((ctxAt s k b).withheld.filter (fun e => !isAm e && !emptyFence e)).map bareEffect ∧
       ((ctxAt s k b).boundary ≠ some .done → (getCore t k).running = some b ∧ (ctxAt t k b).firing = (ctxAt s k b).firing) ∧
       ((ctxAt s k b).boundary = some .done → (getCore t k).running = none ∧
         ((ctxAt s k b).status = .running → (ctxAt t k b).status = .armed)) ∧ SameMem s t)) ∧
  (∀ (s : State) (k : Nat) (b : Bool) (r : Released) (rest : List Released) (sp : Space) (a : Nat) (bs : List Byte),
     k < 16 → (ctxAt s k b).relq = r :: rest → r.eff = .store sp a bs → busyBefore s k r.seq sp a bs.length true = false →
     ∃ t, exec (.withheldStorePerform k b) s = .next t ∧ t.mem = (memWrite s (spaceKey k sp a) bs).mem ∧
       (ctxAt t k b).relq = rest ∧ ∀ j, j < 16 → j ≠ k → getCore t j = getCore s j) ∧
  (∀ (s : State) (k : Nat) (b : Bool), k < 16 → mayCommit s k b = true →
     ((ctxAt s k b).rerun = .first → ∃ t, exec (.rerunPairCompare k b) s = .next t ∧
       (ctxAt t k b).rerun = .second (signature s k b) (ctxAt s k b).bundles none ∧ (ctxAt t k b).withheld = [] ∧
       (ctxAt t k b).sig = [] ∧ (ctxAt t k b).bundles = 0 ∧ SameMem s t) ∧
     (∀ n, (ctxAt s k b).rerun = .second (signature s k b) n none → n = (ctxAt s k b).bundles →
       exec (.rerunPairCompare k b) s = .next (commitCtx (modCtxAt s k b endRerun) k b)) ∧
     (∀ sg n, (ctxAt s k b).rerun = .second sg n none → sg ≠ signature s k b → hasVector (getCore s k) 0x0B →
       ∃ t, exec (.rerunPairCompare k b) s = .next t ∧ (getCore t k).curator = true ∧
         bitsOf (getCore t k).kcause.toNat 0 8 = 0x0B ∧ kRerun (getCore t k) = true ∧
         (getCore t k).kval.toNat = sg.toNat + (signature s k b).toNat * 2 ^ 32 ∧ SameMem s t))

/-- R364: the arbiter chooses a waiting candidate; a starving one when there is one; else one of the highest priority.
R19, R364 to R367 and R369: the decisions of the arbiter and of the package scheduler: a choice begins or resumes its
firing; a candidate that waits long starves; the running context is preempted; an exhausted budget traps BUDGET; a
staged context takes over the array; a gang's firing opens for every member. Where the rules leave a choice the clause
is the model’s own reading (log entries 13, 64 and 132). -/
def Obligations.Scheduling : Prop :=
  (∀ (s : State) (k : Nat) (b : Bool), choose s k = some b →
     b ∈ waiters s k ∧
     ((∃ d, d ∈ waiters s k ∧ starves (getCore s k) (ctxAt s k d) = true) → starves (getCore s k) (ctxAt s k b) = true ∧
       ∀ d, d ∈ waiters s k → starves (getCore s k) (ctxAt s k d) = true → (ctxAt s k d).wait ≤ (ctxAt s k b).wait) ∧
     ((∀ d, d ∈ waiters s k → starves (getCore s k) (ctxAt s k d) = false) →
       ∀ d, d ∈ waiters s k → (ctxAt s k d).cfg.prio ≤ (ctxAt s k b).cfg.prio)) ∧
  (∀ (s : State) (k : Nat) (b : Bool), k < 16 →
     (idleCore (getCore s k) = true → queueDue s k = false → handoverDue s k = none → choose s k = some b →
       ∃ t, exec (.arbiterDecide k) s = .next t ∧ (getCore t k).running = some b ∧ (getCore t k).lastBegun = some b ∧
         (getCore t k).w = 0 ∧ (ctxAt t k b).status = .running ∧ (ctxAt t k b).firing = true ∧ (ctxAt t k b).wait = 0 ∧
         ((ctxAt s k b).status = .preempted → (ctxAt t k b).fires = (ctxAt s k b).fires) ∧
         ((ctxAt s k b).status = .armed → isGang (ctxAt s k b) = false → (ctxAt s k b).firing = false →
           (ctxAt t k b).fires = (ctxAt s k b).fires + 1) ∧ SameMem s t) ∧
     (isCandidate s k b = true → (getCore s k).budget ≠ 0 → (getCore s k).budget.toNat / 2 ≤ (ctxAt s k b).wait →
       exec (.candidateStarving k b) s = .next (modCtxAt s k b fun x => { x with starving := true })) ∧
     (takable s k = some b → preemptDue s k = true → ∃ t, exec (.preempt k) s = .next t ∧ (getCore t k).running = none ∧
       (ctxAt t k b).status = .preempted ∧ (ctxAt t k b).live = (ctxAt s k b).live ∧ SameMem s t) ∧
     (takable s k = some b → budgetDue s k = true → (ctxAt s k b).rerun = .none → hasVector (getCore s k) 0x0C →
       ∃ t, exec (.budgetExpiry k) s = .next t ∧ (getCore t k).curator = true ∧
         (getCore t k).kcause.toNat = 0x0C + 2 ^ 11 ∧ (getCore t k).kval = BitVec.ofNat 64 (ctxAt s k b).e ∧ SameMem s t) ∧
     (handoverDue s k = some b → shadowBad s k (ctxAt s k b).cfg.shadow = true → ∃ t, exec (.handover k) s = .next t ∧
       (ctxAt t k b).status = .empty ∧ bitOf (getCore t k).kstat.toNat 16 = true ∧ SameMem s t) ∧
     (handoverDue s k = some b → (ctxAt s k (!b)).status = .running → shadowBad s k (ctxAt s k b).cfg.shadow = false →
       ∃ t, exec (.handover k) s = .next t ∧ (ctxAt t k (!b)).cfg.shadow = (ctxAt s k b).cfg.shadow ∧
       (getCore t k).running = some b ∧ (ctxAt t k b).status = .running ∧ (ctxAt t k (!b)).status = .staged ∧
       (getCore t k).acc = (getCore s k).stagedAcc) ∧
     (∀ n, n / 2 = k → (n % 2 == 1) = b → isGang (ctxAt s k b) = true → triggerHolds s k b = true →
       (∀ e, e ∈ membersOf s k b → e.1 < 16 ∧ (ctxAt s e.1 e.2).status = .armed ∧ (ctxAt s e.1 e.2).firing = false ∧
         (ctxAt s e.1 e.2).memberDone = false ∧ (ctxAt s e.1 e.2).stopped = none ∧ (ctxAt s e.1 e.2).ctlBusy = none) →
       ∃ t, exec (.gangFiringOpen n) s = .next t ∧ (∀ e, e ∈ membersOf s k b → (ctxAt t e.1 e.2).firing = true) ∧ SameMem s t))

/-- R23, R157: the answer to an RNG. A stage with no range cell receives the empty range; the first request of a
firing receives the whole range; the counter and the trip of the level become the range, and both reach the register.
R17, R149, R265 and R333: the answers to TKTG and EVPOP reach their registers in order, a request for a ticket of
another package's ring goes to it, a grant for another package's producer is sent to it, and a queue entry takes the
core to its vector with nothing rolled back. A record that fails its check traps MEMERR, or begins a rerun (R394; the
entry of assumption 140). Where the rules leave a choice the clause is the model’s own reading (log entries 38, 65,
123 and 140). -/
def Obligations.AnswersArrive : Prop :=
  (∀ (s : State) (k : Nat) (b : Bool) (d lvl hi : Nat) (rest : List Producer), k < 16 → 0 < d → d < 32 → lvl < 6 → hi < 2 ^ 32 →
     (ctxAt s k b).producers = .rng d lvl :: rest → (ctxAt s k b).rngReplay = [] →
     posed (ctxAt s k b) = true → cellFrozen s k (ctxAt s k b) = false →
     ((hi = 0 ∧ ∀ c, c ∈ s.cells → cellOf (partOf (getCore s k)) (ctxAt s k b) c = false) ∨
       (∃ c, s.cells.find? (cellOf (partOf (getCore s k)) (ctxAt s k b)) = some c ∧ c.taken = false ∧ c.hi = hi)) →
     ∃ t, exec (.rngAnswer k b) s = .next t ∧ (ctxAt t k b).producers = rest ∧
       (ctxAt t k b).live.lc.getD lvl 0 = 0 ∧ (ctxAt t k b).live.lt.getD lvl 0 = BitVec.ofNat 32 hi ∧
       readX (ctxAt t k b).live d = BitVec.ofNat 64 (hi * 2 ^ 32) ∧ isFull (ctxAt t k b).live (xReg d) = true ∧
       (ctxAt t k b).rngGot = (ctxAt s k b).rngGot ++ [(0, hi)] ∧ SameMem s t) ∧
  (∀ (s : State) (k : Nat) (b : Bool), k < 16 →
     (∀ d port rest c, (ctxAt s k b).producers = .tktg d port false :: rest → (∀ e p f, .tktg e p f ∉ rest) →
       outCfg (ctxAt s k b) port = some c → 0 < d → d < 32 →
       port < 8 → (getOut (ctxAt s k b) port).replay = [] → posed (ctxAt s k b) = true →
       (c.peer.chip ≠ s.chip → (∀ n, ∃ t, exec (.tktgGrant k b (some n) none) s = .next t ∧
           readX (ctxAt t k b).live d = BitVec.ofNat 64 (n % 65536) ∧
           isFull (ctxAt t k b).live (xReg d) = true ∧ (ctxAt t k b).producers = rest ∧
           (getOut (ctxAt t k b) port).granted = (getOut (ctxAt s k b) port).granted ++ [n % 65536] ∧ SameMem s t) ∧
         ((getOut (ctxAt s k b) port).asks = 0 → ∃ t, exec (.tktgGrant k b none none) s = .next t ∧
           t.ctlOut = s.ctlOut ++ [(c.peer.chip, .ticketAsk c.peer (portAt s k b port))] ∧ SameMem s t)) ∧
       (c.peer.chip = s.chip → ∀ n, nextTicket s c.peer (portAt s k b port) = some n → ∃ t,
         exec (.tktgGrant k b none none) s = .next t ∧ readX (ctxAt t k b).live d = BitVec.ofNat 64 n ∧
         isFull (ctxAt t k b).live (xReg d) = true ∧ (ctxAt t k b).producers = rest ∧
         (getOut (ctxAt t k b) port).granted = (getOut (ctxAt s k b) port).granted ++ [n] ∧ SameMem s t)) ∧
     (∀ g q n, nextTicket s (portAt s k b g) q = some n → q.chip ≠ s.chip → ∃ t,
       exec (.tktgGrant k b (some g) (some q)) s = .next t ∧ t.ctlOut = s.ctlOut ++ [(q.chip, .ticket q n)] ∧ SameMem s t) ∧
     (∀ d e rest base, (ctxAt s k b).producers = .evpop d e :: rest → (ctxAt s k b).cfg.evq = some base → 0 < d → d < 32 →
       0 < e → e < 32 → d ≠ e → posed (ctxAt s k b) = true → (ctxAt s k b).evHead + (ctxAt s k b).evPopped < (ctxAt s k b).evTail →
       let a := base + 16 * (((ctxAt s k b).evHead + (ctxAt s k b).evPopped) % 256)
       (badWord s (spaceKey k .spad a) 16 = none → ∃ t, exec (.evpopRecordFill k b) s = .next t ∧
         readX (ctxAt t k b).live d = BitVec.ofNat 64 (leNat ((spRead s k .spad a 16).take 8)) ∧
         readX (ctxAt t k b).live e = BitVec.ofNat 64 (leNat ((spRead s k .spad a 16).drop 8)) ∧
         (ctxAt t k b).evPopped = (ctxAt s k b).evPopped + 1 ∧ SameMem s t) ∧
       ∀ w, badWord s (spaceKey k .spad a) 16 = some w → (ctxAt s k b).rerun = .none →
         (getCore s k).running = some b → (getCore s k).curator = false → (getCore s k).faulted = false → (getCore s k).halted = false →
         (persistent s w = true → hasVector (getCore s k) 0x0A → ∃ t, exec (.evpopRecordFill k b) s = .next t ∧
           (getCore t k).curator = true ∧ bitsOf (getCore t k).kcause.toNat 0 8 = 0x0A ∧ SameMem s t) ∧
         (persistent s w = false → ∃ t, exec (.evpopRecordFill k b) s = .next t ∧ (ctxAt t k b).rerun = .first ∧
           (ctxAt t k b).withheld = [] ∧ (ctxAt t k b).evPopped = 0 ∧ SameMem s t)) ∧
     (queueDue s k = true → budgetDue s k = false → hasVector (getCore s k) 0x20 → ∃ t, exec (.queueEntry k) s = .next t ∧
       (getCore t k).curator = true ∧ (getCore t k).kcause.toNat = 0x20 + 2 ^ 11 ∧ kAsync (getCore t k) = true ∧
       kIdle (getCore t k) = (getCore s k).running.isNone ∧ (getCore t k).kval = 0 ∧
       (getCore t k).cur.next = .at (kvecBase (getCore s k) + 8 * 0x20) ∧
       (getCore t k).ctxA = (getCore s k).ctxA ∧ (getCore t k).ctxB = (getCore s k).ctxB ∧ SameMem s t))

/-- R12, R16, R25, R73, R311, R421, R431, R432 and R435: a token flit that its output gives at its target, be it the
first of its token or a later one. In order it joins the flits that have come before it; while its token is not whole
nothing is acknowledged, and with the last of them the token lands and each of its flits is acknowledged: in the next
entry of a FIFO ring, in the entry of its ticket in a REORDER ring, a control token in the order of the port; a token
of no type and a ticket that is not admissible raise RINGERR; a cow token for a drained or empty context is discarded
and counted. An early flit is held; a repeated one is answered again and performs nothing; an older one is discarded;
one whose partition does not own the port's core is acknowledged, leaves a record in that core's fault queue and
performs nothing; one from a package that the region has lost is acknowledged and performs nothing (R480); one for a
port that is not configured is refused with 0x05; one of a partition with no core here is discarded and counted. R15
and R16: credits and head notices reach the producer: the count that an input port owes goes to the output port that
feeds it, on this package or by a message, and a notice carries the consumer's head. Where the rules leave a choice
the clause is the model’s own reading (log entries 10, 119, 148 and 161). -/
def Obligations.TokensAndCredits : Prop :=
  (∀ (s : State) (f : Flit) (i : Instr) (k : Nat) (b : Bool) (p : Nat), GivenFlit s f →
     (f.type = 1 ∧ i = .tokenFirstFlit ∨ f.type = 2 ∧ i = .tokenContinuationFlit) →
     k = (tokenPort f).core → b = (tokenPort f).ctx → p = (tokenPort f).port →
     (partHere s f = false → ∃ t, exec i s = .next t ∧ t.router.dropped = s.router.dropped + 1 ∧ SameCtx s t) ∧
     (partHere s f = true →
       (0 < ahead s f tokenLane → ahead s f tokenLane < 1024 → ∃ t, exec i s = .next t ∧
         (∃ g, g ∈ (findRx t f.schip tokenLane).held ∧ g.seq = f.seq) ∧ t.cores = s.cores ∧ SameMem s t) ∧
       (∀ y c pl, 1024 ≤ ahead s f tokenLane → kept s f tokenLane = some (y, c, pl) →
         (y = 9 → ∃ u, exec i s = .next (sendReply u f 9 c []) ∧ u.cores = s.cores ∧ SameMem s u) ∧
         (y ≠ 9 → inFragment s f = false → ∃ u, exec i s = .next (ackFlit u f) ∧ u.cores = s.cores ∧ SameMem s u) ∧
         (y ≠ 9 → inFragment s f = true → ∃ t, exec i s = .next t ∧ t.cores = s.cores ∧ SameMem s t)) ∧
       (1024 ≤ ahead s f tokenLane → kept s f tokenLane = none → ∃ t, exec i s = .next t ∧
         t.router.dropped = s.router.dropped + 1 ∧ SameCtx s t) ∧
       (ahead s f tokenLane = 0 → partOf (getCore s k) ≠ f.partition → ∃ u,
         exec i s = .next (rxNext (ackFlit (postFault u k (mismatchRecord k f)) f) f.schip tokenLane) ∧
         u.cores = s.cores ∧ SameMem s u ∧
         (findRx u f.schip tokenLane).expected = ((findRx s f.schip tokenLane).expected + 1) % 2 ^ 32) ∧
       (ahead s f tokenLane = 0 → partOf (getCore s k) = f.partition → fromLost s f = true → ∃ u,
         exec i s = .next (rxNext (ackFlit u f) f.schip tokenLane) ∧ u.cores = s.cores ∧ SameMem s u) ∧
       (ahead s f tokenLane = 0 → partOf (getCore s k) = f.partition → fromLost s f = false → ringCfg (ctxAt s k b) p = none →
         ((ctxAt s k b).status ≠ .empty ∨ f.type ≠ 1 ∨ headerType f ≠ 5 → ∃ u,
           exec i s = .next (rxNext (sendReply u f 9 5 []) f.schip tokenLane) ∧ u.cores = s.cores ∧ SameMem s u) ∧
         (∀ tok, (ctxAt s k b).status = .empty → f.type = 1 → headerType f = 5 → joinToken [f] = some tok → ∃ u,
           exec i s = .next (rxNext (ackFlit u f) f.schip tokenLane) ∧ u.router.dropped = s.router.dropped + 1 ∧
           u.cores = s.cores ∧ SameMem s u)) ∧
       (ahead s f tokenLane = 0 → partOf (getCore s k) = f.partition → fromLost s f = false → (ringCfg (ctxAt s k b) p).isSome →
         joinToken (tokenSoFar s f) = none → ∃ u, exec i s = .next (rxNext u f.schip tokenLane) ∧
           ⟨f.schip, tokenPort f, tokenSoFar s f⟩ ∈ u.router.frags ∧ u.router.waiting = s.router.waiting ∧ u.cores = s.cores ∧
           SameMem s u) ∧
       (∀ c tok x n, ahead s f tokenLane = 0 → partOf (getCore s k) = f.partition → fromLost s f = false → x = ctxAt s k b →
         n = getIn x p → ringCfg x p = some c → joinToken (tokenSoFar s f) = some tok → ∃ u t, exec i s = .next t ∧
           t = rxNext ((tokenSoFar s f).foldl ackFlit u) f.schip tokenLane ∧
           (tok.type = 0 ∨ 7 ≤ tok.type → RingErrorAt s t k x.region) ∧
           (0 < tok.type → tok.type < 7 → c.cow = true → x.status = .drained ∨ x.status = .empty →
             u.router.dropped = s.router.dropped + 1 ∧ SameCtx s t ∧ SameMem s t) ∧
           (¬(c.cow = true ∧ (x.status = .drained ∨ x.status = .empty)) →
             (tok.type = 1 ∨ tok.type = 5 ∨ tok.type = 6 → c.reorder = false → ∃ q,
               t.mem = (writeEntry s k c (n.tail % 2 ^ c.n) tok).mem ∧ (getIn (ctxAt t k b) p).tail = n.tail + 1 ∧
               (getIn (ctxAt t k b) p).toks = n.toks ++
                 [⟨n.tail % 2 ^ c.n, tok.ticket, tok.seq, tok.type, tok.tag, tok.payload.length, q⟩]) ∧
             (∀ slot, tok.type = 1 ∨ tok.type = 5 ∨ tok.type = 6 → c.reorder = true → slot = tok.ticket % 2 ^ c.n →
               (ticketDist tok.ticket n.head < 2 ^ 15 → (∀ v, v ∈ n.toks → v.slot ≠ slot) → ∃ q,
                 t.mem = (writeEntry s k c slot tok).mem ∧ (getIn (ctxAt t k b) p).head = n.head ∧
                 (getIn (ctxAt t k b) p).toks = n.toks ++
                   [⟨slot, tok.ticket, tok.seq, tok.type, tok.tag, tok.payload.length, q⟩]) ∧
               (2 ^ 15 ≤ ticketDist tok.ticket n.head ∨ (∃ v, v ∈ n.toks ∧ v.slot = slot) → RingErrorAt s t k x.region)) ∧
             (∀ q, isControl tok.type = true → q = boundProducer c n f.schip (sentBy s f) tok → SameMem s t ∧
               (getIn (ctxAt t k b) p).tail = n.tail ∧
               (c.reorder = false → (getIn (ctxAt t k b) p).toks = n.toks ++ [⟨0, 0, tok.seq, tok.type, tok.tag, 0, portBits q⟩]) ∧
               (c.reorder = true → (getIn (ctxAt t k b) p).ctl = n.ctl ++
                 [⟨q, tok.type, tok.tag, tok.seq, (tabGet none n.highest (portBits q)).getD n.head⟩])))))) ∧
  ((∀ (s : State) (q : PortAddr) (n : Nat), q.core < 16 → q.port < 8 →
     ((∀ e, e ∈ s.engines → ∀ c, c ∈ e.ports → c.port ≠ q) → ∃ t, exec (.creditReturn (some (q, n))) s = .next t ∧
       (getOut (ctxAt t q.core q.ctx) q.port).credits = (getOut (ctxAt s q.core q.ctx) q.port).credits + n ∧ SameMem s t) ∧
     (∃ t, exec (.headAdvanceNotice (some (q, n))) s = .next t ∧
       (getOut (ctxAt t q.core q.ctx) q.port).head = n % 65536 ∧ SameMem s t)) ∧
   (∀ (s : State) (k : Nat) (b : Bool) (p : Nat) (c : RingCfg) (q : PortAddr) (l : List PortAddr), k < 16 → p < 8 →
     c.cow = false → c.producers = q :: l → q.chip ≠ hostChip → q.core < 16 → q.port < 8 →
     (owingPort s (fun i => i.owed != 0) = some (k, b, p, c) → c.reorder = false → ∃ t, exec (.creditReturn none) s = .next t ∧
       (getIn (ctxAt t k b) p).owed = 0 ∧
       (q.chip = s.chip → (getOut (ctxAt t q.core q.ctx) q.port).credits =
         (getOut (ctxAt s q.core q.ctx) q.port).credits + (getIn (ctxAt s k b) p).owed) ∧
       (q.chip ≠ s.chip → t.ctlOut = s.ctlOut ++ [(q.chip, .credit q (getIn (ctxAt s k b) p).owed)]) ∧ SameMem s t) ∧
     (owingPort s (fun i => i.notice) = some (k, b, p, c) → l = [] → ∃ t, exec (.headAdvanceNotice none) s = .next t ∧
       (getIn (ctxAt t k b) p).notice = false ∧
       (q.chip = s.chip → (getOut (ctxAt t q.core q.ctx) q.port).head = (getIn (ctxAt s k b) p).head) ∧
       (q.chip ≠ s.chip → t.ctlOut = s.ctlOut ++ [(q.chip, .head q (getIn (ctxAt s k b) p).head)]) ∧ SameMem s t)))

/-- R18, R20, R24 and R403 to R406: a control token at the head of every input port. Configuration done arms the
stage, and a sink says so; a drain disarms it, and so do the region's sources' drains a stage without inputs; a marker
first waits, when the rates agree, for what its stage has under way, takes the snapshot with its header, and once that
is over is recorded, and a sink tells the home. Each is popped from every input port and leaves on every output port,
with the credit that it spends; a rate that does not agree is a region error; a source without inputs does the same
for the wave asked for. Where the rules leave a choice the clause is the model’s own reading (log entries 10, 35, 115,
121 and 133). -/
def Obligations.ControlTokens : Prop :=
  ∀ (s : State) (k : Nat) (b : Bool) (tag : Word) (wave : Nat), k < 16 →
    (CtlAt s k b 4 tag → (ctxAt s k b).status = .configured → canForward (ctxAt s k b) false = true →
      cowsBound (ctxAt s k b) = true →
      ∃ t, exec (.cfgdoneAction k b) s = .next t ∧
        (ctxAt t k b).status = (if (ctxAt s k b).cfg.staged then .staged else .armed) ∧ Forwarded s t k b 4 0 ∧
        PoppedCtl s t k b ∧ (isSink s [(k, b)] = true →
          (s.chip, .sinkReady (partOf (getCore s k)) (ctxAt s k b).region (ctxAt s k b).cfg.stage) ∈ t.ctlIn) ∧ SameMem s t) ∧
    (CtlAt s k b 3 tag → quietStage s [(k, b)] = true → settled s k b = true → canForward (ctxAt s k b) false = true →
      ∃ t, exec (.drainAction k b) s = .next t ∧ (ctxAt t k b).status = .drained ∧ Forwarded s t k b 3 tag ∧
        PoppedCtl s t k b ∧ SameMem s t) ∧
    (∀ r, (ctxAt s k b).cfg.gang.length ≤ 1 → (∀ e, e ∈ (ctxAt s k b).cfg.ins → e.2.cow = true) →
      findRegion s (partOf (getCore s k)) (ctxAt s k b).region = some r → r.drains = true → (ctxAt s k b).status ≠ .drained →
      quietStage s [(k, b)] = true → settled s k b = true → canForward (ctxAt s k b) false = true →
      ∃ t, exec (.drainAction k b) s = .next t ∧ (ctxAt t k b).status = .drained ∧ Forwarded s t k b 3 0 ∧ SameMem s t) ∧
    (CtlAt s k b 2 tag → wave = tag.toNat % 2 ^ 32 → (ctxAt s k b).ctlBusy = none → quietStage s [(k, b)] = true →
      (rateOk (ratePorts (ctxAt s k b)) = true → ∃ t, exec (.markerAction k b) s = .next t ∧
        (ctxAt t k b).ctlBusy = some 1 ∧ (ctxAt t k b).live = (ctxAt s k b).live ∧ SameMem s t) ∧
      (rateOk (ratePorts (ctxAt s k b)) = false → ∀ r, findRegion s (partOf (getCore s k)) (ctxAt s k b).region = some r →
        r.cfg.homeChip = s.chip → ∃ t, exec (.markerAction k b) s = .next t ∧ (ctxAt t k b).ctlBusy = some 0x21 ∧
          t.ctlIn = s.ctlIn ++ [(s.chip, .error (partOf (getCore s k)) (ctxAt s k b).region 0x21 s.chip k)] ∧ SameMem s t)) ∧
    (CtlAt s k b 2 tag → wave = tag.toNat % 2 ^ 32 → (ctxAt s k b).ctlBusy = some 1 → settled s k b = true → ∃ t,
      exec (.markerAction k b) s = .next t ∧ (ctxAt t k b).ctlBusy = some 2 ∧
      (wave % 2 == 1, snapOf s k b wave) ∈ (ctxAt t k b).snaps ∧ (ctxAt t k b).live = (ctxAt s k b).live ∧
      ∀ a, (ctxAt s k b).cfg.snap = some a → spRead t k a.space (a.base + (wave % 2) * snapSize (ctxAt s k b).cfg) 64 =
        snapHeader wave (ctxAt s k b).cfg.stage) ∧
    (CtlAt s k b 2 tag → wave = tag.toNat % 2 ^ 32 → (ctxAt s k b).ctlBusy = some 2 → canForward (ctxAt s k b) false = true →
      mirroring s k b = false → ∃ t, exec (.markerAction k b) s = .next t ∧ (ctxAt t k b).marker = wave ∧
        (ctxAt t k b).ctlBusy = none ∧ (∀ p, p < 8 → (getOut (ctxAt t k b) p).rate = 0 ∧ (getIn (ctxAt t k b) p).rate = 0) ∧
        Forwarded s t k b 2 (BitVec.ofNat 64 wave) ∧ PoppedCtl s t k b ∧ (isSink s [(k, b)] = true → ∀ r,
          findRegion s (partOf (getCore s k)) (ctxAt s k b).region = some r → ToldHome s t r
            (.sinkWave (partOf (getCore s k)) (ctxAt s k b).region (ctxAt s k b).cfg.stage wave)) ∧ SameMem s t) ∧
    ((ctxAt s k b).cfg.gang.length ≤ 1 → (∀ e, e ∈ (ctxAt s k b).cfg.ins → e.2.cow = true) →
      (ctxAt s k b).cfg.markMode = false → quietStage s [(k, b)] = true →
      ((ctxAt s k b).status = .armed ∨ (ctxAt s k b).status = .staged) → askedWave s k b = some wave →
      ((ctxAt s k b).ctlBusy = none → ∃ t, exec (.sourceHardwareMark k b) s = .next t ∧ (ctxAt t k b).ctlBusy = some 1 ∧
        SameMem s t) ∧
      ((ctxAt s k b).ctlBusy = some 1 → settled s k b = true → ∃ t, exec (.sourceHardwareMark k b) s = .next t ∧
        (ctxAt t k b).ctlBusy = some 2 ∧ (wave % 2 == 1, snapOf s k b wave) ∈ (ctxAt t k b).snaps) ∧
      ((ctxAt s k b).ctlBusy = some 2 → canForward (ctxAt s k b) false = true → mirroring s k b = false → ∃ t, exec (.sourceHardwareMark k b) s = .next t ∧
        (ctxAt t k b).marker = wave ∧ (ctxAt t k b).ctlBusy = none ∧ Forwarded s t k b 2 (BitVec.ofNat 64 wave) ∧ SameMem s t))

/-- R254, R257, R261, R267 and R385: a job that its edges hold does not start; a malformed one ends with its error; a
copy inside the core moves its bytes; an atomic on this package performs; a walk that meets a fault suspends the job
where it stands; a walk that finds its leaf lets the job go on; a completed job writes its progress and status and
leaves the queue, once its record has room. Where the rules leave a choice the clause is the model’s own reading (log
entries 50, 54, 111 and 124). -/
def Obligations.JobsRun : Prop :=
  ∀ (s : State) (k j : Nat) (x : Job), k < 16 → findJob s k j = some x →
    (mayStart s k x = false → exec (.jobStart k j) s = .next s) ∧
    (mayStart s k x = true → x.err ≠ 0 → ∃ t y, exec (.jobStart k j) s = .next t ∧ findJob t k j = some y ∧
      y.state = .finished ∧ y.err = x.err ∧ SameMem s t) ∧
    (∀ c, mayStart s k x = true → x.err = 0 → x.major = 1 → x.pend = [] → x.walk = none → x.progress = 0 → x.got = [] →
      c = cpyCard x.bytes → c.sk = 0 → c.dk = 0 → c.rows = 1 → 0 < c.len →
      badWord s (spaceKey k .spad c.src) c.len = none → ∃ t y, exec (.jobStart k j) s = .next t ∧
        t.mem = (spWrite s k .spad c.dst (spRead s k .spad c.src c.len)).mem ∧ findJob t k j = some y ∧
        y.state = .finished ∧ y.err = 0 ∧ y.progress = c.len) ∧
    (∀ pa op, mayStart s k x = true → x.err = 0 → x.major = 7 → x.pend = [] → x.walk = none →
      cField x.bytes 82 1 = 2 → pa = opAddr 2 (cField x.bytes 64 16) → op = cField x.bytes 80 1 → faChip pa = s.chip →
      sourceErr x pa (atomicSize op) true = 0 → targetErr s x.part (faRegion pa) (faOff pa) (atomicSize op) true = 0 →
      fabBad s (faRegion pa) (faOff pa) (atomicSize op) = false → ∃ t y u, exec (.jobStart k j) s = .next t ∧
        u = fabAtomic (modJob s k j fun y => { y with state := .running }) (faRegion pa) (faOff pa) op
          (cField x.bytes 81 1) x.xbp.toInt (atomOperand x.bytes) (cField x.bytes 96 8) ∧
        t.mem = u.2.mem ∧ findJob t k j = some y ∧ y.state = .finished ∧ y.err = 0 ∧ y.result = BitVec.ofNat 64 u.1) ∧
    (∀ w e, x.state = .running → x.walk = some w → mayWalk s x.asid w = true → w.fresh = true →
      (faRegion (entryOf w) = 1 ∨ faRegion (entryOf w) = 2) → faChip (entryOf w) = s.chip → s.chip ≠ hostChip →
      inExtent (faRegion (entryOf w)) (faOff (entryOf w)) 8 = true →
      targetErr s x.part (faRegion (entryOf w)) (faOff (entryOf w)) 8 false = 0 →
      fabBad s (faRegion (entryOf w)) (faOff (entryOf w)) 8 = false →
      e = leNat (fabRead s (faRegion (entryOf w)) (faOff (entryOf w)) 8) →
      (eValid e = false ∨ eMalformed w.lvl e = true ∨
          (eLeaf w.lvl e = true ∧ (tierOk s e = false ∨ ePermits w.acc e = false)) →
        ∃ t y, exec (.pageWalk k j) s = .next t ∧ findJob t k j = some y ∧ y.state = .suspended ∧ y.progress = x.progress) ∧
      (eValid e = true → eMalformed w.lvl e = false → eLeaf w.lvl e = true → tierOk s e = true → ePermits w.acc e = true →
        eUsed w.acc e = e → ∃ u y, exec (.pageWalk k j) s = .next (goOn u k j) ∧ findJob u k j = some y ∧ y.walk = none ∧
        y.progress = x.progress ∧ SameMem s u)) ∧
    ((x.state = .finished ∨ x.state = .posting) → jobRoom (getCore s k) x = false → ∃ t y, exec (.jobComplete k j) s = .next t ∧
      findJob t k j = some y ∧ y.state = .posting) ∧
    (x.state = .finished → jobRoom (getCore s k) x = true → ∃ t, exec (.jobComplete k j) s = .next t ∧ findJob t k j = none ∧
      (x.major ≠ 7 → cardPublish x.bytes = false → cardEvent x.bytes = false → cardBarrier x.bytes = false →
        t.mem = (writeStatus (writeProgress s k x.card x.progress) k x.card (doneStatus x)).mem))

/-- R81, R82, R270, R420, R431, R432, R435 and R450: a request flit for this package's storage that its output gives.
In order it performs once and is answered: a write writes and is acknowledged, a read returns the bytes, an atomic
returns the old value and updates, a remote barrier arrival arrives and is acknowledged; a read of a word that fails
its check is refused with 0x08; one that the target does not admit is refused and writes nothing; one that comes early
is held; a repeated one is answered with the reply that the filter keeps and does not perform again; one for the host
tier goes to the host, and what the host tier does not take is refused with 0x05; one of a partition with no core here
is discarded. R431 to R433: an answer closes the open flit of its sequence number and reaches what sent the request;
an answer with no open flit changes no core and no memory; an open flit without an answer is resent, one that has no
way is noted as not sent, and a request whose tries are over is given up. Where the rules leave a choice the clause is
the model’s own reading (log entries 9, 56, 57, 112, 120, 131 and 145). -/
def Obligations.RequestsAndAnswers : Prop :=
  (∀ (s : State) (f : Flit) (i : Instr) (ro off e : Nat), GivenFlit s f →
     (f.type = 3 ∧ i = .writeRequest ∨ f.type = 4 ∧ i = .readRequest ∨ f.type = 6 ∧ i = .atomicRequest) →
     ro = reqRegion f → off = reqOff f → e = targetErr s f.partition ro off (reqLen f) (f.type == 6) →
     (partHere s f = false → ∃ t, exec i s = .next t ∧ t.router.dropped = s.router.dropped + 1 ∧ SameCtx s t) ∧
     (partHere s f = true →
       (0 < ahead s f (flitLane f) → ahead s f (flitLane f) < 1024 → ∃ t, exec i s = .next t ∧
         (∃ g, g ∈ (findRx t f.schip (flitLane f)).held ∧ g.seq = f.seq) ∧ t.cores = s.cores ∧ SameMem s t) ∧
       (∀ y c pl, 1024 ≤ ahead s f (flitLane f) → kept s f (flitLane f) = some (y, c, pl) →
         (y ≠ 0 → ∃ u, u.cores = s.cores ∧ SameMem s u ∧ exec i s = .next (answerFlit u f y c pl)) ∧
         (y = 0 → ∃ t, exec i s = .next t ∧ t.cores = s.cores ∧ SameMem s t)) ∧
       (ahead s f (flitLane f) = 0 → f.dchip = hostChip → hostTakes f = true → ∃ t, exec i s = .next t ∧
         t.pages = s.pages ++ [⟨s.counter, f⟩] ∧ t.cores = s.cores ∧ SameMem s t) ∧
       (ahead s f (flitLane f) = 0 → f.dchip = hostChip → hostTakes f = false → ∃ u,
         exec i s = .next (rxNext (answerFlit u f 9 5 []) f.schip (flitLane f)) ∧ u.cores = s.cores ∧ SameMem s u) ∧
       (ahead s f (flitLane f) = 0 → f.dchip ≠ hostChip → isBaraFlit f = true → ro = 1 → 2 ^ 39 ≤ off → ∀ a, a = off - 2 ^ 39 →
         targetErr s f.partition 1 a 8 false = 0 → a % 8 = 0 → ∃ u,
         exec i s = .next (rxNext (answerFlit u f 8 0 []) f.schip (flitLane f)) ∧
         u.mem = (arrive s (a / 2 ^ 23) (a % 2 ^ 23) (bitOf (leNat (f.payload.take 1)) 0) false).mem) ∧
       (ahead s f (flitLane f) = 0 → f.dchip ≠ hostChip → isBaraFlit f = false →
         (f.type = 3 → e = 0 → ∃ u, exec i s = .next (rxNext (answerFlit u f 8 0 []) f.schip (flitLane f)) ∧
           u.mem = (fabWrite s ro off f.payload).mem) ∧
         (f.type ≠ 3 → e = 0 → fabBad s ro off (reqLen f) = true → ∃ u, SameMem s u ∧ SameCtx s u ∧
           exec i s = .next (rxNext (refuseFlit u f 8) f.schip (flitLane f))) ∧
         (f.type = 4 → e = 0 → fabBad s ro off (reqLen f) = false → ∃ u, SameMem s u ∧
           exec i s = .next (rxNext (answerFlit u f 5 0 (fabRead s ro off (reqLen f))) f.schip (flitLane f))) ∧
         (∀ a, f.type = 6 → e = 0 → fabBad s ro off (reqLen f) = false →
           a = fabAtomic s ro off (atomField f 0 1) (atomField f 1 1) (sextNat 12 (atomField f 2 2)) (atomField f 8 8)
             (atomField f 16 8) → ∃ u, u.mem = a.2.mem ∧
           exec i s = .next (rxNext (answerFlit u f 7 0 (natLe 8 a.1)) f.schip (flitLane f))) ∧
         (e ≠ 0 → ∃ u, SameMem s u ∧ SameCtx s u ∧
           exec i s = .next (rxNext (refuseFlit u f e) f.schip (flitLane f)))))) ∧
  ((∀ (s : State) (f : Flit) (i : Instr) (x : Answer), GivenFlit s f →
     (f.type = 5 ∧ i = .readReply ∧ x = .data f.payload ∨
       f.type = 7 ∧ i = .atomicReply ∧ x = .value (leNat (f.payload.take 8)) ∨
       f.type = 8 ∧ i = .acknowledgement ∧ x = .done ∨
       f.type = 9 ∧ i = .refusal ∧ x = .refused (bitsOf f.route.toNat 8 8)) →
     (∀ q, q ∈ (findTx s f.schip (ansLane f)).queue → q.flit.schip = s.chip) →
     (∀ o, (findTx s f.schip (ansLane f)).opens.find? (fun o => o.seq == f.seq) = some o → ∃ u, u.cores = s.cores ∧
       SameMem s u ∧ (∀ q, q ∈ (findTx u f.schip (ansLane f)).opens → q.seq = f.seq →
         (findTx s f.schip (ansLane f)).queue ≠ []) ∧ exec i s = .next (giveAnswer u o x)) ∧
     ((findTx s f.schip (ansLane f)).opens.find? (fun o => o.seq == f.seq) = none → ∃ t, exec i s = .next t ∧
       t.cores = s.cores ∧ SameMem s t)) ∧
   (∀ (s : State) (f : Flit), GivenFlit s f → f.type = 0x0B →
     (∀ q, q ∈ (findTx s f.schip (ansLane f)).queue → q.flit.schip = s.chip) →
     (∀ o k id n r, (findTx s f.schip (ansLane f)).opens.find? (fun o => o.seq == f.seq) = some o → o.who = .job k id n →
       repOf f.payload = some r → ∃ u, u.cores = s.cores ∧ SameMem s u ∧
         exec .prefixReply s = .next (takeRep u { r with core := k, job := id })) ∧
     ((findTx s f.schip (ansLane f)).opens.find? (fun o => o.seq == f.seq) = none → ∃ t, exec .prefixReply s = .next t ∧
       t.cores = s.cores ∧ SameMem s t)) ∧
   (∀ (s : State) (d l n : Nat) (o : OpenFlit), (findTx s d l).opens.find? (fun o => o.seq == n) = some o →
     o.flit.schip = s.chip →
     (o.tries < 8 ∨ endless l o = true →
       (routable s o.flit = true → ∃ t, exec (.e2eResendTimeout d l n) s = .next t ∧ t.cores = s.cores ∧ SameMem s t ∧
         (∃ q, q ∈ (findTx t d l).opens ∧ q.seq = n ∧ q.tries = o.tries + 1 ∧ q.flit = o.flit)) ∧
       (routable s o.flit = false → o.flit.cls = 1 → o.flit.dchip = d → ∃ t, exec (.e2eResendTimeout d l n) s = .next t ∧
         (∃ q, q ∈ (findTx t d l).opens ∧ q.seq = n ∧ q.tries = 9 ∧ q.flit = o.flit) ∧
         t.router.dropped = s.router.dropped + 1 ∧ t.router.waiting = s.router.waiting ∧ t.cores = s.cores ∧ SameMem s t)) ∧
     (8 ≤ o.tries → endless l o = false → (∀ q, q ∈ (findTx s d l).queue → q.flit.schip = s.chip) → ∃ u, u.cores = s.cores ∧
       SameMem s u ∧ exec (.e2eResendTimeout d l n) s = .next (giveAnswer u o .lost))))

/-- R418, R423, R425, R430 and R438: one slot of a link that is up. With nothing to send it carries a frame without a
flit; a flit that may leave takes the next lseq and the invocation counter of its key slot and stays unacknowledged; a
frame that is due again is sent with its header and lseq as before. R429 and R441: a frame received on a link that is
up. A bad CRC asks for the expected frame again, and the eighth failure in a row takes the link down; a frame in order
that authenticates advances the sequence and its flit enters the router. A circuit flit that finds its buffer full is
not accepted (the model's choice, log entry 117). R417, R426, R430, R439 and R441: what else happens to a link. A
retry timeout sends every unacknowledged frame again, and the eighth in a row takes the link down, as loss of signal
does; a flit that has waited longer than dltime for a link or for an output of this package moves to the escape
channel; held key slots are released; a trained link to another package comes up, and with the first training Plinth
is up with channel 0 (R465). Where the rules leave a choice the clause is the model’s own reading (log entries 81, 83
and 117). -/
def Obligations.LinkFrames : Prop :=
  (∀ (s : State) (l : Nat) (k : Link), k = getLink s l → k.up = true → l < 128 → tabWf .reset s.router.links = true →
     (k.again = [] → newFlit s l = none → ∃ t fr, exec (.frameTransmit l) s = .next t ∧
       t.router.out = s.router.out ++ [(l, fr)] ∧ fr.fv = false ∧ fr.ack = k.rxNext ∧ fr.crc = frameCrc fr ∧
       (getLink t l).slot = (k.slot + 1) % 256 ∧ (getLink t l).txNext = k.txNext ∧ t.cores = s.cores ∧ SameMem s t) ∧
     (∀ w row n, k.again = [] → newFlit s l = some w → txSlot s l w.flit.partition (w.flit.cls == 3) = some (row, n) →
       ∃ t fr, exec (.frameTransmit l) s = .next t ∧ t.router.out = s.router.out ++ [(l, fr)] ∧ fr.fv = true ∧
         fr.header = flitHeader { w.flit with kslot := n } ∧ fr.lseq = k.txNext ∧ fr.crc = frameCrc fr ∧
         t.router.waiting = s.router.waiting.erase w ∧ (getLink t l).txNext = (k.txNext + 1) % 2 ^ 16 ∧
         (getLink t l).unacked.length = k.unacked.length + 1 ∧ (getLink t l).slot = (k.slot + 1) % 256 ∧ SameCtx s t ∧
         (w.flit.type ≠ 0x10 → tabWf .reset k.tx = true →
           (getKey (getLink t l).tx row n).counter = (getKey k.tx row n).counter + 1)) ∧
     (∀ n rest u, k.again = n :: rest → k.unacked.find? (fun u => u.2.lseq == n) = some u → ∃ t fr,
       exec (.frameTransmit l) s = .next t ∧ t.router.out = s.router.out ++ [(l, fr)] ∧ fr.header = u.2.header ∧ fr.lseq = n ∧
       fr.body = u.2.body ∧ fr.tag = u.2.tag ∧ (getLink t l).again = rest ∧ (getLink t l).slot = (k.slot + 1) % 256 ∧
       t.cores = s.cores ∧ SameMem s t)) ∧
  (∀ (s : State) (l : Nat) (f : Frame) (k : Link), k = getLink s l → k.up = true → tabWf .reset s.router.links = true →
     (frameCrc f ≠ f.crc → k.fails < 7 → exec (.linkFrameReceive l f) s =
       .next (setLink s l { k with fails := k.fails + 1, nack := true })) ∧
     (frameCrc f ≠ f.crc → 7 ≤ k.fails → ∃ t, exec (.linkFrameReceive l f) s = .next t ∧ (getLink t l).up = false) ∧
     (frameCrc f = f.crc → f.fv = false ∨ f.lseq ≠ k.rxNext ∨ ((headerFlit f.header []).cls = 0 ∧ circuitFull s l = true) →
       exec (.linkFrameReceive l f) s = .next (setLink s l (applyTrailer k f))) ∧
     (∀ g row q, frameCrc f = f.crc → f.fv = true → f.lseq = k.rxNext →
       openFrame (setLink s l (applyTrailer k f)) (applyTrailer k f) f = some (g, row, q) → g.type ≠ 0x10 →
       (g.cls = 0 → circuitFull s l = false) → ∃ t, exec (.linkFrameReceive l f) s = .next t ∧ (getLink t l).rxNext = (k.rxNext + 1) % 2 ^ 16 ∧
         (getLink t l).fails = 0 ∧ (getLink t l).unacked = (applyTrailer k f).unacked ∧ (getLink t l).up = true ∧
         SameCtx s t ∧ (flitHere s g = true → t.cores = s.cores ∧ SameMem s t ∧
           t.router.arrived = s.router.arrived ++ [⟨l, { g with kslot := 0 }, g.cls⟩]))) ∧
  (∀ (s : State) (l : Nat) (k : Link), k = getLink s l → tabWf .reset s.router.links = true →
     (k.up = true → k.unacked ≠ [] → k.tmo < 7 → exec (.linkRetryTimeout l) s =
       .next (setLink s l { k with tmo := k.tmo + 1, again := k.unacked.map fun u => u.2.lseq })) ∧
     (k.up = true → k.unacked ≠ [] → 7 ≤ k.tmo → ∃ t, exec (.linkRetryTimeout l) s = .next t ∧ (getLink t l).up = false) ∧
     (k.up = true → ∃ t, exec (.lossOfSignal l) s = .next t ∧ (getLink t l).up = false ∧ SameCtx s t) ∧
     (∀ n w, s.router.waiting[n]? = some w → w.flit.cls = 1 → ∃ t v, exec (.escapeTimeout n) s = .next t ∧
       v = { w.flit with cls := 2 } ∧ t.router.waiting = s.router.waiting.set n { w with flit := v } ∧
       t.router.moved = s.router.moved + 1 ∧ t.cores = s.cores ∧ SameMem s t) ∧
     (∀ n w, s.router.arrived[n]? = some w → w.flit.cls = 1 → ∃ t v,
       exec (.escapeTimeout (s.router.waiting.length + n)) s = .next t ∧ v = { w.flit with cls := 2 } ∧
       t.router.arrived = s.router.arrived.set n { w with flit := v } ∧ t.router.moved = s.router.moved + 1 ∧
       t.cores = s.cores ∧ SameMem s t) ∧
     (∀ row, k.up = true → tabWf .reset k.rx = true → ∃ t, exec (.heldSlotRelease l row) s = .next t ∧
       (∀ n, n < 2 → (getKey (getLink t l).rx row n).state ≠ .held) ∧ t.cores = s.cores ∧ SameMem s t) ∧
     (∀ p, 4 ≤ s.power.step → p.link = l → p.farChip ≠ s.chip → k.up = false → s.regions = [] → ∃ t,
       exec (.linkTraining [p]) s = .next t ∧ (getLink t l).up = true ∧ (getLink t l).farChip = p.farChip ∧
       (s.power.step = 4 → t.power.step = 6 ∧ t.channels = [newChannel 0 0 false 0]) ∧ SameMem s t))

/-- R443 to R446: a Plinth frame in sequence is accepted and acknowledged, and its last frame gives the channel's
message; one out of sequence is acknowledged only; one of another partition is counted; after a timeout every
unacknowledged frame is sent again unchanged; a channel whose sequence would wrap before its key was renewed is
closed; an acknowledgement that nothing carried is sent alone; the port answers for its addresses. Where the rules
leave a choice the clause is the model’s own reading (log entries 84 and 136). -/
def Obligations.PlinthFrames : Prop :=
  (∀ (s : State) (f : PlinthFrame) (c : Channel), findChannel s (pChannel f) = some c → plinthForm f = true →
    (pPart f ≠ c.part → exec (.plinthFrameReceive f) s = .next { s with strays := s.strays + 1 }) ∧
    (pPart f = c.part → openPlinth c f = none → exec (.plinthFrameReceive f) s = .next s) ∧
    (∀ bs, pPart f = c.part → openPlinth c f = some bs → pAckonly f = false → c.unacked = [] →
      (pSeq f ≠ c.rxNext → exec (.plinthFrameReceive f) s = .next (modChannel s c.num fun c => { c with owed := true })) ∧
      (pSeq f = c.rxNext → c.rxNext + 1 < 2 ^ 32 → pLast f = false → ∃ t, exec (.plinthFrameReceive f) s = .next t ∧
        (∃ d, findChannel t c.num = some d ∧ d.rxNext = c.rxNext + 1 ∧ d.owed = true ∧ d.asm = c.asm ++ bs) ∧
        t.hostIn = s.hostIn ∧ t.cores = s.cores ∧ SameMem s t) ∧
      (pSeq f = c.rxNext → c.rxNext + 1 = 2 ^ 32 → c.renewedIn = false →
        exec (.plinthFrameReceive f) s = .next (closeChannel s c.num)) ∧
      (∀ q, pSeq f = c.rxNext → (c.rxNext + 1 < 2 ^ 32 ∨ c.renewedIn = true) → s.power.failed = false → pLast f = true → fromHost (pKind f) = true → (c.keyed = true ∨ pKind f = 0x10) →
        ((pKind f = 0x0D ∨ pKind f = 0x10) → c.num = 0) → readReq (pKind f) (c.asm ++ bs) = some q → ∃ t,
        exec (.plinthFrameReceive f) s = .next t ∧ t.hostIn = s.hostIn ++ [⟨c.num, c.part, pChip f, pTag f, q⟩] ∧
        (∃ d, findChannel t c.num = some d ∧ d.rxNext = (c.rxNext + 1) % 2 ^ 32 ∧ d.owed = true ∧ d.asm = []) ∧
        t.cores = s.cores ∧ SameMem s t))) ∧
  (∀ (s : State) (ch : Nat) (c : Channel), findChannel s ch = some c →
    (c.unacked ≠ [] → c.tmo < 63 → ∃ t, exec (.plinthRetransmitTimeout ch) s = .next t ∧
      t.wire = s.wire ++ c.unacked.map (·.1) ∧ findChannel t ch = some { c with tmo := c.tmo + 1 } ∧ t.cores = s.cores ∧
      SameMem s t) ∧
    (c.unacked ≠ [] → 63 ≤ c.tmo → exec (.plinthRetransmitTimeout ch) s = .next (closeChannel s ch)) ∧
    (c.owed = true → ∃ t f, exec (.plinthAckTimer ch) s = .next t ∧ t.wire = s.wire ++ [f] ∧ pAckonly f = true ∧
      pAck f = c.rxNext % 2 ^ 32 ∧ findChannel t ch = some { c with owed := false } ∧ t.cores = s.cores ∧ SameMem s t)) ∧
  (∀ (s : State) (ip : BitVec 32), exec (.arp ip) s =
    .next (if s.ips.contains ip then { s with net := s.net ++ [.arp ip] } else s)) ∧
  (∀ (s : State) (ip : BitVec 128), (6 ≤ s.power.step → (ip = linkLocal s ∨ s.ip6s.contains ip = true) →
    exec (.neighbourDiscovery ip) s = .next { s with net := s.net ++ [.neighbour ip] }) ∧
    (s.power.step < 6 → exec (.neighbourDiscovery ip) s = .next s))

/-- R453, R462, R465 to R467: power-on gives the package its chip number and, when its firmware verifies, brings it up
to step 4, the cores without a margin withdrawn; with firmware that does not verify it stays in the boot ROM with
channel 0; power loss returns every field but the model's own and the flash's margin record to reset; above 750 W of
the package or 850 W of the module the clock falls by 50 MHz to no less than 1.0 GHz, and 5% below both it rises to no
more than 1.5 GHz; thermal shutdown stops the links and halts the package; a margin plan records the smallest offset
that keeps the slack. R394 and R465: a soft error leaves the stored bytes and the shadow slots as they are and marks
the bit, or marks the register; a value of the datapath changes; a clock of the boundary-scan port moves only the
port. Where the rules leave a choice the clause is the model’s own reading (log entries 2, 28, 91, 92, 93, 138 and
160). -/
def Obligations.PowerAndUpsets : Prop :=
  ((∀ (s : State) (ga : BitVec 12), s.power.step = 0 → ∃ t, exec (.powerOn ga) s = .next t ∧
     (ga = 0xFFF → t.power.step = 2 ∧ t.chip = s.chip) ∧
     (ga ≠ 0xFFF → t.chip = ga.toNat ∧ (firmwareOk = true → t.power.step = 4 ∧ t.channels = s.channels ∧
         ∀ k, k < 16 → (marginOffset k s.counter).isNone = true ∨ s.power.short.contains k = true →
           (getCore t k).withdrawn = true) ∧
       (firmwareOk = false → t.power.step = 2 ∧ t.power.failed = true ∧ t.channels = [newChannel 0 0 false 0]))) ∧
   (∀ s : State, exec .powerLoss s = .next
     { State.reset with agenda := s.agenda, counter := s.counter, power := { State.reset.power with short := s.power.short } }) ∧
   (∀ (s : State) (p w n : Nat),
     (750 < p ∨ 850 < w → ∃ t, exec (.powerLimit ⟨p, w⟩) s = .next t ∧ t.power.mhz = Nat.max 1000 (s.power.mhz - 50) ∧
       t.power.limited = true ∧ t.cores = s.cores) ∧
     (p ≤ 750 → w ≤ 850 → exec (.powerLimit ⟨p, w⟩) s = .next s) ∧
     (p * 100 ≤ 71250 → w * 100 ≤ 80750 → ∃ t, exec (.clockRestore ⟨p, w⟩) s = .next t ∧
       t.power.mhz = Nat.min 1500 (s.power.mhz + 50) ∧ t.cores = s.cores) ∧
     (840 ≤ n → ∃ t, exec (.thermalLimit n) s = .next t ∧ t.power.mhz = Nat.max 1000 (s.power.mhz - 50) ∧
       t.power.hot = true ∧ t.cores = s.cores)) ∧
   (∀ s : State, ∃ t, exec .thermalShutdown s = .next t ∧ t.halted = true ∧ t.router.links = [] ∧ t.cores = s.cores ∧ SameMem s t) ∧
   (∀ (s : State) (k o : Nat), k < 16 → 4 ≤ s.power.step → (getCore s k).withdrawn = false →
     marginOffset k (s.counter + 1) = some o → ∃ t, exec (.marginPlan k) s = .next t ∧ o < 256 ∧
       80 ≤ Config.marginReading k o (s.counter + 1) ∧ bitsOf (getCore t k).margin.toNat 16 8 = o ∧
       bitsOf (getCore t k).margin.toNat 0 16 = Config.marginReading k o (s.counter + 1) % 2 ^ 16 ∧
       t.power.log.length = s.power.log.length + 1)) ∧
  (∀ (s : State) (k : Nat), k < 16 →
     (∀ sp bit hard, bit < 8 * spaceSize sp → (s.flips.any fun f => f.1 == 8 * spaceKey k sp 0 + bit) = false →
       exec (.softError (.storage k sp bit hard)) s = .next { s with flips := s.flips ++ [(8 * spaceKey k sp 0 + bit, hard)] }) ∧
     (∀ n bit hard, n < 2 → bit < 8 * 0x180000 → (s.flips.any fun f => f.1 == 8 * shadowKey k n + bit) = false →
       exec (.softError (.shadow k n bit hard)) s = .next { s with flips := s.flips ++ [(8 * shadowKey k n + bit, hard)] }) ∧
     (∀ w r, r.num < 32 → 0 < r.num → ∃ t, exec (.softError (.register k w r)) s = .next t ∧
       t.parity.contains (k, w, fileCode r.file, r.num) = true ∧ t.cores = s.cores ∧ SameMem s t) ∧
     (∀ row col x, row < 256 → col < 1024 → tabWf 0 (getCore s k).acc = true → ∃ t,
       exec (.softError (.accValue k row col x)) s = .next t ∧
       accRow (getCore t k) row = accRow (getCore s k) row ^^^ (x.setWidth 32768 <<< (32 * col)) ∧
       (∀ q, q ≠ row → accRow (getCore t k) q = accRow (getCore s k) q) ∧ SameMem s t) ∧
     (∀ tms tdi, ∃ t, exec (.boundaryScan tms tdi) s = .next t ∧ t.power.tap = tapNext s.power.tap tms ∧
       t.cores = s.cores ∧ t.router = s.router ∧ SameMem s t))

/-- R354 to R360: launch in two phases. The entry package starts a prepare; a leaf of the tree reports its verdict,
and with an acceptance reserves its slots; the last report decides between apply and abort, which the host hears of;
an apply loads the contexts, armed at once where they have no input to wait for; an abort empties the reserved slots.
R24 and R361: the last sink's report makes a region ready and tells the host its ports; an inject that nothing refuses
puts its token into the ring with the port's count, keeps a copy of it for replay and spends a credit; a refused one
is answered with its reason and changes no core. Where the rules leave a choice the clause is the model’s own reading
(log entries 66, 67, 114, 116 and 149). -/
def Obligations.LaunchAndTokens : Prop :=
  (∀ (s : State) (h : BitVec 128),
     (∀ m rest save, HostHead s m rest → m.req = .handle h save → bitsOf h.toNat 56 8 = 0 → handlePart h ≠ 0 →
       (m.partition = 0 ∨ m.partition = handlePart h) → findLaunch s h = none → ∃ t l, exec .handle s = .next t ∧
       findLaunch t h = some l ∧ l.entry = some (m.channel, m.tag) ∧ l.kids = treeNext s ∧ l.verdict = none ∧
       t.ctlIn = s.ctlIn ++ [(s.chip, .prepare h save)] ∧ t.cores = s.cores ∧ SameMem s t) ∧
     (∀ from_ rest a r, CtlHead s from_ (.prepare h none) rest → from_ ≠ s.chip → treeNext s = [from_] →
       findLaunch s h = none → findBase s (handleImage h) false = some a → r = rejectReason s h a none (partAt s a) →
       ∃ t, exec .launchPrepare s = .next t ∧ t.ctlOut = s.ctlOut ++ [(from_, .report h s.chip r)] ∧
         (r = 0 → ∀ p, partAt s a = some p → ∀ e, e ∈ targets p → e.1 < 16 → (ctxAt t e.1 e.2).status = .reserved) ∧
         (r ≠ 0 → t.cores = s.cores) ∧ SameMem s t) ∧
     (∀ from_ rest chip reason l asker, CtlHead s from_ (.report h chip reason) rest → findLaunch s h = some l →
       l.entry = some asker → l.verdict = some 0 → l.kids = [from_] → l.rejects = [] → ∃ t, exec .prepareReport s = .next t ∧
       (reason = 0 → t.ctlIn = rest ++ [(s.chip, .apply h)] ∧ t.hostOut = s.hostOut) ∧
       (reason ≠ 0 → t.ctlIn = rest ++ [(s.chip, .abort h)] ∧
         t.hostOut = s.hostOut ++ [⟨asker.1, asker.2, .launch (handleImage h) (handleRegion h) 1 [] chip reason⟩]) ∧
       t.cores = s.cores ∧ SameMem s t) ∧
     (∀ from_ rest l p u, CtlHead s from_ (.apply h) rest → findLaunch s h = some l → l.part = some p →
       u = (targets p).foldl (fun s e => modCore s e.1 fun c => killSuspended c e.2) s → mayApply u p = true →
       (targets p).Nodup → ∃ t, exec .launchApply s = .next t ∧ findLaunch t h = none ∧
       (∃ r, findRegion t p.partition p.region = some r ∧ r.image = p.image) ∧
       ∀ g, g ∈ p.contexts → g.core < 16 → (ctxAt t g.core g.ctx).cfg = { g with arrayUse := usesArray g, data := [] } ∧
         (ctxAt t g.core g.ctx).image = p.image ∧ (ctxAt t g.core g.ctx).region = p.region ∧
         (g.ins = [] → g.gang.length ≤ 1 → (ctxAt t g.core g.ctx).status = if g.staged then .staged else .armed) ∧
         ((∃ e, e ∈ g.ins ∧ e.2.cow = false) → (ctxAt t g.core g.ctx).status = .configured)) ∧
     (∀ from_ rest l p, CtlHead s from_ (.abort h) rest → preparing s h = false → findLaunch s h = some l → l.part = some p → ∃ t,
       exec .launchAbort s = .next t ∧ findLaunch t h = none ∧
       (∀ e, e ∈ targets p → e.1 < 16 → (ctxAt t e.1 e.2).status = .empty) ∧ SameMem s t)) ∧
  (∀ (s : State),
     (∀ from_ rest part num stage r, CtlHead s from_ (.sinkReady part num stage) rest → findRegion s part num = some r →
       launching s part num = false → r.ready = false → (∀ e, e ∈ r.cfg.sinks → e.2 = stage ∨ r.sinks.contains e.2 = true) → ∃ t q,
       exec .readyReport s = .next t ∧ findRegion t part num = some q ∧ q.ready = true ∧
       ((∀ e, e ∈ regionCtxs s part num → (ctxAt s e.1 e.2).cfg.windows = []) →
         (∀ x, x ∈ savedCtxs s part num → x.cfg.windows = []) → t.cores = s.cores ∧ SameMem s t ∧
         (r.ingress = [] → t.hostOut = s.hostOut) ∧
         (r.ingress ≠ [] → ∃ o ports, t.hostOut = s.hostOut ++ [o] ∧ o.ans = .launch r.image num 0 ports s.chip 0 ∧
           ports.map (·.1) = r.ingress.map (·.port)))) ∧
     (∀ m rest a replay seq hd payload, HostHead s m rest → m.req = .inject a replay seq hd payload →
       writing s m.channel = false →
       (∀ n, injectReason s m.partition a replay hd payload = n → n ≠ 0 → exec .inject s =
         .next { s with hostIn := rest, hostOut := s.hostOut ++ [⟨m.channel, m.tag, .error n 0⟩] }) ∧
       (∀ r i c x n, injectReason s m.partition a replay hd payload = 0 → findIngress s m.partition a = some (r, i) →
         findRegion s r.part r.num = some r → n = (if replay then seq else i.count) → a.core < 16 → a.port < 8 → ringCfg (ctxAt s a.core a.ctx) a.port = some c → c.reorder = false → c.cow = false →
         x = getIn (ctxAt s a.core a.ctx) a.port → ∃ t u, exec .inject s = .next t ∧
         u = { tokenOf hd.toNat payload with seq := n % 2 ^ 32 } ∧
         t.mem = (writeEntry (keepBytes s r a n u) a.core c (x.tail % 2 ^ c.n) u).mem ∧
         (∃ q, findRegion t r.part r.num = some q ∧ q.replay = r.replay ++ [⟨a, n, some u, 0, false⟩] ∧
           q.ingress.find? (fun j => j.port == a) = some { i with credits := i.credits - 1, count := (n + 1) % 2 ^ 32 }) ∧
         (getIn (ctxAt t a.core a.ctx) a.port).toks = x.toks ++ [⟨x.tail % 2 ^ c.n, bitsOf hd.toNat 32 16, u.seq, 1,
           BitVec.ofNat 64 (bitsOf hd.toNat 64 64), payload.length, portBits (boundProducer c x hostChip none u)⟩] ∧
         (getIn (ctxAt t a.core a.ctx) a.port).tail = x.tail + 1)))

/-- R447, R450 and R484: the host's memory accesses. A read returns the bytes that its walk leads to, a write writes
them, a length out of range or an unknown partition is refused; image bytes enter the image store; page data and
results answer the flits that asked. R454 to R457: a boot session. BEGIN opens it; MANIFEST bytes are kept; DATA and
CFG packets for this package are written and enter its digest, DATA for a core with a resident context fails with 3,
and a length out of range with 5; END closes it, and a package without children reports its status to its parent; a
child's statuses are joined to the package's own and go on to the parent, those of all come back to the entry package,
and the host has its answer there. Where the rules leave a choice the clause is the model’s own reading (log entries
85, 88, 95 and 150). -/
def Obligations.HostAndBoot : Prop :=
  (∀ (s : State) (m : HostMsg) (rest : List HostMsg),
     (∀ va len pa u, m.req = .vread va len → AccLands s m rest false va len [] pa u → ∃ t, exec .vread s = .next t ∧
       t.hostOut = s.hostOut ++ [⟨m.channel, m.tag, .vdata (fabRead u (faRegion pa) (faOff pa) len)⟩] ∧ SameMem u t) ∧
     (∀ va data pa u, m.req = .vwrite va data → AccLands s m rest true va data.length data pa u → ∃ t, exec .vwrite s = .next t ∧
       t.hostOut = s.hostOut ++ [⟨m.channel, m.tag, .result 0 0 []⟩] ∧
       t.mem = (fabWrite u (faRegion pa) (faOff pa) data).mem) ∧
     (∀ va len, HostHead s m rest → m.req = .vread va len → (len < 8 ∨ 9120 < len) →
       exec .vread s = .next (errorHost (taken s rest) (m.channel, m.tag) 0x01 0)) ∧
     (∀ va data, HostHead s m rest → m.req = .vwrite va data →
       findPart s m.partition = none → writing s m.channel = false → exec .vwrite s = .next (errorHost (taken s rest) (m.channel, m.tag) 0x02 0)) ∧
     (∀ image chip off bs, HostHead s m rest → m.req = .config image chip off bs →
       (chip = s.chip → inExtent 5 off bs.length = true → ∃ t, exec .config s = .next t ∧
         t.mem = (memWrite s (bootKey off) bs).mem ∧ partBase s off ∈ t.bases ∧ t.cores = s.cores) ∧
       (chip ≠ s.chip → exec .config s = .next (errorHost (taken s rest) (m.channel, m.tag) 0x01 0))) ∧
     (∀ p, HostHead s m rest → findPage s m = some p →
       (∀ bs, m.req = .pagedata bs → p.flit.type = 4 → bs.length = reqLen p.flit →
         exec .pagedata s = .next (answerPage (dropPage (taken s rest) p) p.flit 5 0 bs)) ∧
       (m.req = .result 0 → p.flit.type = 3 → exec .result s = .next (answerPage (dropPage (taken s rest) p) p.flit 8 0 [])) ∧
       (∀ st, m.req = .result st → st ≠ 0 →
         exec .result s = .next (answerPage (dropPage (taken s rest) p) p.flit 9 0x05 [])))) ∧
  (∀ (s : State) (n : Nat) (p : BootPacket),
     (BootHead s n p 1 → s.boot.opened = false → badFields p = false → p.payload.length = 64 → ∃ t, exec .bootBegin s = .next t ∧
       t.boot.opened = true ∧ t.boot.session = bSession p ∧ t.boot.status = 0 ∧ t.boot.input = [] ∧
       t.boot.hash = (p.payload.drop 8).take 48 ∧ t.cores = s.cores ∧ SameMem s t) ∧
     (BootHead s n p 5 → inSession s p = true → badFields p = false → bOffset p + p.payload.length ≤ s.boot.mlen →
       p.payload.length ≤ 8128 → ∃ t,
       exec .bootManifest s = .next t ∧ t.boot.manifest = tabSetMany none s.boot.manifest (bOffset p) (p.payload.map some) ∧
       t.boot.status = s.boot.status ∧ t.cores = s.cores ∧ SameMem s t) ∧
     (BootHead s n p 5 → inSession s p = true → 8128 < p.payload.length ∨ s.boot.mlen < bOffset p + p.payload.length → ∃ t,
       exec .bootManifest s = .next t ∧ t.boot.manifest = s.boot.manifest ∧
       t.boot.status = (if s.boot.status = 0 then 5 else s.boot.status) ∧ t.cores = s.cores ∧ SameMem s t) ∧
     (∀ i, (BootHead s n p 2 ∧ i = .bootData) ∨ (BootHead s n p 3 ∧ i = .bootCfg) → inSession s p = true →
       addresses p s.chip = true → badFields p = true ∨ badLength s p = true → ∃ t, exec i s = .next t ∧
       t.boot.status = (if s.boot.status = 0 then 5 else s.boot.status) ∧ t.boot.input = s.boot.input ∧ t.cores = s.cores ∧
       SameMem s t) ∧
     (BootHead s n p 2 → inSession s p = true → addresses p s.chip = true → badFields p = false → badLength s p = false →
       (residentIn s (dataCores p) = false → ∃ t, exec .bootData s = .next t ∧
         t.mem = (fabWrite s (bRegion p) (bOffset p) (bData p)).mem ∧ t.boot.input = s.boot.input ++ digestInput p ∧
         t.boot.status = s.boot.status) ∧
       (residentIn s (dataCores p) = true → s.boot.status = 0 → ∃ t, exec .bootData s = .next t ∧ t.boot.status = 3 ∧
         t.boot.input = s.boot.input ∧ t.cores = s.cores ∧ SameMem s t)) ∧
     (BootHead s n p 2 → inSession s p = true → addresses p s.chip = false → ∃ t, exec .bootData s = .next t ∧
       t.boot.input = s.boot.input ∧ t.cores = s.cores ∧ SameMem s t) ∧
     (BootHead s n p 3 → inSession s p = true → addresses p s.chip = true → badFields p = false → badLength s p = false → ∃ t,
       exec .bootCfg s = .next t ∧ t.mem = (memWrite s (bootKey (bOffset p)) (bData p)).mem ∧
       t.boot.input = s.boot.input ++ digestInput p ∧ t.cores = s.cores) ∧
     (∀ st, BootHead s n p 4 → inSession s p = true → badFields p = false → p.payload = [] → s.boot.entry = none →
       s.boot.via = n → n ≠ s.chip → s.tree.parent = some n → s.tree.children = [] →
       st = (if s.boot.status = 0 then checkBoot s.boot s.chip else s.boot.status) → ∃ t, exec .bootEnd s = .next t ∧
       t.boot.opened = false ∧ t.ctlOut = s.ctlOut ++ [(n, .bootStatus s.boot.session [(s.chip, st)])] ∧
       t.cores = s.cores ∧ (st = 0 → SameMem s t)) ∧
     (∀ rest id sts e, CtlHead s n (.bootStatus id sts) rest → s.ends = [e] → e.session = id → e.waitFor = [n] → e.sent = false →
       (e.entry = none → e.via ≠ s.chip → s.tree.parent = none → ∃ t, exec .bootStatusReport s = .next t ∧ t.ends = [] ∧
         t.ctlOut = s.ctlOut ++ [(e.via, .bootStatus id (e.statuses ++ sts))] ∧ t.cores = s.cores ∧ SameMem s t) ∧
       (∀ q, s.tree.parent = some q → q ≠ s.chip → ∃ t, exec .bootStatusReport s = .next t ∧
         t.ctlOut = s.ctlOut ++ [(q, .bootStatus id (e.statuses ++ sts))] ∧ (e.entry = none → e.via = q → t.ends = []) ∧
         (e.entry ≠ none ∨ e.via ≠ q → t.ends = [{ e with statuses := e.statuses ++ sts, sent := true, waitFor := [q] }]) ∧
         t.cores = s.cores ∧ SameMem s t) ∧
       (∀ asker, e.entry = some asker → s.tree.parent = none → ∃ t st o, exec .bootStatusReport s = .next t ∧ t.ends = [] ∧
         t.hostOut = s.hostOut ++ [⟨asker.1, asker.2, .result st
           (BitVec.ofNat 64 (((e.statuses ++ sts).filter fun x => x.2 == 0).length % 2 ^ 32))
           ((failures (e.statuses ++ sts)).take 64)⟩, o] ∧ (failures (e.statuses ++ sts) = [] → st = 0) ∧ t.cores = s.cores ∧
         SameMem s t)) ∧
     (∀ rest id sts e, CtlHead s n (.bootStatus id sts) rest → s.ends = [e] → e.session = id → e.waitFor = [n] → e.sent = true →
       e.entry = none → e.via ≠ s.chip → ∃ t, exec .bootStatusReport s = .next t ∧ t.ends = [] ∧
       t.ctlOut = s.ctlOut ++ [(e.via, .bootStatus id sts)] ∧ t.cores = s.cores ∧ SameMem s t))

/-- R271, R272, R304 and R305: the engine of a tree home serves its oldest request: the tree and the log become what
the request makes of them, and a reply for this package ends the job. An append without a page allocates one counted
once; a page held alone is kept; eviction frees no page that is counted. Where the rules leave a choice the clause is
the model’s own reading (log entries 17, 60, 61, 113 and 146). -/
def Obligations.PrefixServes : Prop :=
  (∀ (s : State) (g : PrefixEngine) (q : PrefixReq) (rest : List PrefixReq), takePrefixFlit s = none →
    s.engines.find? mayServe = some g → findEngine s g.part = some g → g.queue = q :: rest → ∃ t h,
    exec .prefixRequest s = .next t ∧ findEngine t g.part = some h ∧ h.tree = (serveTree g q).tree ∧ h.queue = rest ∧
    h.serial = g.serial + 1 ∧ h.log.length = g.log.length + 1 ∧
    (∀ j, (serveTree g q).cow = none → q.chip = s.chip → q.core < 16 → findJob s q.core q.job = some j → j.state = .running →
      ∃ y, findJob t q.core q.job = some y ∧ y.state = .finished ∧ y.err = (serveTree g q).err ∧
        y.result = BitVec.ofNat 64 (serveTree g q).result)) ∧
  (∀ (t : TreeState) (lim region wave l : Nat) (u : TreeState), allocLpid t lim = some (l, u) →
    (serveApp t lim region wave 0).result = l ∧ (serveApp t lim region wave 0).err = 0 ∧
    lpidRec (serveApp t lim region wave 0).tree l = some ⟨1, false⟩) ∧
  (∀ (t : TreeState) (lim region wave e : Nat), 0 < e → e < 2 ^ 20 → lpidRec t e = some ⟨1, false⟩ →
    serveApp t lim region wave e = ⟨t, 0, e, [], none⟩) ∧
  (∀ (t : TreeState) (region wave n l : Nat) (r : LpidRec), lpidRec t l = some r → r.count ≠ 0 →
    lpidRec (evictLeaves region wave n t).2 l = some r)

/-- R340, R352 and R451: management of partitions and cores. A partition that fits takes its cores and its registers,
one out of limits is refused with 0x01 and one that clashes with 0x07; a destroyed partition returns its cores; a
restarted curator begins at the queue vector; a retired core is empty and withdrawn, which the host hears of. R400,
R409, R451 and R478: management of regions that this package carries. A segment is aborted only between the error and
its roll-back; a roll-back asked for is a region error of class HOST; a replacement goes to the new package, and its
answer waits; a region is abandoned on every package. R446, R449 to R451 and R474: management of channels, routing and
telemetry, each answered on the channel that asked. Where the rules leave a choice the clause is the model’s own
reading (log entries 74, 89, 90, 134, 149, 151 and 163). -/
def Obligations.Management : Prop :=
  (∀ (s : State) (m : HostMsg) (rest : List HostMsg),
     (∀ p, MgmtHead s m rest (.createPartition p) →
       (badParams s p = true → exec .mgmtCreatePartition s = .next (resultHost (taken s rest) (m.channel, m.tag) 0x01)) ∧
       (badParams s p = false → partClash s p = true →
         exec .mgmtCreatePartition s = .next (resultHost (taken s rest) (m.channel, m.tag) 0x07)) ∧
       (badParams s p = false → partClash s p = false → ∃ t, exec .mgmtCreatePartition s = .next t ∧
         Answered s t m (.result 0 0 []) ∧ (∃ q, q ∈ t.parts ∧ q.params = p) ∧
         (∀ k, k ∈ p.cores → partOf (getCore t k) = p.num ∧ (getCore t k).cur = .reset ∧ (getCore t k).kvec =
           BitVec.ofNat 29 (bitsOf p.kvec.toNat 0 13 + bitsOf p.kvec.toNat 16 13 * 2 ^ 16)) ∧ SameMem s t)) ∧
     (∀ p, MgmtHead s m rest (.destroyPartition p.params.num) → p.params.num ≠ 0 → findPart s p.params.num = some p →
       (∀ r, r ∈ s.regions → r.part ≠ p.params.num) → ∃ t, exec .mgmtDestroyPartition s = .next t ∧
       Answered s t m (.result 0 0 []) ∧ findPart t p.params.num = none ∧
       (∀ k, k ∈ p.params.cores → k < 16 → partOf (getCore s k) = p.params.num → partOf (getCore t k) = 0) ∧ SameMem s t) ∧
     (∀ k, MgmtHead s m rest (.restartCurator k) → k < 16 → (getCore s k).withdrawn = false → ∃ t,
       exec .mgmtRestartCurator s = .next t ∧ Answered s t m (.result 0 0 []) ∧ (getCore t k).curator = true ∧
       (getCore t k).faulted = false ∧ (getCore t k).cur.next = .at (kvecBase (getCore s k) + 8 * 0x20) ∧ SameMem s t) ∧
     (∀ k, MgmtHead s m rest (.retireCore k) → k < 16 → (getCore s k).withdrawn = false →
       coreReady (modCore s k fun c => killSuspended (killSuspended c false) true) k = true → ∃ t, exec .mgmtRetireCore s = .next t ∧
       (getCore t k).withdrawn = true ∧ (getCore t k).ctxA.status = .empty ∧ (getCore t k).ctxB.status = .empty ∧
       (∃ l o, t.hostOut = l ++ [⟨m.channel, m.tag, .result 0 0 []⟩] ∧ o ∈ l ∧
         o.ans = .event 0x02 s.chip k 0 (BitVec.ofNat 64 k) none) ∧ SameMem s t) ∧
     (∀ k, MgmtHead s m rest (.retireCore k) → k < 16 → (getCore s k).withdrawn = true → ∃ t, exec .mgmtRetireCore s = .next t ∧
       Answered s t m (.result 0x07 0 []) ∧ SameMem s t)) ∧
  (∀ (s : State) (m : HostMsg) (rest : List HostMsg) (part num : Nat) (r : Region),
     findRegion s part num = some r → r.gone = false → r.phase ≠ .drained →
     (∀ e l, MgmtHead s m rest (.abortSegment part num) → r.errors = e :: l → isHome s r = true → r.recover = true →
       r.rolled = false → ∃ t q, exec .mgmtAbortSegment s = .next t ∧ findRegion t part num = some q ∧
       q.abort = some (e.1, e.2.1) ∧ t.cores = s.cores ∧ SameMem s t) ∧
     (MgmtHead s m rest (.abortSegment part num) → r.errors = [] →
       exec .mgmtAbortSegment s = .next (resultHost (taken s rest) (m.channel, m.tag) 0x07)) ∧
     (MgmtHead s m rest (.rollBackRegion part num) → r.cfg.homeChip = s.chip → ∃ t, exec .mgmtRollBackRegion s = .next t ∧
       Answered s t m (.result 0 0 []) ∧ t.ctlIn = s.ctlIn ++ [(s.chip, .error part num 0x24 s.chip 0)] ∧ t.cores = s.cores ∧
       SameMem s t) ∧
     (∀ lost new, MgmtHead s m rest (.replacePackage part num lost new) → replaceBad s r lost new = false →
       new ≠ s.chip → ∃ t, exec .mgmtReplacePackage s = .next t ∧ t.hostOut = s.hostOut ∧
       (∃ q, findRegion t part num = some q ∧ q.replacing = r.replacing ++ [(new, (m.channel, m.tag))]) ∧
       t.ctlOut = s.ctlOut ++ [(new, .replace part num lost new r.wave)] ∧ t.cores = s.cores ∧ SameMem s t) ∧
     (∀ lost new, MgmtHead s m rest (.replacePackage part num lost new) → replaceBad s r lost new = true →
       exec .mgmtReplacePackage s = .next (resultHost (taken s rest) (m.channel, m.tag) 0x07)) ∧
     (MgmtHead s m rest (.abandonRegion part num) → ∃ t, exec .mgmtAbandonRegion s = .next t ∧ t.hostOut = s.hostOut ∧
       t.ctlIn = s.ctlIn ++ [(s.chip, .abandon part num)] ∧ t.cores = s.cores ∧ SameMem s t)) ∧
  (∀ (s : State) (m : HostMsg) (rest : List HostMsg),
     (∀ ch part, MgmtHead s m rest (.openChannel ch part) → ch < 4096 → part < 256 → findChannel s ch = none →
       (part = 0 ∨ (findPart s part).isSome) → exec .mgmtOpenChannel s = .next (resultHost { taken s rest with
         channels := s.channels ++ [newChannel ch part true (sessionKey s.spdm ch)] }
         (m.channel, m.tag) 0)) ∧
     (∀ ch c, MgmtHead s m rest (.closeChannel ch c.part) → findChannel s ch = some c → ch ≠ 0 → ∃ t,
       exec .mgmtCloseChannel s = .next t ∧ findChannel t ch = none ∧
       (∃ l, t.hostOut = l ++ [⟨m.channel, m.tag, .result 0 0 []⟩]) ∧ (∀ q, q ∈ t.hostIn → q.channel ≠ ch) ∧
       (∀ a, a ∈ t.accs → a.reply.1 ≠ ch) ∧
       ((∀ p, p ∈ s.pages → (getPart s p.flit.partition).params.channel ≠ ch) → t.cores = s.cores ∧ SameMem s t)) ∧
     (∀ ch part, MgmtHead s m rest (.closeChannel ch part) →
       (findChannel s ch = none → exec .mgmtCloseChannel s = .next (resultHost (taken s rest) (m.channel, m.tag) 0x07)) ∧
       (∀ c, findChannel s ch = some c → c.part ≠ part →
         exec .mgmtCloseChannel s = .next (resultHost (taken s rest) (m.channel, m.tag) 0x02))) ∧
     (∀ part key p c, MgmtHead s m rest (.installStorageKey part key) → findPart s part = some p →
       findChannel s p.params.channel = some c → ∃ t d, exec .mgmtInstallStorageKey s = .next t ∧
       Answered s t m (.result 0 0 []) ∧ findChannel t p.params.channel = some d ∧ d.key = key ∧ d.keyed = true ∧
       d.rxNext = 0 ∧ d.txNext = 0 ∧ t.cores = s.cores ∧ SameMem s t) ∧
     (∀ w, MgmtHead s m rest (.writeRouting w) →
       (routeOk w = true → exec .mgmtWriteRouting s = .next (resultHost (writeRoute (taken s rest) w) (m.channel, m.tag) 0)) ∧
       (routeOk w = false → exec .mgmtWriteRouting s = .next (resultHost (taken s rest) (m.channel, m.tag) 0x01))) ∧
     (MgmtHead s m rest (.readTelemetry 3) → exec .mgmtReadTelemetry s =
       .next (replyHost (taken s rest) (m.channel, m.tag) (.telem (keyRecords s (List.range 17))))))

/-- R449, R463 and R464: the SPDM exchange. Each request is served in its order and answered; out of order it is
answered with an error and the exchange stays; KEY_EXCHANGE agrees on a secret over secp384r1; FINISH with the right
authentication opens the session with its secrets and keys channel 0; KEY_UPDATE renews the keys and END_SESSION ends
them. The order of the requests, the codes and the layouts are the model's reading of DSP0274 (log entry 27). Where
the rules leave a choice the clause is the model’s own reading (log entries 27 and 152). -/
def Obligations.Attestation : Prop :=
  ∀ (s : State) (m : HostMsg) (rest : List HostMsg),
    (SpdmHead s m rest .version → s.spdm.phase ≠ 5 → ∃ t, exec .spdmVersion s = .next t ∧ t.spdm.phase = 1 ∧
      Answered s t m (.spdm (Config.spdmResponse 0x04 []))) ∧
    (SpdmHead s m rest .capabilities → s.spdm.phase = 1 → ∃ t, exec .spdmCapabilities s = .next t ∧ t.spdm.phase = 2 ∧
      Answered s t m (.spdm (Config.spdmResponse 0x61 []))) ∧
    (SpdmHead s m rest .algorithms → s.spdm.phase = 2 → ∃ t, exec .spdmAlgorithms s = .next t ∧ t.spdm.phase = 3 ∧
      Answered s t m (.spdm (Config.spdmResponse 0x63 []))) ∧
    ((s.spdm.phase = 3 ∨ s.spdm.phase = 5) →
      (SpdmHead s m rest .digests → ∃ t, exec .spdmDigests s = .next t ∧ t.spdm.phase = s.spdm.phase ∧
        Answered s t m (.spdm (Config.spdmResponse 0x01 [sha384 chainBytes]))) ∧
      (SpdmHead s m rest .certificate → ∃ t, exec .spdmCertificate s = .next t ∧ t.spdm.phase = s.spdm.phase ∧
        Answered s t m (.spdm (Config.spdmResponse 0x02 [chainBytes]))) ∧
      (∀ i nonce parts, SpdmHead s m rest (.measurements i nonce) → measured s i = some parts → ∃ t,
        exec .spdmMeasurements s = .next t ∧ t.spdm.phase = s.spdm.phase ∧
        Answered s t m (.spdm (Config.spdmResponse 0x60 (parts ++ [signScript s (.measurements i nonce) parts]))))) ∧
    (∀ nonce, SpdmHead s m rest (.challenge nonce) → s.spdm.phase = 3 → ∃ t, exec .spdmChallenge s = .next t ∧
      t.spdm.phase = 3 ∧ Answered s t m (.spdm (Config.spdmResponse 0x03 (challenged s ++ [signScript s (.challenge nonce) (challenged s)])))) ∧
    (∀ x, SpdmHead s m rest (.keyExchange x) → s.spdm.phase = 3 →
      (∀ r d l, readPoint x = some r → d = Config.ephemeral s.counter → l = [publicKey d, sha384 (allMeasured s)] → ∃ t,
        exec .spdmKeyExchange s = .next t ∧ t.spdm.phase = 4 ∧ t.spdm.secret = ecdhSecret d (some r) ∧
        Answered s t m (.spdm (Config.spdmResponse 0x64 (l ++ [signScript s (.keyExchange x) l])))) ∧
      (readPoint x = none → ∃ t, exec .spdmKeyExchange s = .next t ∧ t.spdm = s.spdm ∧
        Answered s t m (.spdm (Config.spdmResponse 0x7F [natLe 1 0x01])))) ∧
    (∀ v c th, SpdmHead s m rest (.finish v) → s.spdm.phase = 4 → findChannel s 0 = some c →
      th = sha384 (s.spdm.script ++ Config.spdmRequest (.finish v) ++ Config.spdmResponse 0x65 []) →
      (v = finishMac s → ∃ t d, exec .spdmFinish s = .next t ∧ t.spdm.phase = 5 ∧
        t.spdm.req = dataSecret s.spdm.secret "req app data" th ∧ t.spdm.rsp = dataSecret s.spdm.secret "rsp app data" th ∧
        findChannel t 0 = some d ∧ d.keyed = true ∧ d.key = sessionKey t.spdm 0 ∧
        Answered s t m (.spdm (Config.spdmResponse 0x65 []))) ∧
      (v ≠ finishMac s → ∃ t, exec .spdmFinish s = .next t ∧ t.spdm.phase = 3 ∧ t.channels = s.channels ∧
        Answered s t m (.spdm (Config.spdmResponse 0x7F [natLe 1 0x06])))) ∧
    (SpdmHead s m rest .keyUpdate → s.spdm.phase = 5 → ∃ t, exec .spdmKeyUpdate s = .next t ∧ t.spdm.phase = 5 ∧
      t.spdm.req = nextSecret s.spdm.req ∧ t.spdm.rsp = nextSecret s.spdm.rsp ∧
      (∀ c, c ∈ s.channels → c.keyed = true → storageChannel s c.num = false → ∃ d, d ∈ t.channels ∧ d.num = c.num ∧
        d.key = sessionKey t.spdm c.num ∧ d.renewed = true ∧ d.renewedIn = true) ∧
      Answered s t m (.spdm (Config.spdmResponse 0x69 []))) ∧
    (∀ c, SpdmHead s m rest .endSession → s.spdm.phase = 5 → findChannel s 0 = some c → ∃ t d, exec .spdmEndSession s = .next t ∧
      t.spdm.phase = 0 ∧ t.spdm.secret = [] ∧ t.spdm.req = [] ∧ t.spdm.rsp = [] ∧ findChannel t 0 = some d ∧ d.keyed = false ∧
      Answered s t m (.spdm (Config.spdmResponse 0x6C []))) ∧
    (∀ q, SpdmHead s m rest q → spdmServed q s.spdm.phase = false → ∃ t, exec (spdmInstr q) s = .next t ∧ t.spdm = s.spdm ∧
      t.channels = s.channels ∧ Answered s t m (.spdm (Config.spdmResponse 0x7F [natLe 1 0x04])))

/-- R371, R372, R403, R404, R408 and R410 to R414: waves and polls of a region. A stop wave closes the region's
ingress and takes its contexts at their boundaries; each package reports once nothing is under way; a silent busy
region is stopped by its monitor; a drain is over after two polls that agree; a marker wave starts, and is complete
with the last sink's report; a complete wave becomes the region's wave and older snapshots go. R400 to R402 and R459:
errors of regions. An error at the home joins those of the region and starts its stop wave; a roll-back restores each
context of the region from its snapshot of the wave, armed unless it was staged, and is reported; a chip of which
every link is down is lost: the tree is rebuilt over the links left, the host has event 0x07, and every package hears
of it. Where the rules leave a choice the clause is the model’s own reading (log entries 69, 72, 135, 153 and 162). -/
def Obligations.Regions : Prop :=
  (∀ (s : State) (part num : Nat) (r : Region), findRegion s part num = some r →
     (∀ from_ rest source k b, CtlHead s from_ (.stop part num source) rest → r.phase = .running → k < 16 →
       inRegionCtx s part num k b = true → (ctxAt s k b).stopped = none → mayTake (ctxAt s k b) = true → ∃ t q,
       exec .stopWavePackage s = .next t ∧ findRegion t part num = some q ∧ q.phase = .stopping ∧ q.closed = true ∧
       (ctxAt t k b).stopped = some source) ∧
     (s.regions.find? (reportDue s) = some r → r.stray = false → r.cfg.homeChip ≠ s.chip → ∃ t, exec .stopReport s = .next t ∧
       t.ctlOut = s.ctlOut ++ [(r.cfg.homeChip, .stopped r.part r.num s.chip)] ∧ t.cores = s.cores ∧ SameMem s t) ∧
     (∀ from_ rest chip, s.regions.find? (reportDue s) = none → CtlHead s from_ (.stopped part num chip) rest → r.stopOn = true →
       (∀ c, c ∈ r.cfg.chips → c = chip ∨ r.reports.contains c = true ∨ r.lost.contains c = true) → ∃ t,
       exec .stopReport s = .next t ∧ t.ctlIn = rest ++ [(s.chip, .stopDone part num)] ∧ t.cores = s.cores ∧ SameMem s t) ∧
     (∀ others q, q = (others.map (·.1)).foldl Nat.min (s.clock - r.quiet) → isHome s r = true → hangInterval s r ≠ 0 →
       r.phase = .running → r.stopOn = false →
       (hangInterval s r ≤ q → regionBusy s part num = true → ∃ t, exec (.hangPoll part num others) s = .next t ∧
         t.ctlIn = s.ctlIn ++ [(s.chip, .stop part num 1)] ∧ (∃ p, findRegion t part num = some p ∧ p.stopOn = true ∧ p.least = q)) ∧
       (q < hangInterval s r → exec (.hangPoll part num others) s = .next s)) ∧
     (∀ t0, isHome s r = true → r.phase = .draining → r.waving = false → (drainAnswer s r).busy = false →
       t0 = ((drainAnswer s r).sent, (drainAnswer s r).recv) → t0.1 = t0.2 →
       (r.totals ≠ some t0 → exec (.drainPoll part num []) s = .next (modRegion s part num fun q => { q with totals := some t0 })) ∧
       (r.totals = some t0 → 64 + (drainAnswer s r).bytes ≤ ((getPart s part).params.save.map (·.2)).getD 0 → ∃ t,
         exec (.drainPoll part num []) s = .next t ∧
         t.ctlIn = s.ctlIn ++ [(s.chip, .drainWrite part num [(s.chip, 64)])] ∧ t.cores = s.cores ∧ SameMem s t)) ∧
     (isHome s r = true → r.phase = .running → r.stopOn = false → r.ready = true → r.waving = false → r.cfg.period ≠ 0 → ∃ t q,
       exec (.markerWaveStart part num) s = .next t ∧ findRegion t part num = some q ∧ q.waving = true ∧ q.wave = r.wave ∧
       t.ctlIn = s.ctlIn ++ [(s.chip, .waveStart part num (r.wave + 1))] ∧ t.cores = s.cores ∧ SameMem s t) ∧
     (∀ from_ rest stage, CtlHead s from_ (.sinkWave part num stage (r.wave + 1)) rest → r.waving = true →
       (∀ e, e ∈ r.cfg.sinks → e.2 = stage ∨ r.sinkWave.contains e.2 = true) → ∃ t, exec .sinkWaveReport s = .next t ∧
       t.ctlIn = rest ++ [(s.chip, .waveDone part num (r.wave + 1))] ∧ t.cores = s.cores ∧ SameMem s t) ∧
     (∀ from_ rest w, CtlHead s from_ (.waveDone part num w) rest → ∃ t q, exec .waveCompletionBroadcast s = .next t ∧
       findRegion t part num = some q ∧ q.wave = w ∧ q.replay = freeReplay w r.replay ∧
       (∀ k b, k < 16 → inRegionCtx s part num k b = true →
         (ctxAt t k b).snaps = (ctxAt s k b).snaps.filter fun n => decide (w ≤ n.2.wave)))) ∧
  ((∀ (s : State) (part num : Nat) (r : Region), findRegion s part num = some r →
     (∀ from_ rest cls chip core, CtlHead s from_ (.error part num cls chip core) rest → isHome s r = true → r.phase = .running →
       r.stopOn = false → ∃ t q, exec .regionError s = .next t ∧ findRegion t part num = some q ∧
       q.errors = r.errors ++ [(cls, chip, core)] ∧ q.stopOn = true ∧ t.ctlIn = rest ++ [(s.chip, .stop part num 2)] ∧
       t.cores = s.cores ∧ SameMem s t) ∧
     (∀ from_ rest w k b h n, CtlHead s from_ (.rollback part num w) rest → k < 16 → inRegionCtx s part num k b = true →
       (ctxAt s k b).snaps.find? (fun e => e.2.wave == w) = some (h, n) → ∃ t, exec .regionRollback s = .next t ∧
       (ctxAt t k b).status = (if (ctxAt s k b).status = .staged then .staged else .armed) ∧ (ctxAt t k b).marker = w ∧
       (ctxAt t k b).live.x = (restoreRegs n.regs).x ∧ (ctxAt t k b).firing = false ∧ (ctxAt t k b).withheld = [] ∧
       (ctxAt t k b).relq = [] ∧ (ctxAt t k b).ctol = n.ctol ∧
       (r.cfg.homeChip ≠ s.chip → ∃ l, t.ctlOut = l ++ [(r.cfg.homeChip, .rolledBack part num s.chip)]))) ∧
   (∀ (s : State) (from_ : Nat) (rest : List (Nat × CtlMsg)) (chip l : Nat) (tr : Tree) (xs : List Nat),
     CtlHead s from_ (.linkDown chip l) rest → tr = { s.tree with downs := s.tree.downs ++ [(chip, l)] } →
     xs = distinct ((tr.built.map (·.far)).filter fun x => x != s.chip && chipGone tr x && !tr.lost.contains x) → ∃ t,
     exec .linkDownReport s = .next t ∧ (xs = [] → t.tree = tr ∧ t.ctlIn = rest ∧ t.hostOut = s.hostOut) ∧
     (∀ x, x ≠ s.chip → chipGone tr x = true → x ∈ t.tree.lost) ∧
     (∀ x, xs = [x] → t.tree.built = linksLeft tr x ∧ t.ctlIn = rest ++ [(s.chip, .chipLost x (linksLeft tr x))] ∧
       t.hostOut = s.hostOut ++ [⟨0, 0, .event 0x07 s.chip 0 0 (BitVec.ofNat 64 x) none⟩]) ∧ t.cores = s.cores ∧ SameMem s t))

/-- R83, R85, R91 and R467: a step runs the decoded instruction. The event at the head of the agenda is the step; a
bundle whose slot word decodes to an instruction that nothing holds back is that instruction's effect followed by the
end of the bundle, or the trap that it raised, or a freeze; a word that decodes to none traps ILLEGAL with the word; a
halted package does nothing. Where the rules leave a choice the clause is the model’s own reading (log entries 3 and
33). -/
def Obligations.StepRuns : Prop :=
  (∀ (s : State) (i : Instr) (rest : List Action), s.halted = false → s.agenda = .event i :: rest →
    step s = exec i { s with agenda := rest }) ∧
  (∀ s : State, s.halted = true → s.agenda.head? ≠ some (.event .powerLoss) → step s = .fault .thermalHalt) ∧
  (∀ (s : State) (k : Nat) (rest : List Action) (u : State) (b n : Nat) (i : Instr) (t : State),
    Fetches s k rest u b → HoldsAlone s k b n i → i ≠ .nop → slotCause u b (bundleInstrs (getCore s k) b) (n, i) = none →
    slotEmpty u (n, i) = none → slotWaits u (n, i) = false → u.parity = [] → endingAt (actRegs u) b = [] →
    (n = 7 → guardTrue (actRegs u) i = true → enHeld u = false) →
    exec i (modScr (noteSeen u) fun q => { q with slot := n }) = .next t → t.scr.memerr = none → t.scr.implicit = false →
    (t.scr.trapped = none → t.scr.frozen = none → step s = .next (endBundle t b)) ∧
    (∀ q, t.scr.trapped = some q → step s = .next (bundleTrap u q)) ∧
    (∀ f, t.scr.trapped = none → t.scr.frozen = some f → t.scr.keep = false → step s = .next (bundleFreeze u f))) ∧
  (∀ (s : State) (k : Nat) (rest : List Action) (u : State) (b : Nat), Fetches s k rest u b → slotBad (getCore s k) b 0 = true →
    step s = .next (bundleTrap u ⟨0x01, 0, false, none, BitVec.ofNat 64 (slotWord (getCore s k) b 0)⟩)) ∧
  (∀ (s : State) (n : BitVec 3) (w : BitVec 32), ∃ t, exec (.illegal n w) s = .next t ∧
    t.scr.trapped = some ⟨0x01, n.toNat, false, none, w.setWidth 64⟩)

/-- The worked encodings of R120 to R137: words written out from their fields. -/
def Obligations.DecodeWords : Prop :=
  decodeSlot 0 0x0C00001B = .ok (.br 1 true 3) ∧
  decodeSlot 0 0x15010040 = .ok (.loopImm 2 2 64) ∧
  decodeSlot 0 0x1487CF00 = .ok (.loopReg 1 15 7 true) ∧
  decodeSlot 0 0xC8000001 = .ok (.tret false 1) ∧
  decodeSlot 3 0x04851800 = .ok (.vadd 4 5 false 6 false 0 0 0) ∧
  decodeSlot 4 0xE0000000 = .ok (.vexp2 0 0 false 0 0) ∧
  decodeSlot 5 0x04444800 = .ok (.mac 17 2 1 false 0) ∧
  decodeSlot 6 0x046A0000 = .ok (.vld 3 5 0) ∧
  (∀ n, n < 8 → ∃ e, decodeSlot n 0x00000001 = .error e) ∧
  (∃ e, decodeSlot 0 0x30000000 = .error e) ∧ (∃ e, decodeSlot 0 0xC8200000 = .error e) ∧
  (∃ e, decodeSlot 1 0x04000070 = .error e) ∧ (∃ e, decodeSlot 3 0xE0000000 = .error e) ∧
  (∃ e, decodeSlot 5 0x04445800 = .error e)

/-- R84 and R120 to R137: decode and encode agree. The word of every well-formed slot instruction decodes, in a slot
that takes it, to that instruction, or to the row that shares its word (R124). -/
def Obligations.EncodeThenDecode : Prop :=
  ∀ (i : Instr) (w : Nat), i.wf = true → encode i = some w → w < 2 ^ 32 ∧ ∃ n, n < 8 ∧ decodeSlot n w = .ok (canonForm i)

/-- R84, R117 and R120 to R137: no word loses a bit in decoding. What a slot word decodes to is well formed and has
that word. -/
def Obligations.DecodeThenEncode : Prop :=
  ∀ (n w : Nat) (i : Instr), n < 8 → w < 2 ^ 32 → decodeSlot n w = .ok i → i.wf = true ∧ encode i = some w ∧ canonForm i = i

/-- R86, R140 to R157, R175 and R341 to R353: where an instruction of the control slot, MFS or MTS completes. Its
gates open, and with the conditions of its own rule on the state and the operands it answers a next state with no
trap, no freeze and no implicit checkpoint. The effect of TRAP and BRK is the entry into the curator. Where the rules
leave a choice the clause is the model’s own reading (log entries 9, 70 and 71). -/
def Obligations.ControlCompletes : Prop :=
  (∀ (s : State) (i : Instr), Ready s i → ControlRuns s i → ∃ t, exec i s = .next t ∧ GoesOn s t) ∧
  (∀ (s : State) (v : BitVec 16) (n : Bool) (p : BitVec 3),
    (Ready s (.trap v n p) → MayEnter s 0x06 → ∃ t, exec (.trap v n p) s = .next t ∧ EntersTrap s t 0x06 v.toNat) ∧
    (Ready s (.brk v n p) → MayEnter s 0x07 → ∃ t, exec (.brk v n p) s = .next t ∧ EntersTrap s t 0x07 v.toNat))

/-- R52 and R160 to R214: where an instruction of the scalar and vector slots completes. With its gates open and none
of the flags that its result raises enabled as a trap, it answers a next state with no trap and no freeze, in which
only results in flight, claims and flags are new. The forms are add, sub, and, or, xor, andn, sll, srl, sra, rol, min,
max, minu, maxu, mul, mulh, mulhu, div, divu, rem, remu, clz, ctz, popc, brev, extb, exth, extw, exbu, exhu, exwu,
addi, andi, ori, xori, slli, srli, srai, muli, lim, lik, cmp, cmpi, sel, pand, por, pxor, pnot, dadd, dsub, dmul,
ddiv, dsqrt, dmin, dmax, dabs, dneg, dfma, dfms, dnfma, dnfms, fadd, fsub, fmul, fdiv, fsqrt, fmin, fmax, ffma, i2d,
u2d, d2i, d2u, f2d, d2f, i2f, f2i, vadd, vsub, vmul, vfma, vfms, vmin, vmax, vmaxm, vabs, vneg, vcmpeq, vcmplt,
vcmple, vcmpun, vcmpm, vand, vor, vxor, vshl, vshr, vsra, vbld, vbc, vins, vext, vperm, vrot, vred, vscan, vcvt, vqnt,
vdqnt, vhad, vsmrg, vsmup, mand, mor, mxor, mnot, mfx, mtx, mbitSet, mbitClr, mbitInv, vexp2, vlog2, vrcp, vrsq,
vsqrt, vsincos, vtanh. -/
def Obligations.ArithmeticCompletes : Prop :=
  ∀ (s : State) (i : Instr), Ready s i → HasResult s i → Quiet s i → ∃ t, exec i s = .next t ∧ GoesOn s t ∧ OnlyFlight s t ∧
    SameMem s t

/-- R206 to R207, R218 to R238 and R242 to R275: where an instruction of the matrix, load/store and engine slots, a
chain instruction or a VQNT with a maximum completes. With its gates open and the conditions of its own rule on the
state and the operands it answers a next state with no trap, no freeze, no memory error and no implicit checkpoint.
Where the rules leave a choice the clause is the model’s own reading (log entries 9, 53 and 101). -/
def Obligations.MemoryCompletes : Prop :=
  ∀ (s : State) (i : Instr), Ready s i → MemoryRuns s i → ∃ t, exec i s = .next t ∧ GoesOn s t

/-- The memory of the model keeps its canonical form, addresses strictly rising and no entry at the value of an unlisted
byte, through every step; the form is the model’s own (log entry 1). -/
def Obligations.MemoryStaysCanonical : Prop :=
  ∀ s t : State, Memory.wf s.mem = true → step s = .next t → Memory.wf t.mem = true
end

