-- ==== Sys2Proof/Laws/Exec.lean ====
section
/-!
SUPPORT. One equation per arm of `exec`, so that no proof unfolds the whole dispatch.
-/
namespace Sys2Proof.Machine

@[simp] theorem exec_nop (s : State) : exec (.nop) s = execNop s := rfl
@[simp] theorem exec_pbr (b : BitVec 2) (o : BitVec 24) (s : State) : exec (.pbr b o) s = execPbr b o s := rfl
@[simp] theorem exec_pbrx (a : BitVec 5) (e : Bool) (b : BitVec 2) (n : Bool) (p : BitVec 3) (s : State) : exec (.pbrx a e b n p) s = execPbrx a e b n p s := rfl
@[simp] theorem exec_br (b : BitVec 2) (n : Bool) (p : BitVec 3) (s : State) : exec (.br b n p) s = execBr b n p s := rfl
@[simp] theorem exec_call (d : BitVec 5) (b : BitVec 2) (n : Bool) (p : BitVec 3) (s : State) : exec (.call d b n p) s = execCall d b n p s := rfl
@[simp] theorem exec_loopImm (v : BitVec 3) (l : BitVec 8) (t : BitVec 14) (s : State) : exec (.loopImm v l t) s = execLoopImm v l t s := rfl
@[simp] theorem exec_loopReg (v : BitVec 3) (l : BitVec 8) (a : BitVec 5) (e : Bool) (s : State) : exec (.loopReg v l a e) s = execLoopReg v l a e s := rfl
@[simp] theorem exec_loopKeep (v : BitVec 3) (l : BitVec 8) (s : State) : exec (.loopKeep v l) s = execLoopKeep v l s := rfl
@[simp] theorem exec_loopsl (v : BitVec 3) (l : BitVec 8) (h : BitVec 4) (s : State) : exec (.loopsl v l h) s = execLoopsl v l h s := rfl
@[simp] theorem exec_lbrk (v : BitVec 3) (n : Bool) (p : BitVec 3) (s : State) : exec (.lbrk v n p) s = execLbrk v n p s := rfl
@[simp] theorem exec_waitb (d : BitVec 5) (a : BitVec 5) (e : Bool) (b : BitVec 5) (f : Bool) (n : Bool) (p : BitVec 3) (s : State) : exec (.waitb d a e b f n p) s = execWaitb d a e b f n p s := rfl
@[simp] theorem exec_waitt (a : BitVec 5) (e : Bool) (o : BitVec 3) (n : Bool) (p : BitVec 3) (s : State) : exec (.waitt a e o n p) s = execWaitt a e o n p s := rfl
@[simp] theorem exec_done (n : Bool) (p : BitVec 3) (s : State) : exec (.done n p) s = execDone n p s := rfl
@[simp] theorem exec_ckpt (n : Bool) (p : BitVec 3) (s : State) : exec (.ckpt n p) s = execCkpt n p s := rfl
@[simp] theorem exec_fence (k : BitVec 2) (q : BitVec 2) (m : BitVec 16) (n : Bool) (p : BitVec 3) (s : State) : exec (.fence k q m n p) s = execFence k q m n p s := rfl
@[simp] theorem exec_trap (j : BitVec 16) (n : Bool) (p : BitVec 3) (s : State) : exec (.trap j n p) s = execTrap j n p s := rfl
@[simp] theorem exec_brk (j : BitVec 16) (n : Bool) (p : BitVec 3) (s : State) : exec (.brk j n p) s = execBrk j n p s := rfl
@[simp] theorem exec_getid (d : BitVec 5) (n : Bool) (p : BitVec 3) (s : State) : exec (.getid d n p) s = execGetid d n p s := rfl
@[simp] theorem exec_evpop (d : BitVec 5) (b : BitVec 5) (n : Bool) (p : BitVec 3) (s : State) : exec (.evpop d b n p) s = execEvpop d b n p s := rfl
@[simp] theorem exec_rdct (d : BitVec 5) (c : BitVec 5) (n : Bool) (p : BitVec 3) (s : State) : exec (.rdct d c n p) s = execRdct d c n p s := rfl
@[simp] theorem exec_rng (d : BitVec 5) (v : BitVec 3) (n : Bool) (p : BitVec 3) (s : State) : exec (.rng d v n p) s = execRng d v n p s := rfl
@[simp] theorem exec_mfc (d : BitVec 5) (c : BitVec 11) (n : Bool) (p : BitVec 3) (s : State) : exec (.mfc d c n p) s = execMfc d c n p s := rfl
@[simp] theorem exec_mtc (a : BitVec 5) (e : Bool) (c : BitVec 11) (n : Bool) (p : BitVec 3) (s : State) : exec (.mtc a e c n p) s = execMtc a e c n p s := rfl
@[simp] theorem exec_mtcKcpc (a : BitVec 5) (e : Bool) (n : Bool) (p : BitVec 3) (s : State) : exec (.mtcKcpc a e n p) s = execMtcKcpc a e n p s := rfl
@[simp] theorem exec_tret (n : Bool) (p : BitVec 3) (s : State) : exec (.tret n p) s = execTret n p s := rfl
@[simp] theorem exec_halt (a : BitVec 5) (e : Bool) (n : Bool) (p : BitVec 3) (s : State) : exec (.halt a e n p) s = execHalt a e n p s := rfl
@[simp] theorem exec_haltResume (a : BitVec 5) (e : Bool) (n : Bool) (p : BitVec 3) (s : State) : exec (.haltResume a e n p) s = execHaltResume a e n p s := rfl
@[simp] theorem exec_pstop (a : BitVec 5) (e : Bool) (n : Bool) (p : BitVec 3) (s : State) : exec (.pstop a e n p) s = execPstop a e n p s := rfl
@[simp] theorem exec_pstopThaw (a : BitVec 5) (e : Bool) (n : Bool) (p : BitVec 3) (s : State) : exec (.pstopThaw a e n p) s = execPstopThaw a e n p s := rfl
@[simp] theorem exec_pdrain (a : BitVec 5) (e : Bool) (n : Bool) (p : BitVec 3) (s : State) : exec (.pdrain a e n p) s = execPdrain a e n p s := rfl
@[simp] theorem exec_csave (a : BitVec 5) (e : Bool) (b : BitVec 5) (f : Bool) (n : Bool) (p : BitVec 3) (s : State) : exec (.csave a e b f n p) s = execCsave a e b f n p s := rfl
@[simp] theorem exec_cload (a : BitVec 5) (e : Bool) (b : BitVec 5) (f : Bool) (n : Bool) (p : BitVec 3) (s : State) : exec (.cload a e b f n p) s = execCload a e b f n p s := rfl
@[simp] theorem exec_tlbiAsid (a : BitVec 5) (e : Bool) (b : BitVec 5) (f : Bool) (n : Bool) (p : BitVec 3) (s : State) : exec (.tlbiAsid a e b f n p) s = execTlbiAsid a e b f n p s := rfl
@[simp] theorem exec_tlbiPage (a : BitVec 5) (e : Bool) (b : BitVec 5) (f : Bool) (n : Bool) (p : BitVec 3) (s : State) : exec (.tlbiPage a e b f n p) s = execTlbiPage a e b f n p s := rfl
@[simp] theorem exec_tlbiAll (a : BitVec 5) (e : Bool) (b : BitVec 5) (f : Bool) (n : Bool) (p : BitVec 3) (s : State) : exec (.tlbiAll a e b f n p) s = execTlbiAll a e b f n p s := rfl
@[simp] theorem exec_sltw (a : BitVec 5) (e : Bool) (b : BitVec 5) (f : Bool) (n : Bool) (p : BitVec 3) (s : State) : exec (.sltw a e b f n p) s = execSltw a e b f n p s := rfl
@[simp] theorem exec_sltwCommit (a : BitVec 5) (e : Bool) (b : BitVec 5) (f : Bool) (n : Bool) (p : BitVec 3) (s : State) : exec (.sltwCommit a e b f n p) s = execSltwCommit a e b f n p s := rfl
@[simp] theorem exec_lkey (a : BitVec 5) (e : Bool) (b : BitVec 5) (f : Bool) (n : Bool) (p : BitVec 3) (s : State) : exec (.lkey a e b f n p) s = execLkey a e b f n p s := rfl
@[simp] theorem exec_lksw (a : BitVec 5) (e : Bool) (n : Bool) (p : BitVec 3) (s : State) : exec (.lksw a e n p) s = execLksw a e n p s := rfl
@[simp] theorem exec_retc (a : BitVec 5) (e : Bool) (n : Bool) (p : BitVec 3) (s : State) : exec (.retc a e n p) s = execRetc a e n p s := rfl
@[simp] theorem exec_retcCore (a : BitVec 5) (e : Bool) (n : Bool) (p : BitVec 3) (s : State) : exec (.retcCore a e n p) s = execRetcCore a e n p s := rfl
@[simp] theorem exec_jrsm (a : BitVec 5) (e : Bool) (n : Bool) (p : BitVec 3) (s : State) : exec (.jrsm a e n p) s = execJrsm a e n p s := rfl
@[simp] theorem exec_jkil (a : BitVec 5) (e : Bool) (n : Bool) (p : BitVec 3) (s : State) : exec (.jkil a e n p) s = execJkil a e n p s := rfl
@[simp] theorem exec_add (d : BitVec 5) (a : BitVec 5) (e : Bool) (b : BitVec 5) (f : Bool) (p : BitVec 3) (s : State) : exec (.add d a e b f p) s = execAdd d a e b f p s := rfl
@[simp] theorem exec_sub (d : BitVec 5) (a : BitVec 5) (e : Bool) (b : BitVec 5) (f : Bool) (p : BitVec 3) (s : State) : exec (.sub d a e b f p) s = execSub d a e b f p s := rfl
@[simp] theorem exec_and (d : BitVec 5) (a : BitVec 5) (e : Bool) (b : BitVec 5) (f : Bool) (p : BitVec 3) (s : State) : exec (.and d a e b f p) s = execAnd d a e b f p s := rfl
@[simp] theorem exec_or (d : BitVec 5) (a : BitVec 5) (e : Bool) (b : BitVec 5) (f : Bool) (p : BitVec 3) (s : State) : exec (.or d a e b f p) s = execOr d a e b f p s := rfl
@[simp] theorem exec_xor (d : BitVec 5) (a : BitVec 5) (e : Bool) (b : BitVec 5) (f : Bool) (p : BitVec 3) (s : State) : exec (.xor d a e b f p) s = execXor d a e b f p s := rfl
@[simp] theorem exec_andn (d : BitVec 5) (a : BitVec 5) (e : Bool) (b : BitVec 5) (f : Bool) (p : BitVec 3) (s : State) : exec (.andn d a e b f p) s = execAndn d a e b f p s := rfl
@[simp] theorem exec_sll (d : BitVec 5) (a : BitVec 5) (e : Bool) (b : BitVec 5) (f : Bool) (p : BitVec 3) (s : State) : exec (.sll d a e b f p) s = execSll d a e b f p s := rfl
@[simp] theorem exec_srl (d : BitVec 5) (a : BitVec 5) (e : Bool) (b : BitVec 5) (f : Bool) (p : BitVec 3) (s : State) : exec (.srl d a e b f p) s = execSrl d a e b f p s := rfl
@[simp] theorem exec_sra (d : BitVec 5) (a : BitVec 5) (e : Bool) (b : BitVec 5) (f : Bool) (p : BitVec 3) (s : State) : exec (.sra d a e b f p) s = execSra d a e b f p s := rfl
@[simp] theorem exec_rol (d : BitVec 5) (a : BitVec 5) (e : Bool) (b : BitVec 5) (f : Bool) (p : BitVec 3) (s : State) : exec (.rol d a e b f p) s = execRol d a e b f p s := rfl
@[simp] theorem exec_min (d : BitVec 5) (a : BitVec 5) (e : Bool) (b : BitVec 5) (f : Bool) (p : BitVec 3) (s : State) : exec (.min d a e b f p) s = execMin d a e b f p s := rfl
@[simp] theorem exec_max (d : BitVec 5) (a : BitVec 5) (e : Bool) (b : BitVec 5) (f : Bool) (p : BitVec 3) (s : State) : exec (.max d a e b f p) s = execMax d a e b f p s := rfl
@[simp] theorem exec_minu (d : BitVec 5) (a : BitVec 5) (e : Bool) (b : BitVec 5) (f : Bool) (p : BitVec 3) (s : State) : exec (.minu d a e b f p) s = execMinu d a e b f p s := rfl
@[simp] theorem exec_maxu (d : BitVec 5) (a : BitVec 5) (e : Bool) (b : BitVec 5) (f : Bool) (p : BitVec 3) (s : State) : exec (.maxu d a e b f p) s = execMaxu d a e b f p s := rfl
@[simp] theorem exec_mul (d : BitVec 5) (a : BitVec 5) (e : Bool) (b : BitVec 5) (f : Bool) (p : BitVec 3) (s : State) : exec (.mul d a e b f p) s = execMul d a e b f p s := rfl
@[simp] theorem exec_mulh (d : BitVec 5) (a : BitVec 5) (e : Bool) (b : BitVec 5) (f : Bool) (p : BitVec 3) (s : State) : exec (.mulh d a e b f p) s = execMulh d a e b f p s := rfl
@[simp] theorem exec_mulhu (d : BitVec 5) (a : BitVec 5) (e : Bool) (b : BitVec 5) (f : Bool) (p : BitVec 3) (s : State) : exec (.mulhu d a e b f p) s = execMulhu d a e b f p s := rfl
@[simp] theorem exec_div (d : BitVec 5) (a : BitVec 5) (e : Bool) (b : BitVec 5) (f : Bool) (p : BitVec 3) (s : State) : exec (.div d a e b f p) s = execDiv d a e b f p s := rfl
@[simp] theorem exec_divu (d : BitVec 5) (a : BitVec 5) (e : Bool) (b : BitVec 5) (f : Bool) (p : BitVec 3) (s : State) : exec (.divu d a e b f p) s = execDivu d a e b f p s := rfl
@[simp] theorem exec_rem (d : BitVec 5) (a : BitVec 5) (e : Bool) (b : BitVec 5) (f : Bool) (p : BitVec 3) (s : State) : exec (.rem d a e b f p) s = execRem d a e b f p s := rfl
@[simp] theorem exec_remu (d : BitVec 5) (a : BitVec 5) (e : Bool) (b : BitVec 5) (f : Bool) (p : BitVec 3) (s : State) : exec (.remu d a e b f p) s = execRemu d a e b f p s := rfl
@[simp] theorem exec_clz (d : BitVec 5) (a : BitVec 5) (e : Bool) (p : BitVec 3) (s : State) : exec (.clz d a e p) s = execClz d a e p s := rfl
@[simp] theorem exec_ctz (d : BitVec 5) (a : BitVec 5) (e : Bool) (p : BitVec 3) (s : State) : exec (.ctz d a e p) s = execCtz d a e p s := rfl
@[simp] theorem exec_popc (d : BitVec 5) (a : BitVec 5) (e : Bool) (p : BitVec 3) (s : State) : exec (.popc d a e p) s = execPopc d a e p s := rfl
@[simp] theorem exec_brev (d : BitVec 5) (a : BitVec 5) (e : Bool) (p : BitVec 3) (s : State) : exec (.brev d a e p) s = execBrev d a e p s := rfl
@[simp] theorem exec_extb (d : BitVec 5) (a : BitVec 5) (e : Bool) (p : BitVec 3) (s : State) : exec (.extb d a e p) s = execExtb d a e p s := rfl
@[simp] theorem exec_exth (d : BitVec 5) (a : BitVec 5) (e : Bool) (p : BitVec 3) (s : State) : exec (.exth d a e p) s = execExth d a e p s := rfl
@[simp] theorem exec_extw (d : BitVec 5) (a : BitVec 5) (e : Bool) (p : BitVec 3) (s : State) : exec (.extw d a e p) s = execExtw d a e p s := rfl
@[simp] theorem exec_exbu (d : BitVec 5) (a : BitVec 5) (e : Bool) (p : BitVec 3) (s : State) : exec (.exbu d a e p) s = execExbu d a e p s := rfl
@[simp] theorem exec_exhu (d : BitVec 5) (a : BitVec 5) (e : Bool) (p : BitVec 3) (s : State) : exec (.exhu d a e p) s = execExhu d a e p s := rfl
@[simp] theorem exec_exwu (d : BitVec 5) (a : BitVec 5) (e : Bool) (p : BitVec 3) (s : State) : exec (.exwu d a e p) s = execExwu d a e p s := rfl
@[simp] theorem exec_addi (d : BitVec 5) (a : BitVec 5) (e : Bool) (j : BitVec 12) (p : BitVec 3) (s : State) : exec (.addi d a e j p) s = execAddi d a e j p s := rfl
@[simp] theorem exec_andi (d : BitVec 5) (a : BitVec 5) (e : Bool) (j : BitVec 12) (p : BitVec 3) (s : State) : exec (.andi d a e j p) s = execAndi d a e j p s := rfl
@[simp] theorem exec_ori (d : BitVec 5) (a : BitVec 5) (e : Bool) (j : BitVec 12) (p : BitVec 3) (s : State) : exec (.ori d a e j p) s = execOri d a e j p s := rfl
@[simp] theorem exec_xori (d : BitVec 5) (a : BitVec 5) (e : Bool) (j : BitVec 12) (p : BitVec 3) (s : State) : exec (.xori d a e j p) s = execXori d a e j p s := rfl
@[simp] theorem exec_slli (d : BitVec 5) (a : BitVec 5) (e : Bool) (q : BitVec 6) (p : BitVec 3) (s : State) : exec (.slli d a e q p) s = execSlli d a e q p s := rfl
@[simp] theorem exec_srli (d : BitVec 5) (a : BitVec 5) (e : Bool) (q : BitVec 6) (p : BitVec 3) (s : State) : exec (.srli d a e q p) s = execSrli d a e q p s := rfl
@[simp] theorem exec_srai (d : BitVec 5) (a : BitVec 5) (e : Bool) (q : BitVec 6) (p : BitVec 3) (s : State) : exec (.srai d a e q p) s = execSrai d a e q p s := rfl
@[simp] theorem exec_muli (d : BitVec 5) (a : BitVec 5) (e : Bool) (j : BitVec 12) (p : BitVec 3) (s : State) : exec (.muli d a e j p) s = execMuli d a e j p s := rfl
@[simp] theorem exec_lim (d : BitVec 5) (h : BitVec 2) (j : BitVec 16) (p : BitVec 3) (s : State) : exec (.lim d h j p) s = execLim d h j p s := rfl
@[simp] theorem exec_lik (d : BitVec 5) (h : BitVec 2) (j : BitVec 16) (p : BitVec 3) (s : State) : exec (.lik d h j p) s = execLik d h j p s := rfl
@[simp] theorem exec_cmp (d : BitVec 3) (c : BitVec 4) (a : BitVec 5) (e : Bool) (b : BitVec 5) (f : Bool) (p : BitVec 3) (s : State) : exec (.cmp d c a e b f p) s = execCmp d c a e b f p s := rfl
@[simp] theorem exec_cmpi (d : BitVec 3) (c : BitVec 4) (a : BitVec 5) (e : Bool) (j : BitVec 10) (p : BitVec 3) (s : State) : exec (.cmpi d c a e j p) s = execCmpi d c a e j p s := rfl
@[simp] theorem exec_sel (d : BitVec 5) (a : BitVec 5) (e : Bool) (b : BitVec 5) (f : Bool) (q : BitVec 3) (p : BitVec 3) (s : State) : exec (.sel d a e b f q p) s = execSel d a e b f q p s := rfl
@[simp] theorem exec_pand (d : BitVec 3) (a : BitVec 3) (e : Bool) (b : BitVec 3) (f : Bool) (p : BitVec 3) (s : State) : exec (.pand d a e b f p) s = execPand d a e b f p s := rfl
@[simp] theorem exec_por (d : BitVec 3) (a : BitVec 3) (e : Bool) (b : BitVec 3) (f : Bool) (p : BitVec 3) (s : State) : exec (.por d a e b f p) s = execPor d a e b f p s := rfl
@[simp] theorem exec_pxor (d : BitVec 3) (a : BitVec 3) (e : Bool) (b : BitVec 3) (f : Bool) (p : BitVec 3) (s : State) : exec (.pxor d a e b f p) s = execPxor d a e b f p s := rfl
@[simp] theorem exec_pnot (d : BitVec 3) (a : BitVec 3) (e : Bool) (p : BitVec 3) (s : State) : exec (.pnot d a e p) s = execPnot d a e p s := rfl
@[simp] theorem exec_dadd (d : BitVec 5) (a : BitVec 5) (e : Bool) (b : BitVec 5) (f : Bool) (r : BitVec 3) (p : BitVec 3) (s : State) : exec (.dadd d a e b f r p) s = execDadd d a e b f r p s := rfl
@[simp] theorem exec_dsub (d : BitVec 5) (a : BitVec 5) (e : Bool) (b : BitVec 5) (f : Bool) (r : BitVec 3) (p : BitVec 3) (s : State) : exec (.dsub d a e b f r p) s = execDsub d a e b f r p s := rfl
@[simp] theorem exec_dmul (d : BitVec 5) (a : BitVec 5) (e : Bool) (b : BitVec 5) (f : Bool) (r : BitVec 3) (p : BitVec 3) (s : State) : exec (.dmul d a e b f r p) s = execDmul d a e b f r p s := rfl
@[simp] theorem exec_ddiv (d : BitVec 5) (a : BitVec 5) (e : Bool) (b : BitVec 5) (f : Bool) (r : BitVec 3) (p : BitVec 3) (s : State) : exec (.ddiv d a e b f r p) s = execDdiv d a e b f r p s := rfl
@[simp] theorem exec_dsqrt (d : BitVec 5) (a : BitVec 5) (e : Bool) (r : BitVec 3) (p : BitVec 3) (s : State) : exec (.dsqrt d a e r p) s = execDsqrt d a e r p s := rfl
@[simp] theorem exec_dmin (d : BitVec 5) (a : BitVec 5) (e : Bool) (b : BitVec 5) (f : Bool) (p : BitVec 3) (s : State) : exec (.dmin d a e b f p) s = execDmin d a e b f p s := rfl
@[simp] theorem exec_dmax (d : BitVec 5) (a : BitVec 5) (e : Bool) (b : BitVec 5) (f : Bool) (p : BitVec 3) (s : State) : exec (.dmax d a e b f p) s = execDmax d a e b f p s := rfl
@[simp] theorem exec_dabs (d : BitVec 5) (a : BitVec 5) (e : Bool) (p : BitVec 3) (s : State) : exec (.dabs d a e p) s = execDabs d a e p s := rfl
@[simp] theorem exec_dneg (d : BitVec 5) (a : BitVec 5) (e : Bool) (p : BitVec 3) (s : State) : exec (.dneg d a e p) s = execDneg d a e p s := rfl
@[simp] theorem exec_dfma (d : BitVec 5) (a : BitVec 5) (e : Bool) (b : BitVec 5) (f : Bool) (r : BitVec 3) (p : BitVec 3) (s : State) : exec (.dfma d a e b f r p) s = execDfma d a e b f r p s := rfl
@[simp] theorem exec_dfms (d : BitVec 5) (a : BitVec 5) (e : Bool) (b : BitVec 5) (f : Bool) (r : BitVec 3) (p : BitVec 3) (s : State) : exec (.dfms d a e b f r p) s = execDfms d a e b f r p s := rfl
@[simp] theorem exec_dnfma (d : BitVec 5) (a : BitVec 5) (e : Bool) (b : BitVec 5) (f : Bool) (r : BitVec 3) (p : BitVec 3) (s : State) : exec (.dnfma d a e b f r p) s = execDnfma d a e b f r p s := rfl
@[simp] theorem exec_dnfms (d : BitVec 5) (a : BitVec 5) (e : Bool) (b : BitVec 5) (f : Bool) (r : BitVec 3) (p : BitVec 3) (s : State) : exec (.dnfms d a e b f r p) s = execDnfms d a e b f r p s := rfl
@[simp] theorem exec_fadd (d : BitVec 5) (a : BitVec 5) (e : Bool) (b : BitVec 5) (f : Bool) (r : BitVec 3) (p : BitVec 3) (s : State) : exec (.fadd d a e b f r p) s = execFadd d a e b f r p s := rfl
@[simp] theorem exec_fsub (d : BitVec 5) (a : BitVec 5) (e : Bool) (b : BitVec 5) (f : Bool) (r : BitVec 3) (p : BitVec 3) (s : State) : exec (.fsub d a e b f r p) s = execFsub d a e b f r p s := rfl
@[simp] theorem exec_fmul (d : BitVec 5) (a : BitVec 5) (e : Bool) (b : BitVec 5) (f : Bool) (r : BitVec 3) (p : BitVec 3) (s : State) : exec (.fmul d a e b f r p) s = execFmul d a e b f r p s := rfl
@[simp] theorem exec_fdiv (d : BitVec 5) (a : BitVec 5) (e : Bool) (b : BitVec 5) (f : Bool) (r : BitVec 3) (p : BitVec 3) (s : State) : exec (.fdiv d a e b f r p) s = execFdiv d a e b f r p s := rfl
@[simp] theorem exec_fsqrt (d : BitVec 5) (a : BitVec 5) (e : Bool) (r : BitVec 3) (p : BitVec 3) (s : State) : exec (.fsqrt d a e r p) s = execFsqrt d a e r p s := rfl
@[simp] theorem exec_fmin (d : BitVec 5) (a : BitVec 5) (e : Bool) (b : BitVec 5) (f : Bool) (p : BitVec 3) (s : State) : exec (.fmin d a e b f p) s = execFmin d a e b f p s := rfl
@[simp] theorem exec_fmax (d : BitVec 5) (a : BitVec 5) (e : Bool) (b : BitVec 5) (f : Bool) (p : BitVec 3) (s : State) : exec (.fmax d a e b f p) s = execFmax d a e b f p s := rfl
@[simp] theorem exec_ffma (d : BitVec 5) (a : BitVec 5) (e : Bool) (b : BitVec 5) (f : Bool) (r : BitVec 3) (p : BitVec 3) (s : State) : exec (.ffma d a e b f r p) s = execFfma d a e b f r p s := rfl
@[simp] theorem exec_i2d (d : BitVec 5) (a : BitVec 5) (e : Bool) (r : BitVec 3) (p : BitVec 3) (s : State) : exec (.i2d d a e r p) s = execI2d d a e r p s := rfl
@[simp] theorem exec_u2d (d : BitVec 5) (a : BitVec 5) (e : Bool) (r : BitVec 3) (p : BitVec 3) (s : State) : exec (.u2d d a e r p) s = execU2d d a e r p s := rfl
@[simp] theorem exec_d2i (d : BitVec 5) (a : BitVec 5) (e : Bool) (r : BitVec 3) (p : BitVec 3) (s : State) : exec (.d2i d a e r p) s = execD2i d a e r p s := rfl
@[simp] theorem exec_d2u (d : BitVec 5) (a : BitVec 5) (e : Bool) (r : BitVec 3) (p : BitVec 3) (s : State) : exec (.d2u d a e r p) s = execD2u d a e r p s := rfl
@[simp] theorem exec_f2d (d : BitVec 5) (a : BitVec 5) (e : Bool) (r : BitVec 3) (p : BitVec 3) (s : State) : exec (.f2d d a e r p) s = execF2d d a e r p s := rfl
@[simp] theorem exec_d2f (d : BitVec 5) (a : BitVec 5) (e : Bool) (r : BitVec 3) (p : BitVec 3) (s : State) : exec (.d2f d a e r p) s = execD2f d a e r p s := rfl
@[simp] theorem exec_i2f (d : BitVec 5) (a : BitVec 5) (e : Bool) (r : BitVec 3) (p : BitVec 3) (s : State) : exec (.i2f d a e r p) s = execI2f d a e r p s := rfl
@[simp] theorem exec_f2i (d : BitVec 5) (a : BitVec 5) (e : Bool) (r : BitVec 3) (p : BitVec 3) (s : State) : exec (.f2i d a e r p) s = execF2i d a e r p s := rfl
@[simp] theorem exec_mfs (d : BitVec 5) (q : BitVec 12) (p : BitVec 3) (s : State) : exec (.mfs d q p) s = execMfs d q p s := rfl
@[simp] theorem exec_mts (a : BitVec 5) (e : Bool) (q : BitVec 12) (p : BitVec 3) (s : State) : exec (.mts a e q p) s = execMts a e q p s := rfl
@[simp] theorem exec_vadd (d : BitVec 5) (a : BitVec 5) (e : Bool) (b : BitVec 5) (f : Bool) (t : BitVec 3) (m : BitVec 4) (u : BitVec 2) (s : State) : exec (.vadd d a e b f t m u) s = execVadd d a e b f t m u s := rfl
@[simp] theorem exec_vsub (d : BitVec 5) (a : BitVec 5) (e : Bool) (b : BitVec 5) (f : Bool) (t : BitVec 3) (m : BitVec 4) (u : BitVec 2) (s : State) : exec (.vsub d a e b f t m u) s = execVsub d a e b f t m u s := rfl
@[simp] theorem exec_vmul (d : BitVec 5) (a : BitVec 5) (e : Bool) (b : BitVec 5) (f : Bool) (t : BitVec 3) (m : BitVec 4) (u : BitVec 2) (s : State) : exec (.vmul d a e b f t m u) s = execVmul d a e b f t m u s := rfl
@[simp] theorem exec_vfma (d : BitVec 5) (a : BitVec 5) (e : Bool) (b : BitVec 5) (f : Bool) (t : BitVec 3) (m : BitVec 4) (u : BitVec 2) (s : State) : exec (.vfma d a e b f t m u) s = execVfma d a e b f t m u s := rfl
@[simp] theorem exec_vfms (d : BitVec 5) (a : BitVec 5) (e : Bool) (b : BitVec 5) (f : Bool) (t : BitVec 3) (m : BitVec 4) (u : BitVec 2) (s : State) : exec (.vfms d a e b f t m u) s = execVfms d a e b f t m u s := rfl
@[simp] theorem exec_vmin (d : BitVec 5) (a : BitVec 5) (e : Bool) (b : BitVec 5) (f : Bool) (t : BitVec 3) (m : BitVec 4) (u : BitVec 2) (s : State) : exec (.vmin d a e b f t m u) s = execVmin d a e b f t m u s := rfl
@[simp] theorem exec_vmax (d : BitVec 5) (a : BitVec 5) (e : Bool) (b : BitVec 5) (f : Bool) (t : BitVec 3) (m : BitVec 4) (u : BitVec 2) (s : State) : exec (.vmax d a e b f t m u) s = execVmax d a e b f t m u s := rfl
@[simp] theorem exec_vmaxm (d : BitVec 5) (a : BitVec 5) (e : Bool) (b : BitVec 5) (f : Bool) (t : BitVec 3) (m : BitVec 4) (u : BitVec 2) (s : State) : exec (.vmaxm d a e b f t m u) s = execVmaxm d a e b f t m u s := rfl
@[simp] theorem exec_vabs (d : BitVec 5) (a : BitVec 5) (e : Bool) (t : BitVec 3) (m : BitVec 4) (s : State) : exec (.vabs d a e t m) s = execVabs d a e t m s := rfl
@[simp] theorem exec_vneg (d : BitVec 5) (a : BitVec 5) (e : Bool) (t : BitVec 3) (m : BitVec 4) (s : State) : exec (.vneg d a e t m) s = execVneg d a e t m s := rfl
@[simp] theorem exec_vcmpeq (d : BitVec 5) (a : BitVec 5) (e : Bool) (b : BitVec 5) (f : Bool) (t : BitVec 3) (m : BitVec 4) (u : BitVec 2) (s : State) : exec (.vcmpeq d a e b f t m u) s = execVcmpeq d a e b f t m u s := rfl
@[simp] theorem exec_vcmplt (d : BitVec 5) (a : BitVec 5) (e : Bool) (b : BitVec 5) (f : Bool) (t : BitVec 3) (m : BitVec 4) (u : BitVec 2) (s : State) : exec (.vcmplt d a e b f t m u) s = execVcmplt d a e b f t m u s := rfl
@[simp] theorem exec_vcmple (d : BitVec 5) (a : BitVec 5) (e : Bool) (b : BitVec 5) (f : Bool) (t : BitVec 3) (m : BitVec 4) (u : BitVec 2) (s : State) : exec (.vcmple d a e b f t m u) s = execVcmple d a e b f t m u s := rfl
@[simp] theorem exec_vcmpun (d : BitVec 5) (a : BitVec 5) (e : Bool) (b : BitVec 5) (f : Bool) (t : BitVec 3) (m : BitVec 4) (u : BitVec 2) (s : State) : exec (.vcmpun d a e b f t m u) s = execVcmpun d a e b f t m u s := rfl
@[simp] theorem exec_vcmpm (d : BitVec 4) (a : BitVec 5) (e : Bool) (s : State) : exec (.vcmpm d a e) s = execVcmpm d a e s := rfl
@[simp] theorem exec_vand (d : BitVec 5) (a : BitVec 5) (e : Bool) (b : BitVec 5) (f : Bool) (t : BitVec 3) (m : BitVec 4) (u : BitVec 2) (s : State) : exec (.vand d a e b f t m u) s = execVand d a e b f t m u s := rfl
@[simp] theorem exec_vor (d : BitVec 5) (a : BitVec 5) (e : Bool) (b : BitVec 5) (f : Bool) (t : BitVec 3) (m : BitVec 4) (u : BitVec 2) (s : State) : exec (.vor d a e b f t m u) s = execVor d a e b f t m u s := rfl
@[simp] theorem exec_vxor (d : BitVec 5) (a : BitVec 5) (e : Bool) (b : BitVec 5) (f : Bool) (t : BitVec 3) (m : BitVec 4) (u : BitVec 2) (s : State) : exec (.vxor d a e b f t m u) s = execVxor d a e b f t m u s := rfl
@[simp] theorem exec_vshl (d : BitVec 5) (a : BitVec 5) (e : Bool) (b : BitVec 5) (f : Bool) (t : BitVec 3) (m : BitVec 4) (u : BitVec 2) (s : State) : exec (.vshl d a e b f t m u) s = execVshl d a e b f t m u s := rfl
@[simp] theorem exec_vshr (d : BitVec 5) (a : BitVec 5) (e : Bool) (b : BitVec 5) (f : Bool) (t : BitVec 3) (m : BitVec 4) (u : BitVec 2) (s : State) : exec (.vshr d a e b f t m u) s = execVshr d a e b f t m u s := rfl
@[simp] theorem exec_vsra (d : BitVec 5) (a : BitVec 5) (e : Bool) (b : BitVec 5) (f : Bool) (t : BitVec 3) (m : BitVec 4) (u : BitVec 2) (s : State) : exec (.vsra d a e b f t m u) s = execVsra d a e b f t m u s := rfl
@[simp] theorem exec_vbld (d : BitVec 5) (a : BitVec 5) (e : Bool) (b : BitVec 5) (f : Bool) (t : BitVec 3) (m : BitVec 4) (u : BitVec 2) (s : State) : exec (.vbld d a e b f t m u) s = execVbld d a e b f t m u s := rfl
@[simp] theorem exec_vbc (d : BitVec 5) (b : BitVec 5) (f : Bool) (t : BitVec 3) (m : BitVec 4) (s : State) : exec (.vbc d b f t m) s = execVbc d b f t m s := rfl
@[simp] theorem exec_vins (d : BitVec 5) (a : BitVec 5) (e : Bool) (b : BitVec 5) (f : Bool) (t : BitVec 3) (m : BitVec 4) (s : State) : exec (.vins d a e b f t m) s = execVins d a e b f t m s := rfl
@[simp] theorem exec_vext (d : BitVec 5) (a : BitVec 5) (e : Bool) (b : BitVec 5) (f : Bool) (t : BitVec 3) (s : State) : exec (.vext d a e b f t) s = execVext d a e b f t s := rfl
@[simp] theorem exec_vperm (d : BitVec 5) (a : BitVec 5) (e : Bool) (b : BitVec 5) (f : Bool) (t : BitVec 3) (m : BitVec 4) (s : State) : exec (.vperm d a e b f t m) s = execVperm d a e b f t m s := rfl
@[simp] theorem exec_vrot (d : BitVec 5) (a : BitVec 5) (e : Bool) (b : BitVec 5) (f : Bool) (t : BitVec 3) (m : BitVec 4) (u : BitVec 2) (s : State) : exec (.vrot d a e b f t m u) s = execVrot d a e b f t m u s := rfl
@[simp] theorem exec_vred (d : BitVec 5) (a : BitVec 5) (e : Bool) (o : BitVec 5) (t : BitVec 3) (m : BitVec 4) (s : State) : exec (.vred d a e o t m) s = execVred d a e o t m s := rfl
@[simp] theorem exec_vscan (d : BitVec 5) (a : BitVec 5) (e : Bool) (o : BitVec 5) (t : BitVec 3) (m : BitVec 4) (s : State) : exec (.vscan d a e o t m) s = execVscan d a e o t m s := rfl
@[simp] theorem exec_vcvt (d : BitVec 5) (a : BitVec 5) (e : Bool) (r : Bool) (c : BitVec 4) (q : Bool) (t : BitVec 3) (m : BitVec 4) (s : State) : exec (.vcvt d a e r c q t m) s = execVcvt d a e r c q t m s := rfl
@[simp] theorem exec_vqnt (d : BitVec 5) (a : BitVec 5) (e : Bool) (b : BitVec 5) (f : Bool) (t : BitVec 3) (m : BitVec 4) (s : State) : exec (.vqnt d a e b f t m) s = execVqnt d a e b f t m s := rfl
@[simp] theorem exec_vdqnt (d : BitVec 5) (a : BitVec 5) (e : Bool) (b : BitVec 5) (f : Bool) (t : BitVec 3) (m : BitVec 4) (s : State) : exec (.vdqnt d a e b f t m) s = execVdqnt d a e b f t m s := rfl
@[simp] theorem exec_vhad (d : BitVec 5) (a : BitVec 5) (e : Bool) (c : Bool) (q : BitVec 3) (t : BitVec 3) (m : BitVec 4) (s : State) : exec (.vhad d a e c q t m) s = execVhad d a e c q t m s := rfl
@[simp] theorem exec_vsmrg (d : BitVec 5) (a : BitVec 5) (e : Bool) (t : BitVec 3) (m : BitVec 4) (s : State) : exec (.vsmrg d a e t m) s = execVsmrg d a e t m s := rfl
@[simp] theorem exec_vsmup (d : BitVec 5) (a : BitVec 5) (e : Bool) (b : BitVec 5) (f : Bool) (t : BitVec 3) (m : BitVec 4) (s : State) : exec (.vsmup d a e b f t m) s = execVsmup d a e b f t m s := rfl
@[simp] theorem exec_vchc (q : BitVec 3) (o : BitVec 5) (b : BitVec 5) (f : Bool) (t : BitVec 3) (h : BitVec 4) (u : BitVec 2) (s : State) : exec (.vchc q o b f t h u) s = execVchc q o b f t h u s := rfl
@[simp] theorem exec_vch (d : BitVec 5) (a : BitVec 5) (e : Bool) (t : BitVec 3) (m : BitVec 4) (s : State) : exec (.vch d a e t m) s = execVch d a e t m s := rfl
@[simp] theorem exec_mand (d : BitVec 4) (a : BitVec 4) (e : Bool) (b : BitVec 4) (f : Bool) (s : State) : exec (.mand d a e b f) s = execMand d a e b f s := rfl
@[simp] theorem exec_mor (d : BitVec 4) (a : BitVec 4) (e : Bool) (b : BitVec 4) (f : Bool) (s : State) : exec (.mor d a e b f) s = execMor d a e b f s := rfl
@[simp] theorem exec_mxor (d : BitVec 4) (a : BitVec 4) (e : Bool) (b : BitVec 4) (f : Bool) (s : State) : exec (.mxor d a e b f) s = execMxor d a e b f s := rfl
@[simp] theorem exec_mnot (d : BitVec 4) (a : BitVec 4) (e : Bool) (s : State) : exec (.mnot d a e) s = execMnot d a e s := rfl
@[simp] theorem exec_mfx (d : BitVec 5) (a : BitVec 4) (e : Bool) (s : State) : exec (.mfx d a e) s = execMfx d a e s := rfl
@[simp] theorem exec_mtx (d : BitVec 4) (a : BitVec 5) (e : Bool) (s : State) : exec (.mtx d a e) s = execMtx d a e s := rfl
@[simp] theorem exec_mbitSet (d : BitVec 4) (a : BitVec 4) (e : Bool) (j : BitVec 4) (s : State) : exec (.mbitSet d a e j) s = execMbitSet d a e j s := rfl
@[simp] theorem exec_mbitClr (d : BitVec 4) (a : BitVec 4) (e : Bool) (j : BitVec 4) (s : State) : exec (.mbitClr d a e j) s = execMbitClr d a e j s := rfl
@[simp] theorem exec_mbitInv (d : BitVec 4) (a : BitVec 4) (e : Bool) (j : BitVec 4) (s : State) : exec (.mbitInv d a e j) s = execMbitInv d a e j s := rfl
@[simp] theorem exec_vexp2 (d : BitVec 5) (a : BitVec 5) (e : Bool) (t : BitVec 3) (m : BitVec 4) (s : State) : exec (.vexp2 d a e t m) s = execVexp2 d a e t m s := rfl
@[simp] theorem exec_vlog2 (d : BitVec 5) (a : BitVec 5) (e : Bool) (t : BitVec 3) (m : BitVec 4) (s : State) : exec (.vlog2 d a e t m) s = execVlog2 d a e t m s := rfl
@[simp] theorem exec_vrcp (d : BitVec 5) (a : BitVec 5) (e : Bool) (t : BitVec 3) (m : BitVec 4) (s : State) : exec (.vrcp d a e t m) s = execVrcp d a e t m s := rfl
@[simp] theorem exec_vrsq (d : BitVec 5) (a : BitVec 5) (e : Bool) (t : BitVec 3) (m : BitVec 4) (s : State) : exec (.vrsq d a e t m) s = execVrsq d a e t m s := rfl
@[simp] theorem exec_vsqrt (d : BitVec 5) (a : BitVec 5) (e : Bool) (t : BitVec 3) (m : BitVec 4) (s : State) : exec (.vsqrt d a e t m) s = execVsqrt d a e t m s := rfl
@[simp] theorem exec_vsincos (d : BitVec 5) (a : BitVec 5) (e : Bool) (t : BitVec 3) (m : BitVec 4) (s : State) : exec (.vsincos d a e t m) s = execVsincos d a e t m s := rfl
@[simp] theorem exec_vtanh (d : BitVec 5) (a : BitVec 5) (e : Bool) (t : BitVec 3) (m : BitVec 4) (s : State) : exec (.vtanh d a e t m) s = execVtanh d a e t m s := rfl
@[simp] theorem exec_mac (r : BitVec 8) (q : BitVec 5) (o : BitVec 2) (e : Bool) (p : BitVec 3) (s : State) : exec (.mac r q o e p) s = execMac r q o e p s := rfl
@[simp] theorem exec_mwld (k : BitVec 6) (q : BitVec 4) (p : BitVec 3) (s : State) : exec (.mwld k q p) s = execMwld k q p s := rfl
@[simp] theorem exec_mswp (p : BitVec 3) (s : State) : exec (.mswp p) s = execMswp p s := rfl
@[simp] theorem exec_mdrn (d : BitVec 5) (r : BitVec 8) (q : BitVec 4) (m : Bool) (c : Bool) (p : BitVec 3) (s : State) : exec (.mdrn d r q m c p) s = execMdrn d r q m c p s := rfl
@[simp] theorem exec_mfmt (a : BitVec 4) (w : BitVec 4) (p : BitVec 3) (s : State) : exec (.mfmt a w p) s = execMfmt a w p s := rfl
@[simp] theorem exec_mchk (p : BitVec 3) (s : State) : exec (.mchk p) s = execMchk p s := rfl
@[simp] theorem exec_mloc (p : BitVec 3) (s : State) : exec (.mloc p) s = execMloc p s := rfl
@[simp] theorem exec_mfix (p : BitVec 3) (s : State) : exec (.mfix p) s = execMfix p s := rfl
@[simp] theorem exec_mmpb (a : BitVec 5) (e : Bool) (p : BitVec 3) (s : State) : exec (.mmpb a e p) s = execMmpb a e p s := rfl
@[simp] theorem exec_mclr (r : BitVec 8) (c : BitVec 5) (p : BitVec 3) (s : State) : exec (.mclr r c p) s = execMclr r c p s := rfl
@[simp] theorem exec_vld (d : BitVec 5) (q : BitVec 4) (p : BitVec 3) (s : State) : exec (.vld d q p) s = execVld d q p s := rfl
@[simp] theorem exec_vst (v : BitVec 5) (q : BitVec 4) (e : Bool) (p : BitVec 3) (s : State) : exec (.vst v q e p) s = execVst v q e p s := rfl
@[simp] theorem exec_vlda (d : BitVec 5) (a : BitVec 5) (e : Bool) (q : Bool) (o : BitVec 10) (p : BitVec 3) (s : State) : exec (.vlda d a e q o p) s = execVlda d a e q o p s := rfl
@[simp] theorem exec_vsta (v : BitVec 5) (a : BitVec 5) (e : Bool) (f : Bool) (q : Bool) (o : BitVec 10) (p : BitVec 3) (s : State) : exec (.vsta v a e f q o p) s = execVsta v a e f q o p s := rfl
@[simp] theorem exec_lds (d : BitVec 5) (a : BitVec 5) (e : Bool) (q : Bool) (z : BitVec 2) (g : Bool) (o : BitVec 7) (p : BitVec 3) (s : State) : exec (.lds d a e q z g o p) s = execLds d a e q z g o p s := rfl
@[simp] theorem exec_sts (v : BitVec 5) (a : BitVec 5) (e : Bool) (f : Bool) (q : Bool) (z : BitVec 2) (o : BitVec 7) (p : BitVec 3) (s : State) : exec (.sts v a e f q z o p) s = execSts v a e f q z o p s := rfl
@[simp] theorem exec_acst (r : BitVec 8) (q : BitVec 4) (a : BitVec 5) (e : Bool) (p : BitVec 3) (s : State) : exec (.acst r q a e p) s = execAcst r q a e p s := rfl
@[simp] theorem exec_acld (r : BitVec 8) (q : BitVec 4) (a : BitVec 5) (e : Bool) (p : BitVec 3) (s : State) : exec (.acld r q a e p) s = execAcld r q a e p s := rfl
@[simp] theorem exec_stcfg (q : BitVec 4) (a : BitVec 5) (e : Bool) (o : BitVec 10) (p : BitVec 3) (s : State) : exec (.stcfg q a e o p) s = execStcfg q a e o p s := rfl
@[simp] theorem exec_stget (d : BitVec 5) (q : BitVec 4) (l : BitVec 3) (p : BitVec 3) (s : State) : exec (.stget d q l p) s = execStget d q l p s := rfl
@[simp] theorem exec_stset (v : BitVec 5) (q : BitVec 4) (e : Bool) (l : BitVec 3) (p : BitVec 3) (s : State) : exec (.stset v q e l p) s = execStset v q e l p s := rfl
@[simp] theorem exec_stadv (q : BitVec 4) (l : BitVec 3) (p : BitVec 3) (s : State) : exec (.stadv q l p) s = execStadv q l p s := rfl
@[simp] theorem exec_rpop (o : BitVec 3) (p : BitVec 3) (s : State) : exec (.rpop o p) s = execRpop o p s := rfl
@[simp] theorem exec_xrd (d : BitVec 5) (a : BitVec 5) (e : Bool) (o : BitVec 10) (p : BitVec 3) (s : State) : exec (.xrd d a e o p) s = execXrd d a e o p s := rfl
@[simp] theorem exec_cpy (a : BitVec 5) (e : Bool) (o : BitVec 9) (p : BitVec 3) (s : State) : exec (.cpy a e o p) s = execCpy a e o p s := rfl
@[simp] theorem exec_sca (a : BitVec 5) (e : Bool) (o : BitVec 9) (p : BitVec 3) (s : State) : exec (.sca a e o p) s = execSca a e o p s := rfl
@[simp] theorem exec_tsend (t : BitVec 5) (a : BitVec 5) (e : Bool) (b : BitVec 5) (f : Bool) (o : BitVec 3) (p : BitVec 3) (s : State) : exec (.tsend t a e b f o p) s = execTsend t a e b f o p s := rfl
@[simp] theorem exec_tktg (d : BitVec 5) (o : BitVec 3) (p : BitVec 3) (s : State) : exec (.tktg d o p) s = execTktg d o p s := rfl
@[simp] theorem exec_fld (a : BitVec 5) (e : Bool) (o : BitVec 9) (p : BitVec 3) (s : State) : exec (.fld a e o p) s = execFld a e o p s := rfl
@[simp] theorem exec_fst (a : BitVec 5) (e : Bool) (o : BitVec 9) (p : BitVec 3) (s : State) : exec (.fst a e o p) s = execFst a e o p s := rfl
@[simp] theorem exec_fatm (a : BitVec 5) (e : Bool) (o : BitVec 9) (p : BitVec 3) (s : State) : exec (.fatm a e o p) s = execFatm a e o p s := rfl
@[simp] theorem exec_frep (a : BitVec 5) (e : Bool) (o : BitVec 9) (p : BitVec 3) (s : State) : exec (.frep a e o p) s = execFrep a e o p s := rfl
@[simp] theorem exec_bara (a : BitVec 5) (e : Bool) (r : Bool) (p : BitVec 3) (s : State) : exec (.bara a e r p) s = execBara a e r p s := rfl
@[simp] theorem exec_bari (a : BitVec 5) (e : Bool) (b : BitVec 5) (f : Bool) (p : BitVec 3) (s : State) : exec (.bari a e b f p) s = execBari a e b f p s := rfl
@[simp] theorem exec_pfxlk (a : BitVec 5) (e : Bool) (o : BitVec 9) (p : BitVec 3) (s : State) : exec (.pfxlk a e o p) s = execPfxlk a e o p s := rfl
@[simp] theorem exec_pfxin (a : BitVec 5) (e : Bool) (o : BitVec 9) (p : BitVec 3) (s : State) : exec (.pfxin a e o p) s = execPfxin a e o p s := rfl
@[simp] theorem exec_pfxref (a : BitVec 5) (e : Bool) (o : BitVec 9) (p : BitVec 3) (s : State) : exec (.pfxref a e o p) s = execPfxref a e o p s := rfl
@[simp] theorem exec_pfxapp (a : BitVec 5) (e : Bool) (o : BitVec 9) (p : BitVec 3) (s : State) : exec (.pfxapp a e o p) s = execPfxapp a e o p s := rfl
@[simp] theorem exec_pfxev (a : BitVec 5) (e : Bool) (o : BitVec 9) (p : BitVec 3) (s : State) : exec (.pfxev a e o p) s = execPfxev a e o p s := rfl
@[simp] theorem exec_kvmrg (a : BitVec 5) (e : Bool) (o : BitVec 9) (p : BitVec 3) (s : State) : exec (.kvmrg a e o p) s = execKvmrg a e o p s := rfl
@[simp] theorem exec_mark (p : BitVec 3) (s : State) : exec (.mark p) s = execMark p s := rfl
@[simp] theorem exec_jstat (d : BitVec 3) (a : BitVec 5) (e : Bool) (p : BitVec 3) (s : State) : exec (.jstat d a e p) s = execJstat d a e p s := rfl
@[simp] theorem exec_branchFetchComplete (k : Nat) (w : Who) (n : Nat) (s : State) : exec (.branchFetchComplete k w n) s = execBranchFetchComplete k w n s := rfl
@[simp] theorem exec_fixedResultDelivery (k : Nat) (w : Who) (s : State) : exec (.fixedResultDelivery k w) s = execFixedResultDelivery k w s := rfl
@[simp] theorem exec_longLatencyWriteback (k : Nat) (w : Who) (n : Nat) (s : State) : exec (.longLatencyWriteback k w n) s = execLongLatencyWriteback k w n s := rfl
@[simp] theorem exec_checkpointCommit (k : Nat) (c : Bool) (s : State) : exec (.checkpointCommit k c) s = execCheckpointCommit k c s := rfl
@[simp] theorem exec_withheldStorePerform (k : Nat) (c : Bool) (s : State) : exec (.withheldStorePerform k c) s = execWithheldStorePerform k c s := rfl
@[simp] theorem exec_rerunPairCompare (k : Nat) (c : Bool) (s : State) : exec (.rerunPairCompare k c) s = execRerunPairCompare k c s := rfl
@[simp] theorem exec_queueEntry (k : Nat) (s : State) : exec (.queueEntry k) s = execQueueEntry k s := rfl
@[simp] theorem exec_arbiterDecide (k : Nat) (s : State) : exec (.arbiterDecide k) s = execArbiterDecide k s := rfl
@[simp] theorem exec_candidateStarving (k : Nat) (c : Bool) (s : State) : exec (.candidateStarving k c) s = execCandidateStarving k c s := rfl
@[simp] theorem exec_preempt (k : Nat) (s : State) : exec (.preempt k) s = execPreempt k s := rfl
@[simp] theorem exec_budgetExpiry (k : Nat) (s : State) : exec (.budgetExpiry k) s = execBudgetExpiry k s := rfl
@[simp] theorem exec_handover (k : Nat) (s : State) : exec (.handover k) s = execHandover k s := rfl
@[simp] theorem exec_gangFiringOpen (n : Nat) (s : State) : exec (.gangFiringOpen n) s = execGangFiringOpen n s := rfl
@[simp] theorem exec_rngAnswer (k : Nat) (c : Bool) (s : State) : exec (.rngAnswer k c) s = execRngAnswer k c s := rfl
@[simp] theorem exec_tktgGrant (k : Nat) (c : Bool) (g : Option Nat) (r : Option PortAddr) (s : State) : exec (.tktgGrant k c g r) s = execTktgGrant k c g r s := rfl
@[simp] theorem exec_evpopRecordFill (k : Nat) (c : Bool) (s : State) : exec (.evpopRecordFill k c) s = execEvpopRecordFill k c s := rfl
@[simp] theorem exec_tokenFirstFlit (s : State) : exec (.tokenFirstFlit) s = execTokenFirstFlit s := rfl
@[simp] theorem exec_tokenContinuationFlit (s : State) : exec (.tokenContinuationFlit) s = execTokenContinuationFlit s := rfl
@[simp] theorem exec_creditReturn (m : Option (PortAddr × Nat)) (s : State) : exec (.creditReturn m) s = execCreditReturn m s := rfl
@[simp] theorem exec_headAdvanceNotice (m : Option (PortAddr × Nat)) (s : State) : exec (.headAdvanceNotice m) s = execHeadAdvanceNotice m s := rfl
@[simp] theorem exec_cfgdoneAction (k : Nat) (c : Bool) (s : State) : exec (.cfgdoneAction k c) s = execCfgdoneAction k c s := rfl
@[simp] theorem exec_markerAction (k : Nat) (c : Bool) (s : State) : exec (.markerAction k c) s = execMarkerAction k c s := rfl
@[simp] theorem exec_drainAction (k : Nat) (c : Bool) (s : State) : exec (.drainAction k c) s = execDrainAction k c s := rfl
@[simp] theorem exec_sourceHardwareMark (k : Nat) (c : Bool) (s : State) : exec (.sourceHardwareMark k c) s = execSourceHardwareMark k c s := rfl
@[simp] theorem exec_jobStart (k : Nat) (j : Nat) (s : State) : exec (.jobStart k j) s = execJobStart k j s := rfl
@[simp] theorem exec_jobComplete (k : Nat) (j : Nat) (s : State) : exec (.jobComplete k j) s = execJobComplete k j s := rfl
@[simp] theorem exec_mwldBeatLand (k : Nat) (s : State) : exec (.mwldBeatLand k) s = execMwldBeatLand k s := rfl
@[simp] theorem exec_caliperCompare (k : Nat) (c : Bool) (s : State) : exec (.caliperCompare k c) s = execCaliperCompare k c s := rfl
@[simp] theorem exec_pageWalk (k : Nat) (j : Nat) (s : State) : exec (.pageWalk k j) s = execPageWalk k j s := rfl
@[simp] theorem exec_writeRequest (s : State) : exec (.writeRequest) s = execWriteRequest s := rfl
@[simp] theorem exec_readRequest (s : State) : exec (.readRequest) s = execReadRequest s := rfl
@[simp] theorem exec_readReply (s : State) : exec (.readReply) s = execReadReply s := rfl
@[simp] theorem exec_atomicRequest (s : State) : exec (.atomicRequest) s = execAtomicRequest s := rfl
@[simp] theorem exec_atomicReply (s : State) : exec (.atomicReply) s = execAtomicReply s := rfl
@[simp] theorem exec_acknowledgement (s : State) : exec (.acknowledgement) s = execAcknowledgement s := rfl
@[simp] theorem exec_refusal (s : State) : exec (.refusal) s = execRefusal s := rfl
@[simp] theorem exec_prefixRequest (s : State) : exec (.prefixRequest) s = execPrefixRequest s := rfl
@[simp] theorem exec_prefixReply (s : State) : exec (.prefixReply) s = execPrefixReply s := rfl
@[simp] theorem exec_frameTransmit (l : Nat) (s : State) : exec (.frameTransmit l) s = execFrameTransmit l s := rfl
@[simp] theorem exec_linkFrameReceive (l : Nat) (f : Frame) (s : State) : exec (.linkFrameReceive l f) s = execLinkFrameReceive l f s := rfl
@[simp] theorem exec_linkRetryTimeout (l : Nat) (s : State) : exec (.linkRetryTimeout l) s = execLinkRetryTimeout l s := rfl
@[simp] theorem exec_lossOfSignal (l : Nat) (s : State) : exec (.lossOfSignal l) s = execLossOfSignal l s := rfl
@[simp] theorem exec_escapeTimeout (n : Nat) (s : State) : exec (.escapeTimeout n) s = execEscapeTimeout n s := rfl
@[simp] theorem exec_e2eResendTimeout (dchip : Nat) (lane : Nat) (seq : Nat) (s : State) : exec (.e2eResendTimeout dchip lane seq) s = execE2eResendTimeout dchip lane seq s := rfl
@[simp] theorem exec_heldSlotRelease (l : Nat) (row : Nat) (s : State) : exec (.heldSlotRelease l row) s = execHeldSlotRelease l row s := rfl
@[simp] theorem exec_slotTableSwitch (s : State) : exec (.slotTableSwitch) s = execSlotTableSwitch s := rfl
@[simp] theorem exec_linkTraining (peers : List TrainedLink) (s : State) : exec (.linkTraining peers) s = execLinkTraining peers s := rfl
@[simp] theorem exec_powerOn (ga : BitVec 12) (s : State) : exec (.powerOn ga) s = execPowerOn ga s := rfl
@[simp] theorem exec_marginPlan (k : Nat) (s : State) : exec (.marginPlan k) s = execMarginPlan k s := rfl
@[simp] theorem exec_powerLimit (watts : PowerReading) (s : State) : exec (.powerLimit watts) s = execPowerLimit watts s := rfl
@[simp] theorem exec_clockRestore (watts : PowerReading) (s : State) : exec (.clockRestore watts) s = execClockRestore watts s := rfl
@[simp] theorem exec_thermalLimit (t : Nat) (s : State) : exec (.thermalLimit t) s = execThermalLimit t s := rfl
@[simp] theorem exec_thermalShutdown (s : State) : exec (.thermalShutdown) s = execThermalShutdown s := rfl
@[simp] theorem exec_plinthFrameReceive (f : PlinthFrame) (s : State) : exec (.plinthFrameReceive f) s = execPlinthFrameReceive f s := rfl
@[simp] theorem exec_plinthRetransmitTimeout (ch : Nat) (s : State) : exec (.plinthRetransmitTimeout ch) s = execPlinthRetransmitTimeout ch s := rfl
@[simp] theorem exec_plinthAckTimer (ch : Nat) (s : State) : exec (.plinthAckTimer ch) s = execPlinthAckTimer ch s := rfl
@[simp] theorem exec_config (s : State) : exec (.config) s = execConfig s := rfl
@[simp] theorem exec_handle (s : State) : exec (.handle) s = execHandle s := rfl
@[simp] theorem exec_launchPrepare (s : State) : exec (.launchPrepare) s = execLaunchPrepare s := rfl
@[simp] theorem exec_prepareReport (s : State) : exec (.prepareReport) s = execPrepareReport s := rfl
@[simp] theorem exec_launchApply (s : State) : exec (.launchApply) s = execLaunchApply s := rfl
@[simp] theorem exec_launchAbort (s : State) : exec (.launchAbort) s = execLaunchAbort s := rfl
@[simp] theorem exec_readyReport (s : State) : exec (.readyReport) s = execReadyReport s := rfl
@[simp] theorem exec_vread (s : State) : exec (.vread) s = execVread s := rfl
@[simp] theorem exec_vwrite (s : State) : exec (.vwrite) s = execVwrite s := rfl
@[simp] theorem exec_inject (s : State) : exec (.inject) s = execInject s := rfl
@[simp] theorem exec_pagedata (s : State) : exec (.pagedata) s = execPagedata s := rfl
@[simp] theorem exec_result (s : State) : exec (.result) s = execResult s := rfl
@[simp] theorem exec_bootBegin (s : State) : exec (.bootBegin) s = execBootBegin s := rfl
@[simp] theorem exec_bootManifest (s : State) : exec (.bootManifest) s = execBootManifest s := rfl
@[simp] theorem exec_bootData (s : State) : exec (.bootData) s = execBootData s := rfl
@[simp] theorem exec_bootCfg (s : State) : exec (.bootCfg) s = execBootCfg s := rfl
@[simp] theorem exec_bootEnd (s : State) : exec (.bootEnd) s = execBootEnd s := rfl
@[simp] theorem exec_bootStatusReport (s : State) : exec (.bootStatusReport) s = execBootStatusReport s := rfl
@[simp] theorem exec_mgmtCreatePartition (s : State) : exec (.mgmtCreatePartition) s = execMgmtCreatePartition s := rfl
@[simp] theorem exec_mgmtDestroyPartition (s : State) : exec (.mgmtDestroyPartition) s = execMgmtDestroyPartition s := rfl
@[simp] theorem exec_mgmtOpenChannel (s : State) : exec (.mgmtOpenChannel) s = execMgmtOpenChannel s := rfl
@[simp] theorem exec_mgmtCloseChannel (s : State) : exec (.mgmtCloseChannel) s = execMgmtCloseChannel s := rfl
@[simp] theorem exec_mgmtRestartCurator (s : State) : exec (.mgmtRestartCurator) s = execMgmtRestartCurator s := rfl
@[simp] theorem exec_mgmtRetireCore (s : State) : exec (.mgmtRetireCore) s = execMgmtRetireCore s := rfl
@[simp] theorem exec_mgmtInstallStorageKey (s : State) : exec (.mgmtInstallStorageKey) s = execMgmtInstallStorageKey s := rfl
@[simp] theorem exec_mgmtAbortSegment (s : State) : exec (.mgmtAbortSegment) s = execMgmtAbortSegment s := rfl
@[simp] theorem exec_mgmtRollBackRegion (s : State) : exec (.mgmtRollBackRegion) s = execMgmtRollBackRegion s := rfl
@[simp] theorem exec_mgmtReplacePackage (s : State) : exec (.mgmtReplacePackage) s = execMgmtReplacePackage s := rfl
@[simp] theorem exec_mgmtWriteRouting (s : State) : exec (.mgmtWriteRouting) s = execMgmtWriteRouting s := rfl
@[simp] theorem exec_mgmtReadTelemetry (s : State) : exec (.mgmtReadTelemetry) s = execMgmtReadTelemetry s := rfl
@[simp] theorem exec_mgmtAbandonRegion (s : State) : exec (.mgmtAbandonRegion) s = execMgmtAbandonRegion s := rfl
@[simp] theorem exec_spdmVersion (s : State) : exec (.spdmVersion) s = execSpdmVersion s := rfl
@[simp] theorem exec_spdmCapabilities (s : State) : exec (.spdmCapabilities) s = execSpdmCapabilities s := rfl
@[simp] theorem exec_spdmAlgorithms (s : State) : exec (.spdmAlgorithms) s = execSpdmAlgorithms s := rfl
@[simp] theorem exec_spdmDigests (s : State) : exec (.spdmDigests) s = execSpdmDigests s := rfl
@[simp] theorem exec_spdmCertificate (s : State) : exec (.spdmCertificate) s = execSpdmCertificate s := rfl
@[simp] theorem exec_spdmChallenge (s : State) : exec (.spdmChallenge) s = execSpdmChallenge s := rfl
@[simp] theorem exec_spdmMeasurements (s : State) : exec (.spdmMeasurements) s = execSpdmMeasurements s := rfl
@[simp] theorem exec_spdmKeyExchange (s : State) : exec (.spdmKeyExchange) s = execSpdmKeyExchange s := rfl
@[simp] theorem exec_spdmFinish (s : State) : exec (.spdmFinish) s = execSpdmFinish s := rfl
@[simp] theorem exec_spdmKeyUpdate (s : State) : exec (.spdmKeyUpdate) s = execSpdmKeyUpdate s := rfl
@[simp] theorem exec_spdmEndSession (s : State) : exec (.spdmEndSession) s = execSpdmEndSession s := rfl
@[simp] theorem exec_hangPoll (part : Nat) (region : Nat) (others : List (Nat × Bool)) (s : State) : exec (.hangPoll part region others) s = execHangPoll part region others s := rfl
@[simp] theorem exec_stopWavePackage (s : State) : exec (.stopWavePackage) s = execStopWavePackage s := rfl
@[simp] theorem exec_stopReport (s : State) : exec (.stopReport) s = execStopReport s := rfl
@[simp] theorem exec_drainPoll (part : Nat) (region : Nat) (others : List DrainAns) (s : State) : exec (.drainPoll part region others) s = execDrainPoll part region others s := rfl
@[simp] theorem exec_regionError (s : State) : exec (.regionError) s = execRegionError s := rfl
@[simp] theorem exec_regionRollback (s : State) : exec (.regionRollback) s = execRegionRollback s := rfl
@[simp] theorem exec_markerWaveStart (part : Nat) (region : Nat) (s : State) : exec (.markerWaveStart part region) s = execMarkerWaveStart part region s := rfl
@[simp] theorem exec_sinkWaveReport (s : State) : exec (.sinkWaveReport) s = execSinkWaveReport s := rfl
@[simp] theorem exec_waveCompletionBroadcast (s : State) : exec (.waveCompletionBroadcast) s = execWaveCompletionBroadcast s := rfl
@[simp] theorem exec_linkDownReport (s : State) : exec (.linkDownReport) s = execLinkDownReport s := rfl
@[simp] theorem exec_illegal (slot : BitVec 3) (w : BitVec 32) (s : State) : exec (.illegal slot w) s = execIllegal slot w s := rfl
@[simp] theorem exec_softError (t : SoftTarget) (s : State) : exec (.softError t) s = execSoftError t s := rfl
@[simp] theorem exec_mmpbLoadDone (k : Nat) (c : Bool) (s : State) : exec (.mmpbLoadDone k c) s = execMmpbLoadDone k c s := rfl
@[simp] theorem exec_arrayInterlockExpiry (k : Nat) (c : Bool) (row : Option Nat) (s : State) : exec (.arrayInterlockExpiry k c row) s = execArrayInterlockExpiry k c row s := rfl
@[simp] theorem exec_arp (ip : BitVec 32) (s : State) : exec (.arp ip) s = execArp ip s := rfl
@[simp] theorem exec_neighbourDiscovery (ip : BitVec 128) (s : State) : exec (.neighbourDiscovery ip) s = execNeighbourDiscovery ip s := rfl
@[simp] theorem exec_boundaryScan (tms : Bool) (tdi : Bool) (s : State) : exec (.boundaryScan tms tdi) s = execBoundaryScan tms tdi s := rfl
@[simp] theorem exec_powerLoss (s : State) : exec (.powerLoss) s = execPowerLoss s := rfl

end Sys2Proof.Machine
end

