-- ==== Sys2Proof/Laws/State.lean ====
section
/-!
SUPPORT. What the named updates of the state leave alone: one lemma per field and update, and what a core reads as
after a write of a core.
-/
set_option Elab.async false
namespace Sys2Proof.Machine

/-! ### setCore -/

@[simp] theorem setCore_mem (s : State) (k : Nat) (c : Core) : (setCore s k c).mem = s.mem := rfl
@[simp] theorem setCore_chip (s : State) (k : Nat) (c : Core) : (setCore s k c).chip = s.chip := rfl
@[simp] theorem setCore_parts (s : State) (k : Nat) (c : Core) : (setCore s k c).parts = s.parts := rfl
@[simp] theorem setCore_cells (s : State) (k : Nat) (c : Core) : (setCore s k c).cells = s.cells := rfl
@[simp] theorem setCore_wcache (s : State) (k : Nat) (c : Core) : (setCore s k c).wcache = s.wcache := rfl
@[simp] theorem setCore_router (s : State) (k : Nat) (c : Core) : (setCore s k c).router = s.router := rfl
@[simp] theorem setCore_engines (s : State) (k : Nat) (c : Core) : (setCore s k c).engines = s.engines := rfl
@[simp] theorem setCore_regions (s : State) (k : Nat) (c : Core) : (setCore s k c).regions = s.regions := rfl
@[simp] theorem setCore_launches (s : State) (k : Nat) (c : Core) : (setCore s k c).launches = s.launches := rfl
@[simp] theorem setCore_tree (s : State) (k : Nat) (c : Core) : (setCore s k c).tree = s.tree := rfl
@[simp] theorem setCore_ctlIn (s : State) (k : Nat) (c : Core) : (setCore s k c).ctlIn = s.ctlIn := rfl
@[simp] theorem setCore_ctlOut (s : State) (k : Nat) (c : Core) : (setCore s k c).ctlOut = s.ctlOut := rfl
@[simp] theorem setCore_ctlSent (s : State) (k : Nat) (c : Core) : (setCore s k c).ctlSent = s.ctlSent := rfl
@[simp] theorem setCore_ctlFrags (s : State) (k : Nat) (c : Core) : (setCore s k c).ctlFrags = s.ctlFrags := rfl
@[simp] theorem setCore_boot (s : State) (k : Nat) (c : Core) : (setCore s k c).boot = s.boot := rfl
@[simp] theorem setCore_ends (s : State) (k : Nat) (c : Core) : (setCore s k c).ends = s.ends := rfl
@[simp] theorem setCore_bases (s : State) (k : Nat) (c : Core) : (setCore s k c).bases = s.bases := rfl
@[simp] theorem setCore_bootIn (s : State) (k : Nat) (c : Core) : (setCore s k c).bootIn = s.bootIn := rfl
@[simp] theorem setCore_bootFrags (s : State) (k : Nat) (c : Core) : (setCore s k c).bootFrags = s.bootFrags := rfl
@[simp] theorem setCore_channels (s : State) (k : Nat) (c : Core) : (setCore s k c).channels = s.channels := rfl
@[simp] theorem setCore_hostIn (s : State) (k : Nat) (c : Core) : (setCore s k c).hostIn = s.hostIn := rfl
@[simp] theorem setCore_hostOut (s : State) (k : Nat) (c : Core) : (setCore s k c).hostOut = s.hostOut := rfl
@[simp] theorem setCore_wire (s : State) (k : Nat) (c : Core) : (setCore s k c).wire = s.wire := rfl
@[simp] theorem setCore_strays (s : State) (k : Nat) (c : Core) : (setCore s k c).strays = s.strays := rfl
@[simp] theorem setCore_fwd (s : State) (k : Nat) (c : Core) : (setCore s k c).fwd = s.fwd := rfl
@[simp] theorem setCore_accs (s : State) (k : Nat) (c : Core) : (setCore s k c).accs = s.accs := rfl
@[simp] theorem setCore_pages (s : State) (k : Nat) (c : Core) : (setCore s k c).pages = s.pages := rfl
@[simp] theorem setCore_spdm (s : State) (k : Nat) (c : Core) : (setCore s k c).spdm = s.spdm := rfl
@[simp] theorem setCore_ips (s : State) (k : Nat) (c : Core) : (setCore s k c).ips = s.ips := rfl
@[simp] theorem setCore_ip6s (s : State) (k : Nat) (c : Core) : (setCore s k c).ip6s = s.ip6s := rfl
@[simp] theorem setCore_net (s : State) (k : Nat) (c : Core) : (setCore s k c).net = s.net := rfl
@[simp] theorem setCore_power (s : State) (k : Nat) (c : Core) : (setCore s k c).power = s.power := rfl
@[simp] theorem setCore_flips (s : State) (k : Nat) (c : Core) : (setCore s k c).flips = s.flips := rfl
@[simp] theorem setCore_parity (s : State) (k : Nat) (c : Core) : (setCore s k c).parity = s.parity := rfl
@[simp] theorem setCore_corrected (s : State) (k : Nat) (c : Core) : (setCore s k c).corrected = s.corrected := rfl
@[simp] theorem setCore_halted (s : State) (k : Nat) (c : Core) : (setCore s k c).halted = s.halted := rfl
@[simp] theorem setCore_clock (s : State) (k : Nat) (c : Core) : (setCore s k c).clock = s.clock := rfl
@[simp] theorem setCore_agenda (s : State) (k : Nat) (c : Core) : (setCore s k c).agenda = s.agenda := rfl
@[simp] theorem setCore_counter (s : State) (k : Nat) (c : Core) : (setCore s k c).counter = s.counter := rfl
@[simp] theorem setCore_cur (s : State) (k : Nat) (c : Core) : (setCore s k c).cur = s.cur := rfl
@[simp] theorem setCore_scr (s : State) (k : Nat) (c : Core) : (setCore s k c).scr = s.scr := rfl

/-! ### modCore -/

@[simp] theorem modCore_mem (s : State) (k : Nat) (f : Core → Core) : (modCore s k f).mem = s.mem := rfl
@[simp] theorem modCore_chip (s : State) (k : Nat) (f : Core → Core) : (modCore s k f).chip = s.chip := rfl
@[simp] theorem modCore_parts (s : State) (k : Nat) (f : Core → Core) : (modCore s k f).parts = s.parts := rfl
@[simp] theorem modCore_cells (s : State) (k : Nat) (f : Core → Core) : (modCore s k f).cells = s.cells := rfl
@[simp] theorem modCore_wcache (s : State) (k : Nat) (f : Core → Core) : (modCore s k f).wcache = s.wcache := rfl
@[simp] theorem modCore_router (s : State) (k : Nat) (f : Core → Core) : (modCore s k f).router = s.router := rfl
@[simp] theorem modCore_engines (s : State) (k : Nat) (f : Core → Core) : (modCore s k f).engines = s.engines := rfl
@[simp] theorem modCore_regions (s : State) (k : Nat) (f : Core → Core) : (modCore s k f).regions = s.regions := rfl
@[simp] theorem modCore_launches (s : State) (k : Nat) (f : Core → Core) : (modCore s k f).launches = s.launches := rfl
@[simp] theorem modCore_tree (s : State) (k : Nat) (f : Core → Core) : (modCore s k f).tree = s.tree := rfl
@[simp] theorem modCore_ctlIn (s : State) (k : Nat) (f : Core → Core) : (modCore s k f).ctlIn = s.ctlIn := rfl
@[simp] theorem modCore_ctlOut (s : State) (k : Nat) (f : Core → Core) : (modCore s k f).ctlOut = s.ctlOut := rfl
@[simp] theorem modCore_ctlSent (s : State) (k : Nat) (f : Core → Core) : (modCore s k f).ctlSent = s.ctlSent := rfl
@[simp] theorem modCore_ctlFrags (s : State) (k : Nat) (f : Core → Core) : (modCore s k f).ctlFrags = s.ctlFrags := rfl
@[simp] theorem modCore_boot (s : State) (k : Nat) (f : Core → Core) : (modCore s k f).boot = s.boot := rfl
@[simp] theorem modCore_ends (s : State) (k : Nat) (f : Core → Core) : (modCore s k f).ends = s.ends := rfl
@[simp] theorem modCore_bases (s : State) (k : Nat) (f : Core → Core) : (modCore s k f).bases = s.bases := rfl
@[simp] theorem modCore_bootIn (s : State) (k : Nat) (f : Core → Core) : (modCore s k f).bootIn = s.bootIn := rfl
@[simp] theorem modCore_bootFrags (s : State) (k : Nat) (f : Core → Core) : (modCore s k f).bootFrags = s.bootFrags := rfl
@[simp] theorem modCore_channels (s : State) (k : Nat) (f : Core → Core) : (modCore s k f).channels = s.channels := rfl
@[simp] theorem modCore_hostIn (s : State) (k : Nat) (f : Core → Core) : (modCore s k f).hostIn = s.hostIn := rfl
@[simp] theorem modCore_hostOut (s : State) (k : Nat) (f : Core → Core) : (modCore s k f).hostOut = s.hostOut := rfl
@[simp] theorem modCore_wire (s : State) (k : Nat) (f : Core → Core) : (modCore s k f).wire = s.wire := rfl
@[simp] theorem modCore_strays (s : State) (k : Nat) (f : Core → Core) : (modCore s k f).strays = s.strays := rfl
@[simp] theorem modCore_fwd (s : State) (k : Nat) (f : Core → Core) : (modCore s k f).fwd = s.fwd := rfl
@[simp] theorem modCore_accs (s : State) (k : Nat) (f : Core → Core) : (modCore s k f).accs = s.accs := rfl
@[simp] theorem modCore_pages (s : State) (k : Nat) (f : Core → Core) : (modCore s k f).pages = s.pages := rfl
@[simp] theorem modCore_spdm (s : State) (k : Nat) (f : Core → Core) : (modCore s k f).spdm = s.spdm := rfl
@[simp] theorem modCore_ips (s : State) (k : Nat) (f : Core → Core) : (modCore s k f).ips = s.ips := rfl
@[simp] theorem modCore_ip6s (s : State) (k : Nat) (f : Core → Core) : (modCore s k f).ip6s = s.ip6s := rfl
@[simp] theorem modCore_net (s : State) (k : Nat) (f : Core → Core) : (modCore s k f).net = s.net := rfl
@[simp] theorem modCore_power (s : State) (k : Nat) (f : Core → Core) : (modCore s k f).power = s.power := rfl
@[simp] theorem modCore_flips (s : State) (k : Nat) (f : Core → Core) : (modCore s k f).flips = s.flips := rfl
@[simp] theorem modCore_parity (s : State) (k : Nat) (f : Core → Core) : (modCore s k f).parity = s.parity := rfl
@[simp] theorem modCore_corrected (s : State) (k : Nat) (f : Core → Core) : (modCore s k f).corrected = s.corrected := rfl
@[simp] theorem modCore_halted (s : State) (k : Nat) (f : Core → Core) : (modCore s k f).halted = s.halted := rfl
@[simp] theorem modCore_clock (s : State) (k : Nat) (f : Core → Core) : (modCore s k f).clock = s.clock := rfl
@[simp] theorem modCore_agenda (s : State) (k : Nat) (f : Core → Core) : (modCore s k f).agenda = s.agenda := rfl
@[simp] theorem modCore_counter (s : State) (k : Nat) (f : Core → Core) : (modCore s k f).counter = s.counter := rfl
@[simp] theorem modCore_cur (s : State) (k : Nat) (f : Core → Core) : (modCore s k f).cur = s.cur := rfl
@[simp] theorem modCore_scr (s : State) (k : Nat) (f : Core → Core) : (modCore s k f).scr = s.scr := rfl

/-! ### modCtxAt -/

@[simp] theorem modCtxAt_mem (s : State) (k : Nat) (b : Bool) (f : Context → Context) : (modCtxAt s k b f).mem = s.mem := rfl
@[simp] theorem modCtxAt_chip (s : State) (k : Nat) (b : Bool) (f : Context → Context) : (modCtxAt s k b f).chip = s.chip := rfl
@[simp] theorem modCtxAt_parts (s : State) (k : Nat) (b : Bool) (f : Context → Context) : (modCtxAt s k b f).parts = s.parts := rfl
@[simp] theorem modCtxAt_cells (s : State) (k : Nat) (b : Bool) (f : Context → Context) : (modCtxAt s k b f).cells = s.cells := rfl
@[simp] theorem modCtxAt_wcache (s : State) (k : Nat) (b : Bool) (f : Context → Context) : (modCtxAt s k b f).wcache = s.wcache := rfl
@[simp] theorem modCtxAt_router (s : State) (k : Nat) (b : Bool) (f : Context → Context) : (modCtxAt s k b f).router = s.router := rfl
@[simp] theorem modCtxAt_engines (s : State) (k : Nat) (b : Bool) (f : Context → Context) : (modCtxAt s k b f).engines = s.engines := rfl
@[simp] theorem modCtxAt_regions (s : State) (k : Nat) (b : Bool) (f : Context → Context) : (modCtxAt s k b f).regions = s.regions := rfl
@[simp] theorem modCtxAt_launches (s : State) (k : Nat) (b : Bool) (f : Context → Context) : (modCtxAt s k b f).launches = s.launches := rfl
@[simp] theorem modCtxAt_tree (s : State) (k : Nat) (b : Bool) (f : Context → Context) : (modCtxAt s k b f).tree = s.tree := rfl
@[simp] theorem modCtxAt_ctlIn (s : State) (k : Nat) (b : Bool) (f : Context → Context) : (modCtxAt s k b f).ctlIn = s.ctlIn := rfl
@[simp] theorem modCtxAt_ctlOut (s : State) (k : Nat) (b : Bool) (f : Context → Context) : (modCtxAt s k b f).ctlOut = s.ctlOut := rfl
@[simp] theorem modCtxAt_ctlSent (s : State) (k : Nat) (b : Bool) (f : Context → Context) : (modCtxAt s k b f).ctlSent = s.ctlSent := rfl
@[simp] theorem modCtxAt_ctlFrags (s : State) (k : Nat) (b : Bool) (f : Context → Context) : (modCtxAt s k b f).ctlFrags = s.ctlFrags := rfl
@[simp] theorem modCtxAt_boot (s : State) (k : Nat) (b : Bool) (f : Context → Context) : (modCtxAt s k b f).boot = s.boot := rfl
@[simp] theorem modCtxAt_ends (s : State) (k : Nat) (b : Bool) (f : Context → Context) : (modCtxAt s k b f).ends = s.ends := rfl
@[simp] theorem modCtxAt_bases (s : State) (k : Nat) (b : Bool) (f : Context → Context) : (modCtxAt s k b f).bases = s.bases := rfl
@[simp] theorem modCtxAt_bootIn (s : State) (k : Nat) (b : Bool) (f : Context → Context) : (modCtxAt s k b f).bootIn = s.bootIn := rfl
@[simp] theorem modCtxAt_bootFrags (s : State) (k : Nat) (b : Bool) (f : Context → Context) : (modCtxAt s k b f).bootFrags = s.bootFrags := rfl
@[simp] theorem modCtxAt_channels (s : State) (k : Nat) (b : Bool) (f : Context → Context) : (modCtxAt s k b f).channels = s.channels := rfl
@[simp] theorem modCtxAt_hostIn (s : State) (k : Nat) (b : Bool) (f : Context → Context) : (modCtxAt s k b f).hostIn = s.hostIn := rfl
@[simp] theorem modCtxAt_hostOut (s : State) (k : Nat) (b : Bool) (f : Context → Context) : (modCtxAt s k b f).hostOut = s.hostOut := rfl
@[simp] theorem modCtxAt_wire (s : State) (k : Nat) (b : Bool) (f : Context → Context) : (modCtxAt s k b f).wire = s.wire := rfl
@[simp] theorem modCtxAt_strays (s : State) (k : Nat) (b : Bool) (f : Context → Context) : (modCtxAt s k b f).strays = s.strays := rfl
@[simp] theorem modCtxAt_fwd (s : State) (k : Nat) (b : Bool) (f : Context → Context) : (modCtxAt s k b f).fwd = s.fwd := rfl
@[simp] theorem modCtxAt_accs (s : State) (k : Nat) (b : Bool) (f : Context → Context) : (modCtxAt s k b f).accs = s.accs := rfl
@[simp] theorem modCtxAt_pages (s : State) (k : Nat) (b : Bool) (f : Context → Context) : (modCtxAt s k b f).pages = s.pages := rfl
@[simp] theorem modCtxAt_spdm (s : State) (k : Nat) (b : Bool) (f : Context → Context) : (modCtxAt s k b f).spdm = s.spdm := rfl
@[simp] theorem modCtxAt_ips (s : State) (k : Nat) (b : Bool) (f : Context → Context) : (modCtxAt s k b f).ips = s.ips := rfl
@[simp] theorem modCtxAt_ip6s (s : State) (k : Nat) (b : Bool) (f : Context → Context) : (modCtxAt s k b f).ip6s = s.ip6s := rfl
@[simp] theorem modCtxAt_net (s : State) (k : Nat) (b : Bool) (f : Context → Context) : (modCtxAt s k b f).net = s.net := rfl
@[simp] theorem modCtxAt_power (s : State) (k : Nat) (b : Bool) (f : Context → Context) : (modCtxAt s k b f).power = s.power := rfl
@[simp] theorem modCtxAt_flips (s : State) (k : Nat) (b : Bool) (f : Context → Context) : (modCtxAt s k b f).flips = s.flips := rfl
@[simp] theorem modCtxAt_parity (s : State) (k : Nat) (b : Bool) (f : Context → Context) : (modCtxAt s k b f).parity = s.parity := rfl
@[simp] theorem modCtxAt_corrected (s : State) (k : Nat) (b : Bool) (f : Context → Context) : (modCtxAt s k b f).corrected = s.corrected := rfl
@[simp] theorem modCtxAt_halted (s : State) (k : Nat) (b : Bool) (f : Context → Context) : (modCtxAt s k b f).halted = s.halted := rfl
@[simp] theorem modCtxAt_clock (s : State) (k : Nat) (b : Bool) (f : Context → Context) : (modCtxAt s k b f).clock = s.clock := rfl
@[simp] theorem modCtxAt_agenda (s : State) (k : Nat) (b : Bool) (f : Context → Context) : (modCtxAt s k b f).agenda = s.agenda := rfl
@[simp] theorem modCtxAt_counter (s : State) (k : Nat) (b : Bool) (f : Context → Context) : (modCtxAt s k b f).counter = s.counter := rfl
@[simp] theorem modCtxAt_cur (s : State) (k : Nat) (b : Bool) (f : Context → Context) : (modCtxAt s k b f).cur = s.cur := rfl
@[simp] theorem modCtxAt_scr (s : State) (k : Nat) (b : Bool) (f : Context → Context) : (modCtxAt s k b f).scr = s.scr := rfl

/-! ### modRegsAt -/

@[simp] theorem modRegsAt_mem (s : State) (k : Nat) (w : Who) (f : Regs → Regs) : (modRegsAt s k w f).mem = s.mem := rfl
@[simp] theorem modRegsAt_chip (s : State) (k : Nat) (w : Who) (f : Regs → Regs) : (modRegsAt s k w f).chip = s.chip := rfl
@[simp] theorem modRegsAt_parts (s : State) (k : Nat) (w : Who) (f : Regs → Regs) : (modRegsAt s k w f).parts = s.parts := rfl
@[simp] theorem modRegsAt_cells (s : State) (k : Nat) (w : Who) (f : Regs → Regs) : (modRegsAt s k w f).cells = s.cells := rfl
@[simp] theorem modRegsAt_wcache (s : State) (k : Nat) (w : Who) (f : Regs → Regs) : (modRegsAt s k w f).wcache = s.wcache := rfl
@[simp] theorem modRegsAt_router (s : State) (k : Nat) (w : Who) (f : Regs → Regs) : (modRegsAt s k w f).router = s.router := rfl
@[simp] theorem modRegsAt_engines (s : State) (k : Nat) (w : Who) (f : Regs → Regs) : (modRegsAt s k w f).engines = s.engines := rfl
@[simp] theorem modRegsAt_regions (s : State) (k : Nat) (w : Who) (f : Regs → Regs) : (modRegsAt s k w f).regions = s.regions := rfl
@[simp] theorem modRegsAt_launches (s : State) (k : Nat) (w : Who) (f : Regs → Regs) : (modRegsAt s k w f).launches = s.launches := rfl
@[simp] theorem modRegsAt_tree (s : State) (k : Nat) (w : Who) (f : Regs → Regs) : (modRegsAt s k w f).tree = s.tree := rfl
@[simp] theorem modRegsAt_ctlIn (s : State) (k : Nat) (w : Who) (f : Regs → Regs) : (modRegsAt s k w f).ctlIn = s.ctlIn := rfl
@[simp] theorem modRegsAt_ctlOut (s : State) (k : Nat) (w : Who) (f : Regs → Regs) : (modRegsAt s k w f).ctlOut = s.ctlOut := rfl
@[simp] theorem modRegsAt_ctlSent (s : State) (k : Nat) (w : Who) (f : Regs → Regs) : (modRegsAt s k w f).ctlSent = s.ctlSent := rfl
@[simp] theorem modRegsAt_ctlFrags (s : State) (k : Nat) (w : Who) (f : Regs → Regs) : (modRegsAt s k w f).ctlFrags = s.ctlFrags := rfl
@[simp] theorem modRegsAt_boot (s : State) (k : Nat) (w : Who) (f : Regs → Regs) : (modRegsAt s k w f).boot = s.boot := rfl
@[simp] theorem modRegsAt_ends (s : State) (k : Nat) (w : Who) (f : Regs → Regs) : (modRegsAt s k w f).ends = s.ends := rfl
@[simp] theorem modRegsAt_bases (s : State) (k : Nat) (w : Who) (f : Regs → Regs) : (modRegsAt s k w f).bases = s.bases := rfl
@[simp] theorem modRegsAt_bootIn (s : State) (k : Nat) (w : Who) (f : Regs → Regs) : (modRegsAt s k w f).bootIn = s.bootIn := rfl
@[simp] theorem modRegsAt_bootFrags (s : State) (k : Nat) (w : Who) (f : Regs → Regs) : (modRegsAt s k w f).bootFrags = s.bootFrags := rfl
@[simp] theorem modRegsAt_channels (s : State) (k : Nat) (w : Who) (f : Regs → Regs) : (modRegsAt s k w f).channels = s.channels := rfl
@[simp] theorem modRegsAt_hostIn (s : State) (k : Nat) (w : Who) (f : Regs → Regs) : (modRegsAt s k w f).hostIn = s.hostIn := rfl
@[simp] theorem modRegsAt_hostOut (s : State) (k : Nat) (w : Who) (f : Regs → Regs) : (modRegsAt s k w f).hostOut = s.hostOut := rfl
@[simp] theorem modRegsAt_wire (s : State) (k : Nat) (w : Who) (f : Regs → Regs) : (modRegsAt s k w f).wire = s.wire := rfl
@[simp] theorem modRegsAt_strays (s : State) (k : Nat) (w : Who) (f : Regs → Regs) : (modRegsAt s k w f).strays = s.strays := rfl
@[simp] theorem modRegsAt_fwd (s : State) (k : Nat) (w : Who) (f : Regs → Regs) : (modRegsAt s k w f).fwd = s.fwd := rfl
@[simp] theorem modRegsAt_accs (s : State) (k : Nat) (w : Who) (f : Regs → Regs) : (modRegsAt s k w f).accs = s.accs := rfl
@[simp] theorem modRegsAt_pages (s : State) (k : Nat) (w : Who) (f : Regs → Regs) : (modRegsAt s k w f).pages = s.pages := rfl
@[simp] theorem modRegsAt_spdm (s : State) (k : Nat) (w : Who) (f : Regs → Regs) : (modRegsAt s k w f).spdm = s.spdm := rfl
@[simp] theorem modRegsAt_ips (s : State) (k : Nat) (w : Who) (f : Regs → Regs) : (modRegsAt s k w f).ips = s.ips := rfl
@[simp] theorem modRegsAt_ip6s (s : State) (k : Nat) (w : Who) (f : Regs → Regs) : (modRegsAt s k w f).ip6s = s.ip6s := rfl
@[simp] theorem modRegsAt_net (s : State) (k : Nat) (w : Who) (f : Regs → Regs) : (modRegsAt s k w f).net = s.net := rfl
@[simp] theorem modRegsAt_power (s : State) (k : Nat) (w : Who) (f : Regs → Regs) : (modRegsAt s k w f).power = s.power := rfl
@[simp] theorem modRegsAt_flips (s : State) (k : Nat) (w : Who) (f : Regs → Regs) : (modRegsAt s k w f).flips = s.flips := rfl
@[simp] theorem modRegsAt_parity (s : State) (k : Nat) (w : Who) (f : Regs → Regs) : (modRegsAt s k w f).parity = s.parity := rfl
@[simp] theorem modRegsAt_corrected (s : State) (k : Nat) (w : Who) (f : Regs → Regs) : (modRegsAt s k w f).corrected = s.corrected := rfl
@[simp] theorem modRegsAt_halted (s : State) (k : Nat) (w : Who) (f : Regs → Regs) : (modRegsAt s k w f).halted = s.halted := rfl
@[simp] theorem modRegsAt_clock (s : State) (k : Nat) (w : Who) (f : Regs → Regs) : (modRegsAt s k w f).clock = s.clock := rfl
@[simp] theorem modRegsAt_agenda (s : State) (k : Nat) (w : Who) (f : Regs → Regs) : (modRegsAt s k w f).agenda = s.agenda := rfl
@[simp] theorem modRegsAt_counter (s : State) (k : Nat) (w : Who) (f : Regs → Regs) : (modRegsAt s k w f).counter = s.counter := rfl
@[simp] theorem modRegsAt_cur (s : State) (k : Nat) (w : Who) (f : Regs → Regs) : (modRegsAt s k w f).cur = s.cur := rfl
@[simp] theorem modRegsAt_scr (s : State) (k : Nat) (w : Who) (f : Regs → Regs) : (modRegsAt s k w f).scr = s.scr := rfl

/-! ### modAct -/

@[simp] theorem modAct_mem (s : State) (f : Regs → Regs) : (modAct s f).mem = s.mem := rfl
@[simp] theorem modAct_chip (s : State) (f : Regs → Regs) : (modAct s f).chip = s.chip := rfl
@[simp] theorem modAct_parts (s : State) (f : Regs → Regs) : (modAct s f).parts = s.parts := rfl
@[simp] theorem modAct_cells (s : State) (f : Regs → Regs) : (modAct s f).cells = s.cells := rfl
@[simp] theorem modAct_wcache (s : State) (f : Regs → Regs) : (modAct s f).wcache = s.wcache := rfl
@[simp] theorem modAct_router (s : State) (f : Regs → Regs) : (modAct s f).router = s.router := rfl
@[simp] theorem modAct_engines (s : State) (f : Regs → Regs) : (modAct s f).engines = s.engines := rfl
@[simp] theorem modAct_regions (s : State) (f : Regs → Regs) : (modAct s f).regions = s.regions := rfl
@[simp] theorem modAct_launches (s : State) (f : Regs → Regs) : (modAct s f).launches = s.launches := rfl
@[simp] theorem modAct_tree (s : State) (f : Regs → Regs) : (modAct s f).tree = s.tree := rfl
@[simp] theorem modAct_ctlIn (s : State) (f : Regs → Regs) : (modAct s f).ctlIn = s.ctlIn := rfl
@[simp] theorem modAct_ctlOut (s : State) (f : Regs → Regs) : (modAct s f).ctlOut = s.ctlOut := rfl
@[simp] theorem modAct_ctlSent (s : State) (f : Regs → Regs) : (modAct s f).ctlSent = s.ctlSent := rfl
@[simp] theorem modAct_ctlFrags (s : State) (f : Regs → Regs) : (modAct s f).ctlFrags = s.ctlFrags := rfl
@[simp] theorem modAct_boot (s : State) (f : Regs → Regs) : (modAct s f).boot = s.boot := rfl
@[simp] theorem modAct_ends (s : State) (f : Regs → Regs) : (modAct s f).ends = s.ends := rfl
@[simp] theorem modAct_bases (s : State) (f : Regs → Regs) : (modAct s f).bases = s.bases := rfl
@[simp] theorem modAct_bootIn (s : State) (f : Regs → Regs) : (modAct s f).bootIn = s.bootIn := rfl
@[simp] theorem modAct_bootFrags (s : State) (f : Regs → Regs) : (modAct s f).bootFrags = s.bootFrags := rfl
@[simp] theorem modAct_channels (s : State) (f : Regs → Regs) : (modAct s f).channels = s.channels := rfl
@[simp] theorem modAct_hostIn (s : State) (f : Regs → Regs) : (modAct s f).hostIn = s.hostIn := rfl
@[simp] theorem modAct_hostOut (s : State) (f : Regs → Regs) : (modAct s f).hostOut = s.hostOut := rfl
@[simp] theorem modAct_wire (s : State) (f : Regs → Regs) : (modAct s f).wire = s.wire := rfl
@[simp] theorem modAct_strays (s : State) (f : Regs → Regs) : (modAct s f).strays = s.strays := rfl
@[simp] theorem modAct_fwd (s : State) (f : Regs → Regs) : (modAct s f).fwd = s.fwd := rfl
@[simp] theorem modAct_accs (s : State) (f : Regs → Regs) : (modAct s f).accs = s.accs := rfl
@[simp] theorem modAct_pages (s : State) (f : Regs → Regs) : (modAct s f).pages = s.pages := rfl
@[simp] theorem modAct_spdm (s : State) (f : Regs → Regs) : (modAct s f).spdm = s.spdm := rfl
@[simp] theorem modAct_ips (s : State) (f : Regs → Regs) : (modAct s f).ips = s.ips := rfl
@[simp] theorem modAct_ip6s (s : State) (f : Regs → Regs) : (modAct s f).ip6s = s.ip6s := rfl
@[simp] theorem modAct_net (s : State) (f : Regs → Regs) : (modAct s f).net = s.net := rfl
@[simp] theorem modAct_power (s : State) (f : Regs → Regs) : (modAct s f).power = s.power := rfl
@[simp] theorem modAct_flips (s : State) (f : Regs → Regs) : (modAct s f).flips = s.flips := rfl
@[simp] theorem modAct_parity (s : State) (f : Regs → Regs) : (modAct s f).parity = s.parity := rfl
@[simp] theorem modAct_corrected (s : State) (f : Regs → Regs) : (modAct s f).corrected = s.corrected := rfl
@[simp] theorem modAct_halted (s : State) (f : Regs → Regs) : (modAct s f).halted = s.halted := rfl
@[simp] theorem modAct_clock (s : State) (f : Regs → Regs) : (modAct s f).clock = s.clock := rfl
@[simp] theorem modAct_agenda (s : State) (f : Regs → Regs) : (modAct s f).agenda = s.agenda := rfl
@[simp] theorem modAct_counter (s : State) (f : Regs → Regs) : (modAct s f).counter = s.counter := rfl
@[simp] theorem modAct_cur (s : State) (f : Regs → Regs) : (modAct s f).cur = s.cur := rfl
@[simp] theorem modAct_scr (s : State) (f : Regs → Regs) : (modAct s f).scr = s.scr := rfl

/-! ### modActCtx -/

@[simp] theorem modActCtx_mem (s : State) (f : Context → Context) : (modActCtx s f).mem = s.mem := rfl
@[simp] theorem modActCtx_chip (s : State) (f : Context → Context) : (modActCtx s f).chip = s.chip := rfl
@[simp] theorem modActCtx_parts (s : State) (f : Context → Context) : (modActCtx s f).parts = s.parts := rfl
@[simp] theorem modActCtx_cells (s : State) (f : Context → Context) : (modActCtx s f).cells = s.cells := rfl
@[simp] theorem modActCtx_wcache (s : State) (f : Context → Context) : (modActCtx s f).wcache = s.wcache := rfl
@[simp] theorem modActCtx_router (s : State) (f : Context → Context) : (modActCtx s f).router = s.router := rfl
@[simp] theorem modActCtx_engines (s : State) (f : Context → Context) : (modActCtx s f).engines = s.engines := rfl
@[simp] theorem modActCtx_regions (s : State) (f : Context → Context) : (modActCtx s f).regions = s.regions := rfl
@[simp] theorem modActCtx_launches (s : State) (f : Context → Context) : (modActCtx s f).launches = s.launches := rfl
@[simp] theorem modActCtx_tree (s : State) (f : Context → Context) : (modActCtx s f).tree = s.tree := rfl
@[simp] theorem modActCtx_ctlIn (s : State) (f : Context → Context) : (modActCtx s f).ctlIn = s.ctlIn := rfl
@[simp] theorem modActCtx_ctlOut (s : State) (f : Context → Context) : (modActCtx s f).ctlOut = s.ctlOut := rfl
@[simp] theorem modActCtx_ctlSent (s : State) (f : Context → Context) : (modActCtx s f).ctlSent = s.ctlSent := rfl
@[simp] theorem modActCtx_ctlFrags (s : State) (f : Context → Context) : (modActCtx s f).ctlFrags = s.ctlFrags := rfl
@[simp] theorem modActCtx_boot (s : State) (f : Context → Context) : (modActCtx s f).boot = s.boot := rfl
@[simp] theorem modActCtx_ends (s : State) (f : Context → Context) : (modActCtx s f).ends = s.ends := rfl
@[simp] theorem modActCtx_bases (s : State) (f : Context → Context) : (modActCtx s f).bases = s.bases := rfl
@[simp] theorem modActCtx_bootIn (s : State) (f : Context → Context) : (modActCtx s f).bootIn = s.bootIn := rfl
@[simp] theorem modActCtx_bootFrags (s : State) (f : Context → Context) : (modActCtx s f).bootFrags = s.bootFrags := rfl
@[simp] theorem modActCtx_channels (s : State) (f : Context → Context) : (modActCtx s f).channels = s.channels := rfl
@[simp] theorem modActCtx_hostIn (s : State) (f : Context → Context) : (modActCtx s f).hostIn = s.hostIn := rfl
@[simp] theorem modActCtx_hostOut (s : State) (f : Context → Context) : (modActCtx s f).hostOut = s.hostOut := rfl
@[simp] theorem modActCtx_wire (s : State) (f : Context → Context) : (modActCtx s f).wire = s.wire := rfl
@[simp] theorem modActCtx_strays (s : State) (f : Context → Context) : (modActCtx s f).strays = s.strays := rfl
@[simp] theorem modActCtx_fwd (s : State) (f : Context → Context) : (modActCtx s f).fwd = s.fwd := rfl
@[simp] theorem modActCtx_accs (s : State) (f : Context → Context) : (modActCtx s f).accs = s.accs := rfl
@[simp] theorem modActCtx_pages (s : State) (f : Context → Context) : (modActCtx s f).pages = s.pages := rfl
@[simp] theorem modActCtx_spdm (s : State) (f : Context → Context) : (modActCtx s f).spdm = s.spdm := rfl
@[simp] theorem modActCtx_ips (s : State) (f : Context → Context) : (modActCtx s f).ips = s.ips := rfl
@[simp] theorem modActCtx_ip6s (s : State) (f : Context → Context) : (modActCtx s f).ip6s = s.ip6s := rfl
@[simp] theorem modActCtx_net (s : State) (f : Context → Context) : (modActCtx s f).net = s.net := rfl
@[simp] theorem modActCtx_power (s : State) (f : Context → Context) : (modActCtx s f).power = s.power := rfl
@[simp] theorem modActCtx_flips (s : State) (f : Context → Context) : (modActCtx s f).flips = s.flips := rfl
@[simp] theorem modActCtx_parity (s : State) (f : Context → Context) : (modActCtx s f).parity = s.parity := rfl
@[simp] theorem modActCtx_corrected (s : State) (f : Context → Context) : (modActCtx s f).corrected = s.corrected := rfl
@[simp] theorem modActCtx_halted (s : State) (f : Context → Context) : (modActCtx s f).halted = s.halted := rfl
@[simp] theorem modActCtx_clock (s : State) (f : Context → Context) : (modActCtx s f).clock = s.clock := rfl
@[simp] theorem modActCtx_agenda (s : State) (f : Context → Context) : (modActCtx s f).agenda = s.agenda := rfl
@[simp] theorem modActCtx_counter (s : State) (f : Context → Context) : (modActCtx s f).counter = s.counter := rfl
@[simp] theorem modActCtx_cur (s : State) (f : Context → Context) : (modActCtx s f).cur = s.cur := rfl
@[simp] theorem modActCtx_scr (s : State) (f : Context → Context) : (modActCtx s f).scr = s.scr := rfl

/-! ### sendReg -/

@[simp] theorem sendReg_mem (s : State) (lat : Nat) (n : RegName) (v : Nat) : (sendReg s lat n v).mem = s.mem := rfl
@[simp] theorem sendReg_chip (s : State) (lat : Nat) (n : RegName) (v : Nat) : (sendReg s lat n v).chip = s.chip := rfl
@[simp] theorem sendReg_parts (s : State) (lat : Nat) (n : RegName) (v : Nat) : (sendReg s lat n v).parts = s.parts := rfl
@[simp] theorem sendReg_cells (s : State) (lat : Nat) (n : RegName) (v : Nat) : (sendReg s lat n v).cells = s.cells := rfl
@[simp] theorem sendReg_wcache (s : State) (lat : Nat) (n : RegName) (v : Nat) : (sendReg s lat n v).wcache = s.wcache := rfl
@[simp] theorem sendReg_router (s : State) (lat : Nat) (n : RegName) (v : Nat) : (sendReg s lat n v).router = s.router := rfl
@[simp] theorem sendReg_engines (s : State) (lat : Nat) (n : RegName) (v : Nat) : (sendReg s lat n v).engines = s.engines := rfl
@[simp] theorem sendReg_regions (s : State) (lat : Nat) (n : RegName) (v : Nat) : (sendReg s lat n v).regions = s.regions := rfl
@[simp] theorem sendReg_launches (s : State) (lat : Nat) (n : RegName) (v : Nat) : (sendReg s lat n v).launches = s.launches := rfl
@[simp] theorem sendReg_tree (s : State) (lat : Nat) (n : RegName) (v : Nat) : (sendReg s lat n v).tree = s.tree := rfl
@[simp] theorem sendReg_ctlIn (s : State) (lat : Nat) (n : RegName) (v : Nat) : (sendReg s lat n v).ctlIn = s.ctlIn := rfl
@[simp] theorem sendReg_ctlOut (s : State) (lat : Nat) (n : RegName) (v : Nat) : (sendReg s lat n v).ctlOut = s.ctlOut := rfl
@[simp] theorem sendReg_ctlSent (s : State) (lat : Nat) (n : RegName) (v : Nat) : (sendReg s lat n v).ctlSent = s.ctlSent := rfl
@[simp] theorem sendReg_ctlFrags (s : State) (lat : Nat) (n : RegName) (v : Nat) : (sendReg s lat n v).ctlFrags = s.ctlFrags := rfl
@[simp] theorem sendReg_boot (s : State) (lat : Nat) (n : RegName) (v : Nat) : (sendReg s lat n v).boot = s.boot := rfl
@[simp] theorem sendReg_ends (s : State) (lat : Nat) (n : RegName) (v : Nat) : (sendReg s lat n v).ends = s.ends := rfl
@[simp] theorem sendReg_bases (s : State) (lat : Nat) (n : RegName) (v : Nat) : (sendReg s lat n v).bases = s.bases := rfl
@[simp] theorem sendReg_bootIn (s : State) (lat : Nat) (n : RegName) (v : Nat) : (sendReg s lat n v).bootIn = s.bootIn := rfl
@[simp] theorem sendReg_bootFrags (s : State) (lat : Nat) (n : RegName) (v : Nat) : (sendReg s lat n v).bootFrags = s.bootFrags := rfl
@[simp] theorem sendReg_channels (s : State) (lat : Nat) (n : RegName) (v : Nat) : (sendReg s lat n v).channels = s.channels := rfl
@[simp] theorem sendReg_hostIn (s : State) (lat : Nat) (n : RegName) (v : Nat) : (sendReg s lat n v).hostIn = s.hostIn := rfl
@[simp] theorem sendReg_hostOut (s : State) (lat : Nat) (n : RegName) (v : Nat) : (sendReg s lat n v).hostOut = s.hostOut := rfl
@[simp] theorem sendReg_wire (s : State) (lat : Nat) (n : RegName) (v : Nat) : (sendReg s lat n v).wire = s.wire := rfl
@[simp] theorem sendReg_strays (s : State) (lat : Nat) (n : RegName) (v : Nat) : (sendReg s lat n v).strays = s.strays := rfl
@[simp] theorem sendReg_fwd (s : State) (lat : Nat) (n : RegName) (v : Nat) : (sendReg s lat n v).fwd = s.fwd := rfl
@[simp] theorem sendReg_accs (s : State) (lat : Nat) (n : RegName) (v : Nat) : (sendReg s lat n v).accs = s.accs := rfl
@[simp] theorem sendReg_pages (s : State) (lat : Nat) (n : RegName) (v : Nat) : (sendReg s lat n v).pages = s.pages := rfl
@[simp] theorem sendReg_spdm (s : State) (lat : Nat) (n : RegName) (v : Nat) : (sendReg s lat n v).spdm = s.spdm := rfl
@[simp] theorem sendReg_ips (s : State) (lat : Nat) (n : RegName) (v : Nat) : (sendReg s lat n v).ips = s.ips := rfl
@[simp] theorem sendReg_ip6s (s : State) (lat : Nat) (n : RegName) (v : Nat) : (sendReg s lat n v).ip6s = s.ip6s := rfl
@[simp] theorem sendReg_net (s : State) (lat : Nat) (n : RegName) (v : Nat) : (sendReg s lat n v).net = s.net := rfl
@[simp] theorem sendReg_power (s : State) (lat : Nat) (n : RegName) (v : Nat) : (sendReg s lat n v).power = s.power := rfl
@[simp] theorem sendReg_flips (s : State) (lat : Nat) (n : RegName) (v : Nat) : (sendReg s lat n v).flips = s.flips := rfl
@[simp] theorem sendReg_parity (s : State) (lat : Nat) (n : RegName) (v : Nat) : (sendReg s lat n v).parity = s.parity := rfl
@[simp] theorem sendReg_corrected (s : State) (lat : Nat) (n : RegName) (v : Nat) : (sendReg s lat n v).corrected = s.corrected := rfl
@[simp] theorem sendReg_halted (s : State) (lat : Nat) (n : RegName) (v : Nat) : (sendReg s lat n v).halted = s.halted := rfl
@[simp] theorem sendReg_clock (s : State) (lat : Nat) (n : RegName) (v : Nat) : (sendReg s lat n v).clock = s.clock := rfl
@[simp] theorem sendReg_agenda (s : State) (lat : Nat) (n : RegName) (v : Nat) : (sendReg s lat n v).agenda = s.agenda := rfl
@[simp] theorem sendReg_counter (s : State) (lat : Nat) (n : RegName) (v : Nat) : (sendReg s lat n v).counter = s.counter := rfl
@[simp] theorem sendReg_cur (s : State) (lat : Nat) (n : RegName) (v : Nat) : (sendReg s lat n v).cur = s.cur := rfl
@[simp] theorem sendReg_scr (s : State) (lat : Nat) (n : RegName) (v : Nat) : (sendReg s lat n v).scr = s.scr := rfl

/-! ### modScr -/

@[simp] theorem modScr_cores (s : State) (f : Scratch → Scratch) : (modScr s f).cores = s.cores := rfl
@[simp] theorem modScr_mem (s : State) (f : Scratch → Scratch) : (modScr s f).mem = s.mem := rfl
@[simp] theorem modScr_chip (s : State) (f : Scratch → Scratch) : (modScr s f).chip = s.chip := rfl
@[simp] theorem modScr_parts (s : State) (f : Scratch → Scratch) : (modScr s f).parts = s.parts := rfl
@[simp] theorem modScr_cells (s : State) (f : Scratch → Scratch) : (modScr s f).cells = s.cells := rfl
@[simp] theorem modScr_wcache (s : State) (f : Scratch → Scratch) : (modScr s f).wcache = s.wcache := rfl
@[simp] theorem modScr_router (s : State) (f : Scratch → Scratch) : (modScr s f).router = s.router := rfl
@[simp] theorem modScr_engines (s : State) (f : Scratch → Scratch) : (modScr s f).engines = s.engines := rfl
@[simp] theorem modScr_regions (s : State) (f : Scratch → Scratch) : (modScr s f).regions = s.regions := rfl
@[simp] theorem modScr_launches (s : State) (f : Scratch → Scratch) : (modScr s f).launches = s.launches := rfl
@[simp] theorem modScr_tree (s : State) (f : Scratch → Scratch) : (modScr s f).tree = s.tree := rfl
@[simp] theorem modScr_ctlIn (s : State) (f : Scratch → Scratch) : (modScr s f).ctlIn = s.ctlIn := rfl
@[simp] theorem modScr_ctlOut (s : State) (f : Scratch → Scratch) : (modScr s f).ctlOut = s.ctlOut := rfl
@[simp] theorem modScr_ctlSent (s : State) (f : Scratch → Scratch) : (modScr s f).ctlSent = s.ctlSent := rfl
@[simp] theorem modScr_ctlFrags (s : State) (f : Scratch → Scratch) : (modScr s f).ctlFrags = s.ctlFrags := rfl
@[simp] theorem modScr_boot (s : State) (f : Scratch → Scratch) : (modScr s f).boot = s.boot := rfl
@[simp] theorem modScr_ends (s : State) (f : Scratch → Scratch) : (modScr s f).ends = s.ends := rfl
@[simp] theorem modScr_bases (s : State) (f : Scratch → Scratch) : (modScr s f).bases = s.bases := rfl
@[simp] theorem modScr_bootIn (s : State) (f : Scratch → Scratch) : (modScr s f).bootIn = s.bootIn := rfl
@[simp] theorem modScr_bootFrags (s : State) (f : Scratch → Scratch) : (modScr s f).bootFrags = s.bootFrags := rfl
@[simp] theorem modScr_channels (s : State) (f : Scratch → Scratch) : (modScr s f).channels = s.channels := rfl
@[simp] theorem modScr_hostIn (s : State) (f : Scratch → Scratch) : (modScr s f).hostIn = s.hostIn := rfl
@[simp] theorem modScr_hostOut (s : State) (f : Scratch → Scratch) : (modScr s f).hostOut = s.hostOut := rfl
@[simp] theorem modScr_wire (s : State) (f : Scratch → Scratch) : (modScr s f).wire = s.wire := rfl
@[simp] theorem modScr_strays (s : State) (f : Scratch → Scratch) : (modScr s f).strays = s.strays := rfl
@[simp] theorem modScr_fwd (s : State) (f : Scratch → Scratch) : (modScr s f).fwd = s.fwd := rfl
@[simp] theorem modScr_accs (s : State) (f : Scratch → Scratch) : (modScr s f).accs = s.accs := rfl
@[simp] theorem modScr_pages (s : State) (f : Scratch → Scratch) : (modScr s f).pages = s.pages := rfl
@[simp] theorem modScr_spdm (s : State) (f : Scratch → Scratch) : (modScr s f).spdm = s.spdm := rfl
@[simp] theorem modScr_ips (s : State) (f : Scratch → Scratch) : (modScr s f).ips = s.ips := rfl
@[simp] theorem modScr_ip6s (s : State) (f : Scratch → Scratch) : (modScr s f).ip6s = s.ip6s := rfl
@[simp] theorem modScr_net (s : State) (f : Scratch → Scratch) : (modScr s f).net = s.net := rfl
@[simp] theorem modScr_power (s : State) (f : Scratch → Scratch) : (modScr s f).power = s.power := rfl
@[simp] theorem modScr_flips (s : State) (f : Scratch → Scratch) : (modScr s f).flips = s.flips := rfl
@[simp] theorem modScr_parity (s : State) (f : Scratch → Scratch) : (modScr s f).parity = s.parity := rfl
@[simp] theorem modScr_corrected (s : State) (f : Scratch → Scratch) : (modScr s f).corrected = s.corrected := rfl
@[simp] theorem modScr_halted (s : State) (f : Scratch → Scratch) : (modScr s f).halted = s.halted := rfl
@[simp] theorem modScr_clock (s : State) (f : Scratch → Scratch) : (modScr s f).clock = s.clock := rfl
@[simp] theorem modScr_agenda (s : State) (f : Scratch → Scratch) : (modScr s f).agenda = s.agenda := rfl
@[simp] theorem modScr_counter (s : State) (f : Scratch → Scratch) : (modScr s f).counter = s.counter := rfl
@[simp] theorem modScr_cur (s : State) (f : Scratch → Scratch) : (modScr s f).cur = s.cur := rfl

/-! ### freeze -/

@[simp] theorem freeze_cores (s : State) (f : Freeze) : (freeze s f).cores = s.cores := rfl
@[simp] theorem freeze_mem (s : State) (f : Freeze) : (freeze s f).mem = s.mem := rfl
@[simp] theorem freeze_chip (s : State) (f : Freeze) : (freeze s f).chip = s.chip := rfl
@[simp] theorem freeze_parts (s : State) (f : Freeze) : (freeze s f).parts = s.parts := rfl
@[simp] theorem freeze_cells (s : State) (f : Freeze) : (freeze s f).cells = s.cells := rfl
@[simp] theorem freeze_wcache (s : State) (f : Freeze) : (freeze s f).wcache = s.wcache := rfl
@[simp] theorem freeze_router (s : State) (f : Freeze) : (freeze s f).router = s.router := rfl
@[simp] theorem freeze_engines (s : State) (f : Freeze) : (freeze s f).engines = s.engines := rfl
@[simp] theorem freeze_regions (s : State) (f : Freeze) : (freeze s f).regions = s.regions := rfl
@[simp] theorem freeze_launches (s : State) (f : Freeze) : (freeze s f).launches = s.launches := rfl
@[simp] theorem freeze_tree (s : State) (f : Freeze) : (freeze s f).tree = s.tree := rfl
@[simp] theorem freeze_ctlIn (s : State) (f : Freeze) : (freeze s f).ctlIn = s.ctlIn := rfl
@[simp] theorem freeze_ctlOut (s : State) (f : Freeze) : (freeze s f).ctlOut = s.ctlOut := rfl
@[simp] theorem freeze_ctlSent (s : State) (f : Freeze) : (freeze s f).ctlSent = s.ctlSent := rfl
@[simp] theorem freeze_ctlFrags (s : State) (f : Freeze) : (freeze s f).ctlFrags = s.ctlFrags := rfl
@[simp] theorem freeze_boot (s : State) (f : Freeze) : (freeze s f).boot = s.boot := rfl
@[simp] theorem freeze_ends (s : State) (f : Freeze) : (freeze s f).ends = s.ends := rfl
@[simp] theorem freeze_bases (s : State) (f : Freeze) : (freeze s f).bases = s.bases := rfl
@[simp] theorem freeze_bootIn (s : State) (f : Freeze) : (freeze s f).bootIn = s.bootIn := rfl
@[simp] theorem freeze_bootFrags (s : State) (f : Freeze) : (freeze s f).bootFrags = s.bootFrags := rfl
@[simp] theorem freeze_channels (s : State) (f : Freeze) : (freeze s f).channels = s.channels := rfl
@[simp] theorem freeze_hostIn (s : State) (f : Freeze) : (freeze s f).hostIn = s.hostIn := rfl
@[simp] theorem freeze_hostOut (s : State) (f : Freeze) : (freeze s f).hostOut = s.hostOut := rfl
@[simp] theorem freeze_wire (s : State) (f : Freeze) : (freeze s f).wire = s.wire := rfl
@[simp] theorem freeze_strays (s : State) (f : Freeze) : (freeze s f).strays = s.strays := rfl
@[simp] theorem freeze_fwd (s : State) (f : Freeze) : (freeze s f).fwd = s.fwd := rfl
@[simp] theorem freeze_accs (s : State) (f : Freeze) : (freeze s f).accs = s.accs := rfl
@[simp] theorem freeze_pages (s : State) (f : Freeze) : (freeze s f).pages = s.pages := rfl
@[simp] theorem freeze_spdm (s : State) (f : Freeze) : (freeze s f).spdm = s.spdm := rfl
@[simp] theorem freeze_ips (s : State) (f : Freeze) : (freeze s f).ips = s.ips := rfl
@[simp] theorem freeze_ip6s (s : State) (f : Freeze) : (freeze s f).ip6s = s.ip6s := rfl
@[simp] theorem freeze_net (s : State) (f : Freeze) : (freeze s f).net = s.net := rfl
@[simp] theorem freeze_power (s : State) (f : Freeze) : (freeze s f).power = s.power := rfl
@[simp] theorem freeze_flips (s : State) (f : Freeze) : (freeze s f).flips = s.flips := rfl
@[simp] theorem freeze_parity (s : State) (f : Freeze) : (freeze s f).parity = s.parity := rfl
@[simp] theorem freeze_corrected (s : State) (f : Freeze) : (freeze s f).corrected = s.corrected := rfl
@[simp] theorem freeze_halted (s : State) (f : Freeze) : (freeze s f).halted = s.halted := rfl
@[simp] theorem freeze_clock (s : State) (f : Freeze) : (freeze s f).clock = s.clock := rfl
@[simp] theorem freeze_agenda (s : State) (f : Freeze) : (freeze s f).agenda = s.agenda := rfl
@[simp] theorem freeze_counter (s : State) (f : Freeze) : (freeze s f).counter = s.counter := rfl
@[simp] theorem freeze_cur (s : State) (f : Freeze) : (freeze s f).cur = s.cur := rfl

/-! ### forceCkpt -/

@[simp] theorem forceCkpt_cores (s : State) : (forceCkpt s).cores = s.cores := rfl
@[simp] theorem forceCkpt_mem (s : State) : (forceCkpt s).mem = s.mem := rfl
@[simp] theorem forceCkpt_chip (s : State) : (forceCkpt s).chip = s.chip := rfl
@[simp] theorem forceCkpt_parts (s : State) : (forceCkpt s).parts = s.parts := rfl
@[simp] theorem forceCkpt_cells (s : State) : (forceCkpt s).cells = s.cells := rfl
@[simp] theorem forceCkpt_wcache (s : State) : (forceCkpt s).wcache = s.wcache := rfl
@[simp] theorem forceCkpt_router (s : State) : (forceCkpt s).router = s.router := rfl
@[simp] theorem forceCkpt_engines (s : State) : (forceCkpt s).engines = s.engines := rfl
@[simp] theorem forceCkpt_regions (s : State) : (forceCkpt s).regions = s.regions := rfl
@[simp] theorem forceCkpt_launches (s : State) : (forceCkpt s).launches = s.launches := rfl
@[simp] theorem forceCkpt_tree (s : State) : (forceCkpt s).tree = s.tree := rfl
@[simp] theorem forceCkpt_ctlIn (s : State) : (forceCkpt s).ctlIn = s.ctlIn := rfl
@[simp] theorem forceCkpt_ctlOut (s : State) : (forceCkpt s).ctlOut = s.ctlOut := rfl
@[simp] theorem forceCkpt_ctlSent (s : State) : (forceCkpt s).ctlSent = s.ctlSent := rfl
@[simp] theorem forceCkpt_ctlFrags (s : State) : (forceCkpt s).ctlFrags = s.ctlFrags := rfl
@[simp] theorem forceCkpt_boot (s : State) : (forceCkpt s).boot = s.boot := rfl
@[simp] theorem forceCkpt_ends (s : State) : (forceCkpt s).ends = s.ends := rfl
@[simp] theorem forceCkpt_bases (s : State) : (forceCkpt s).bases = s.bases := rfl
@[simp] theorem forceCkpt_bootIn (s : State) : (forceCkpt s).bootIn = s.bootIn := rfl
@[simp] theorem forceCkpt_bootFrags (s : State) : (forceCkpt s).bootFrags = s.bootFrags := rfl
@[simp] theorem forceCkpt_channels (s : State) : (forceCkpt s).channels = s.channels := rfl
@[simp] theorem forceCkpt_hostIn (s : State) : (forceCkpt s).hostIn = s.hostIn := rfl
@[simp] theorem forceCkpt_hostOut (s : State) : (forceCkpt s).hostOut = s.hostOut := rfl
@[simp] theorem forceCkpt_wire (s : State) : (forceCkpt s).wire = s.wire := rfl
@[simp] theorem forceCkpt_strays (s : State) : (forceCkpt s).strays = s.strays := rfl
@[simp] theorem forceCkpt_fwd (s : State) : (forceCkpt s).fwd = s.fwd := rfl
@[simp] theorem forceCkpt_accs (s : State) : (forceCkpt s).accs = s.accs := rfl
@[simp] theorem forceCkpt_pages (s : State) : (forceCkpt s).pages = s.pages := rfl
@[simp] theorem forceCkpt_spdm (s : State) : (forceCkpt s).spdm = s.spdm := rfl
@[simp] theorem forceCkpt_ips (s : State) : (forceCkpt s).ips = s.ips := rfl
@[simp] theorem forceCkpt_ip6s (s : State) : (forceCkpt s).ip6s = s.ip6s := rfl
@[simp] theorem forceCkpt_net (s : State) : (forceCkpt s).net = s.net := rfl
@[simp] theorem forceCkpt_power (s : State) : (forceCkpt s).power = s.power := rfl
@[simp] theorem forceCkpt_flips (s : State) : (forceCkpt s).flips = s.flips := rfl
@[simp] theorem forceCkpt_parity (s : State) : (forceCkpt s).parity = s.parity := rfl
@[simp] theorem forceCkpt_corrected (s : State) : (forceCkpt s).corrected = s.corrected := rfl
@[simp] theorem forceCkpt_halted (s : State) : (forceCkpt s).halted = s.halted := rfl
@[simp] theorem forceCkpt_clock (s : State) : (forceCkpt s).clock = s.clock := rfl
@[simp] theorem forceCkpt_agenda (s : State) : (forceCkpt s).agenda = s.agenda := rfl
@[simp] theorem forceCkpt_counter (s : State) : (forceCkpt s).counter = s.counter := rfl
@[simp] theorem forceCkpt_cur (s : State) : (forceCkpt s).cur = s.cur := rfl

/-! ### memWrite -/

@[simp] theorem memWrite_cores (s : State) (key : Nat) (bs : List Byte) : (memWrite s key bs).cores = s.cores := rfl
@[simp] theorem memWrite_chip (s : State) (key : Nat) (bs : List Byte) : (memWrite s key bs).chip = s.chip := rfl
@[simp] theorem memWrite_parts (s : State) (key : Nat) (bs : List Byte) : (memWrite s key bs).parts = s.parts := rfl
@[simp] theorem memWrite_cells (s : State) (key : Nat) (bs : List Byte) : (memWrite s key bs).cells = s.cells := rfl
@[simp] theorem memWrite_wcache (s : State) (key : Nat) (bs : List Byte) : (memWrite s key bs).wcache = s.wcache := rfl
@[simp] theorem memWrite_router (s : State) (key : Nat) (bs : List Byte) : (memWrite s key bs).router = s.router := rfl
@[simp] theorem memWrite_engines (s : State) (key : Nat) (bs : List Byte) : (memWrite s key bs).engines = s.engines := rfl
@[simp] theorem memWrite_regions (s : State) (key : Nat) (bs : List Byte) : (memWrite s key bs).regions = s.regions := rfl
@[simp] theorem memWrite_launches (s : State) (key : Nat) (bs : List Byte) : (memWrite s key bs).launches = s.launches := rfl
@[simp] theorem memWrite_tree (s : State) (key : Nat) (bs : List Byte) : (memWrite s key bs).tree = s.tree := rfl
@[simp] theorem memWrite_ctlIn (s : State) (key : Nat) (bs : List Byte) : (memWrite s key bs).ctlIn = s.ctlIn := rfl
@[simp] theorem memWrite_ctlOut (s : State) (key : Nat) (bs : List Byte) : (memWrite s key bs).ctlOut = s.ctlOut := rfl
@[simp] theorem memWrite_ctlSent (s : State) (key : Nat) (bs : List Byte) : (memWrite s key bs).ctlSent = s.ctlSent := rfl
@[simp] theorem memWrite_ctlFrags (s : State) (key : Nat) (bs : List Byte) : (memWrite s key bs).ctlFrags = s.ctlFrags := rfl
@[simp] theorem memWrite_boot (s : State) (key : Nat) (bs : List Byte) : (memWrite s key bs).boot = s.boot := rfl
@[simp] theorem memWrite_ends (s : State) (key : Nat) (bs : List Byte) : (memWrite s key bs).ends = s.ends := rfl
@[simp] theorem memWrite_bases (s : State) (key : Nat) (bs : List Byte) : (memWrite s key bs).bases = s.bases := rfl
@[simp] theorem memWrite_bootIn (s : State) (key : Nat) (bs : List Byte) : (memWrite s key bs).bootIn = s.bootIn := rfl
@[simp] theorem memWrite_bootFrags (s : State) (key : Nat) (bs : List Byte) : (memWrite s key bs).bootFrags = s.bootFrags := rfl
@[simp] theorem memWrite_channels (s : State) (key : Nat) (bs : List Byte) : (memWrite s key bs).channels = s.channels := rfl
@[simp] theorem memWrite_hostIn (s : State) (key : Nat) (bs : List Byte) : (memWrite s key bs).hostIn = s.hostIn := rfl
@[simp] theorem memWrite_hostOut (s : State) (key : Nat) (bs : List Byte) : (memWrite s key bs).hostOut = s.hostOut := rfl
@[simp] theorem memWrite_wire (s : State) (key : Nat) (bs : List Byte) : (memWrite s key bs).wire = s.wire := rfl
@[simp] theorem memWrite_strays (s : State) (key : Nat) (bs : List Byte) : (memWrite s key bs).strays = s.strays := rfl
@[simp] theorem memWrite_fwd (s : State) (key : Nat) (bs : List Byte) : (memWrite s key bs).fwd = s.fwd := rfl
@[simp] theorem memWrite_accs (s : State) (key : Nat) (bs : List Byte) : (memWrite s key bs).accs = s.accs := rfl
@[simp] theorem memWrite_pages (s : State) (key : Nat) (bs : List Byte) : (memWrite s key bs).pages = s.pages := rfl
@[simp] theorem memWrite_spdm (s : State) (key : Nat) (bs : List Byte) : (memWrite s key bs).spdm = s.spdm := rfl
@[simp] theorem memWrite_ips (s : State) (key : Nat) (bs : List Byte) : (memWrite s key bs).ips = s.ips := rfl
@[simp] theorem memWrite_ip6s (s : State) (key : Nat) (bs : List Byte) : (memWrite s key bs).ip6s = s.ip6s := rfl
@[simp] theorem memWrite_net (s : State) (key : Nat) (bs : List Byte) : (memWrite s key bs).net = s.net := rfl
@[simp] theorem memWrite_power (s : State) (key : Nat) (bs : List Byte) : (memWrite s key bs).power = s.power := rfl
@[simp] theorem memWrite_parity (s : State) (key : Nat) (bs : List Byte) : (memWrite s key bs).parity = s.parity := rfl
@[simp] theorem memWrite_corrected (s : State) (key : Nat) (bs : List Byte) : (memWrite s key bs).corrected = s.corrected := rfl
@[simp] theorem memWrite_halted (s : State) (key : Nat) (bs : List Byte) : (memWrite s key bs).halted = s.halted := rfl
@[simp] theorem memWrite_clock (s : State) (key : Nat) (bs : List Byte) : (memWrite s key bs).clock = s.clock := rfl
@[simp] theorem memWrite_agenda (s : State) (key : Nat) (bs : List Byte) : (memWrite s key bs).agenda = s.agenda := rfl
@[simp] theorem memWrite_counter (s : State) (key : Nat) (bs : List Byte) : (memWrite s key bs).counter = s.counter := rfl
@[simp] theorem memWrite_cur (s : State) (key : Nat) (bs : List Byte) : (memWrite s key bs).cur = s.cur := rfl
@[simp] theorem memWrite_scr (s : State) (key : Nat) (bs : List Byte) : (memWrite s key bs).scr = s.scr := rfl

/-! ### setLink -/

@[simp] theorem setLink_cores (s : State) (l : Nat) (x : Link) : (setLink s l x).cores = s.cores := rfl
@[simp] theorem setLink_mem (s : State) (l : Nat) (x : Link) : (setLink s l x).mem = s.mem := rfl
@[simp] theorem setLink_chip (s : State) (l : Nat) (x : Link) : (setLink s l x).chip = s.chip := rfl
@[simp] theorem setLink_parts (s : State) (l : Nat) (x : Link) : (setLink s l x).parts = s.parts := rfl
@[simp] theorem setLink_cells (s : State) (l : Nat) (x : Link) : (setLink s l x).cells = s.cells := rfl
@[simp] theorem setLink_wcache (s : State) (l : Nat) (x : Link) : (setLink s l x).wcache = s.wcache := rfl
@[simp] theorem setLink_engines (s : State) (l : Nat) (x : Link) : (setLink s l x).engines = s.engines := rfl
@[simp] theorem setLink_regions (s : State) (l : Nat) (x : Link) : (setLink s l x).regions = s.regions := rfl
@[simp] theorem setLink_launches (s : State) (l : Nat) (x : Link) : (setLink s l x).launches = s.launches := rfl
@[simp] theorem setLink_tree (s : State) (l : Nat) (x : Link) : (setLink s l x).tree = s.tree := rfl
@[simp] theorem setLink_ctlIn (s : State) (l : Nat) (x : Link) : (setLink s l x).ctlIn = s.ctlIn := rfl
@[simp] theorem setLink_ctlOut (s : State) (l : Nat) (x : Link) : (setLink s l x).ctlOut = s.ctlOut := rfl
@[simp] theorem setLink_ctlSent (s : State) (l : Nat) (x : Link) : (setLink s l x).ctlSent = s.ctlSent := rfl
@[simp] theorem setLink_ctlFrags (s : State) (l : Nat) (x : Link) : (setLink s l x).ctlFrags = s.ctlFrags := rfl
@[simp] theorem setLink_boot (s : State) (l : Nat) (x : Link) : (setLink s l x).boot = s.boot := rfl
@[simp] theorem setLink_ends (s : State) (l : Nat) (x : Link) : (setLink s l x).ends = s.ends := rfl
@[simp] theorem setLink_bases (s : State) (l : Nat) (x : Link) : (setLink s l x).bases = s.bases := rfl
@[simp] theorem setLink_bootIn (s : State) (l : Nat) (x : Link) : (setLink s l x).bootIn = s.bootIn := rfl
@[simp] theorem setLink_bootFrags (s : State) (l : Nat) (x : Link) : (setLink s l x).bootFrags = s.bootFrags := rfl
@[simp] theorem setLink_channels (s : State) (l : Nat) (x : Link) : (setLink s l x).channels = s.channels := rfl
@[simp] theorem setLink_hostIn (s : State) (l : Nat) (x : Link) : (setLink s l x).hostIn = s.hostIn := rfl
@[simp] theorem setLink_hostOut (s : State) (l : Nat) (x : Link) : (setLink s l x).hostOut = s.hostOut := rfl
@[simp] theorem setLink_wire (s : State) (l : Nat) (x : Link) : (setLink s l x).wire = s.wire := rfl
@[simp] theorem setLink_strays (s : State) (l : Nat) (x : Link) : (setLink s l x).strays = s.strays := rfl
@[simp] theorem setLink_fwd (s : State) (l : Nat) (x : Link) : (setLink s l x).fwd = s.fwd := rfl
@[simp] theorem setLink_accs (s : State) (l : Nat) (x : Link) : (setLink s l x).accs = s.accs := rfl
@[simp] theorem setLink_pages (s : State) (l : Nat) (x : Link) : (setLink s l x).pages = s.pages := rfl
@[simp] theorem setLink_spdm (s : State) (l : Nat) (x : Link) : (setLink s l x).spdm = s.spdm := rfl
@[simp] theorem setLink_ips (s : State) (l : Nat) (x : Link) : (setLink s l x).ips = s.ips := rfl
@[simp] theorem setLink_ip6s (s : State) (l : Nat) (x : Link) : (setLink s l x).ip6s = s.ip6s := rfl
@[simp] theorem setLink_net (s : State) (l : Nat) (x : Link) : (setLink s l x).net = s.net := rfl
@[simp] theorem setLink_power (s : State) (l : Nat) (x : Link) : (setLink s l x).power = s.power := rfl
@[simp] theorem setLink_flips (s : State) (l : Nat) (x : Link) : (setLink s l x).flips = s.flips := rfl
@[simp] theorem setLink_parity (s : State) (l : Nat) (x : Link) : (setLink s l x).parity = s.parity := rfl
@[simp] theorem setLink_corrected (s : State) (l : Nat) (x : Link) : (setLink s l x).corrected = s.corrected := rfl
@[simp] theorem setLink_halted (s : State) (l : Nat) (x : Link) : (setLink s l x).halted = s.halted := rfl
@[simp] theorem setLink_clock (s : State) (l : Nat) (x : Link) : (setLink s l x).clock = s.clock := rfl
@[simp] theorem setLink_agenda (s : State) (l : Nat) (x : Link) : (setLink s l x).agenda = s.agenda := rfl
@[simp] theorem setLink_counter (s : State) (l : Nat) (x : Link) : (setLink s l x).counter = s.counter := rfl
@[simp] theorem setLink_cur (s : State) (l : Nat) (x : Link) : (setLink s l x).cur = s.cur := rfl
@[simp] theorem setLink_scr (s : State) (l : Nat) (x : Link) : (setLink s l x).scr = s.scr := rfl

/-! ### modLink -/

@[simp] theorem modLink_cores (s : State) (l : Nat) (f : Link → Link) : (modLink s l f).cores = s.cores := rfl
@[simp] theorem modLink_mem (s : State) (l : Nat) (f : Link → Link) : (modLink s l f).mem = s.mem := rfl
@[simp] theorem modLink_chip (s : State) (l : Nat) (f : Link → Link) : (modLink s l f).chip = s.chip := rfl
@[simp] theorem modLink_parts (s : State) (l : Nat) (f : Link → Link) : (modLink s l f).parts = s.parts := rfl
@[simp] theorem modLink_cells (s : State) (l : Nat) (f : Link → Link) : (modLink s l f).cells = s.cells := rfl
@[simp] theorem modLink_wcache (s : State) (l : Nat) (f : Link → Link) : (modLink s l f).wcache = s.wcache := rfl
@[simp] theorem modLink_engines (s : State) (l : Nat) (f : Link → Link) : (modLink s l f).engines = s.engines := rfl
@[simp] theorem modLink_regions (s : State) (l : Nat) (f : Link → Link) : (modLink s l f).regions = s.regions := rfl
@[simp] theorem modLink_launches (s : State) (l : Nat) (f : Link → Link) : (modLink s l f).launches = s.launches := rfl
@[simp] theorem modLink_tree (s : State) (l : Nat) (f : Link → Link) : (modLink s l f).tree = s.tree := rfl
@[simp] theorem modLink_ctlIn (s : State) (l : Nat) (f : Link → Link) : (modLink s l f).ctlIn = s.ctlIn := rfl
@[simp] theorem modLink_ctlOut (s : State) (l : Nat) (f : Link → Link) : (modLink s l f).ctlOut = s.ctlOut := rfl
@[simp] theorem modLink_ctlSent (s : State) (l : Nat) (f : Link → Link) : (modLink s l f).ctlSent = s.ctlSent := rfl
@[simp] theorem modLink_ctlFrags (s : State) (l : Nat) (f : Link → Link) : (modLink s l f).ctlFrags = s.ctlFrags := rfl
@[simp] theorem modLink_boot (s : State) (l : Nat) (f : Link → Link) : (modLink s l f).boot = s.boot := rfl
@[simp] theorem modLink_ends (s : State) (l : Nat) (f : Link → Link) : (modLink s l f).ends = s.ends := rfl
@[simp] theorem modLink_bases (s : State) (l : Nat) (f : Link → Link) : (modLink s l f).bases = s.bases := rfl
@[simp] theorem modLink_bootIn (s : State) (l : Nat) (f : Link → Link) : (modLink s l f).bootIn = s.bootIn := rfl
@[simp] theorem modLink_bootFrags (s : State) (l : Nat) (f : Link → Link) : (modLink s l f).bootFrags = s.bootFrags := rfl
@[simp] theorem modLink_channels (s : State) (l : Nat) (f : Link → Link) : (modLink s l f).channels = s.channels := rfl
@[simp] theorem modLink_hostIn (s : State) (l : Nat) (f : Link → Link) : (modLink s l f).hostIn = s.hostIn := rfl
@[simp] theorem modLink_hostOut (s : State) (l : Nat) (f : Link → Link) : (modLink s l f).hostOut = s.hostOut := rfl
@[simp] theorem modLink_wire (s : State) (l : Nat) (f : Link → Link) : (modLink s l f).wire = s.wire := rfl
@[simp] theorem modLink_strays (s : State) (l : Nat) (f : Link → Link) : (modLink s l f).strays = s.strays := rfl
@[simp] theorem modLink_fwd (s : State) (l : Nat) (f : Link → Link) : (modLink s l f).fwd = s.fwd := rfl
@[simp] theorem modLink_accs (s : State) (l : Nat) (f : Link → Link) : (modLink s l f).accs = s.accs := rfl
@[simp] theorem modLink_pages (s : State) (l : Nat) (f : Link → Link) : (modLink s l f).pages = s.pages := rfl
@[simp] theorem modLink_spdm (s : State) (l : Nat) (f : Link → Link) : (modLink s l f).spdm = s.spdm := rfl
@[simp] theorem modLink_ips (s : State) (l : Nat) (f : Link → Link) : (modLink s l f).ips = s.ips := rfl
@[simp] theorem modLink_ip6s (s : State) (l : Nat) (f : Link → Link) : (modLink s l f).ip6s = s.ip6s := rfl
@[simp] theorem modLink_net (s : State) (l : Nat) (f : Link → Link) : (modLink s l f).net = s.net := rfl
@[simp] theorem modLink_power (s : State) (l : Nat) (f : Link → Link) : (modLink s l f).power = s.power := rfl
@[simp] theorem modLink_flips (s : State) (l : Nat) (f : Link → Link) : (modLink s l f).flips = s.flips := rfl
@[simp] theorem modLink_parity (s : State) (l : Nat) (f : Link → Link) : (modLink s l f).parity = s.parity := rfl
@[simp] theorem modLink_corrected (s : State) (l : Nat) (f : Link → Link) : (modLink s l f).corrected = s.corrected := rfl
@[simp] theorem modLink_halted (s : State) (l : Nat) (f : Link → Link) : (modLink s l f).halted = s.halted := rfl
@[simp] theorem modLink_clock (s : State) (l : Nat) (f : Link → Link) : (modLink s l f).clock = s.clock := rfl
@[simp] theorem modLink_agenda (s : State) (l : Nat) (f : Link → Link) : (modLink s l f).agenda = s.agenda := rfl
@[simp] theorem modLink_counter (s : State) (l : Nat) (f : Link → Link) : (modLink s l f).counter = s.counter := rfl
@[simp] theorem modLink_cur (s : State) (l : Nat) (f : Link → Link) : (modLink s l f).cur = s.cur := rfl
@[simp] theorem modLink_scr (s : State) (l : Nat) (f : Link → Link) : (modLink s l f).scr = s.scr := rfl

/-! ### modRegion -/

@[simp] theorem modRegion_cores (s : State) (part num : Nat) (f : Region → Region) : (modRegion s part num f).cores = s.cores := rfl
@[simp] theorem modRegion_mem (s : State) (part num : Nat) (f : Region → Region) : (modRegion s part num f).mem = s.mem := rfl
@[simp] theorem modRegion_chip (s : State) (part num : Nat) (f : Region → Region) : (modRegion s part num f).chip = s.chip := rfl
@[simp] theorem modRegion_parts (s : State) (part num : Nat) (f : Region → Region) : (modRegion s part num f).parts = s.parts := rfl
@[simp] theorem modRegion_cells (s : State) (part num : Nat) (f : Region → Region) : (modRegion s part num f).cells = s.cells := rfl
@[simp] theorem modRegion_wcache (s : State) (part num : Nat) (f : Region → Region) : (modRegion s part num f).wcache = s.wcache := rfl
@[simp] theorem modRegion_router (s : State) (part num : Nat) (f : Region → Region) : (modRegion s part num f).router = s.router := rfl
@[simp] theorem modRegion_engines (s : State) (part num : Nat) (f : Region → Region) : (modRegion s part num f).engines = s.engines := rfl
@[simp] theorem modRegion_launches (s : State) (part num : Nat) (f : Region → Region) : (modRegion s part num f).launches = s.launches := rfl
@[simp] theorem modRegion_tree (s : State) (part num : Nat) (f : Region → Region) : (modRegion s part num f).tree = s.tree := rfl
@[simp] theorem modRegion_ctlIn (s : State) (part num : Nat) (f : Region → Region) : (modRegion s part num f).ctlIn = s.ctlIn := rfl
@[simp] theorem modRegion_ctlOut (s : State) (part num : Nat) (f : Region → Region) : (modRegion s part num f).ctlOut = s.ctlOut := rfl
@[simp] theorem modRegion_ctlSent (s : State) (part num : Nat) (f : Region → Region) : (modRegion s part num f).ctlSent = s.ctlSent := rfl
@[simp] theorem modRegion_ctlFrags (s : State) (part num : Nat) (f : Region → Region) : (modRegion s part num f).ctlFrags = s.ctlFrags := rfl
@[simp] theorem modRegion_boot (s : State) (part num : Nat) (f : Region → Region) : (modRegion s part num f).boot = s.boot := rfl
@[simp] theorem modRegion_ends (s : State) (part num : Nat) (f : Region → Region) : (modRegion s part num f).ends = s.ends := rfl
@[simp] theorem modRegion_bases (s : State) (part num : Nat) (f : Region → Region) : (modRegion s part num f).bases = s.bases := rfl
@[simp] theorem modRegion_bootIn (s : State) (part num : Nat) (f : Region → Region) : (modRegion s part num f).bootIn = s.bootIn := rfl
@[simp] theorem modRegion_bootFrags (s : State) (part num : Nat) (f : Region → Region) : (modRegion s part num f).bootFrags = s.bootFrags := rfl
@[simp] theorem modRegion_channels (s : State) (part num : Nat) (f : Region → Region) : (modRegion s part num f).channels = s.channels := rfl
@[simp] theorem modRegion_hostIn (s : State) (part num : Nat) (f : Region → Region) : (modRegion s part num f).hostIn = s.hostIn := rfl
@[simp] theorem modRegion_hostOut (s : State) (part num : Nat) (f : Region → Region) : (modRegion s part num f).hostOut = s.hostOut := rfl
@[simp] theorem modRegion_wire (s : State) (part num : Nat) (f : Region → Region) : (modRegion s part num f).wire = s.wire := rfl
@[simp] theorem modRegion_strays (s : State) (part num : Nat) (f : Region → Region) : (modRegion s part num f).strays = s.strays := rfl
@[simp] theorem modRegion_fwd (s : State) (part num : Nat) (f : Region → Region) : (modRegion s part num f).fwd = s.fwd := rfl
@[simp] theorem modRegion_accs (s : State) (part num : Nat) (f : Region → Region) : (modRegion s part num f).accs = s.accs := rfl
@[simp] theorem modRegion_pages (s : State) (part num : Nat) (f : Region → Region) : (modRegion s part num f).pages = s.pages := rfl
@[simp] theorem modRegion_spdm (s : State) (part num : Nat) (f : Region → Region) : (modRegion s part num f).spdm = s.spdm := rfl
@[simp] theorem modRegion_ips (s : State) (part num : Nat) (f : Region → Region) : (modRegion s part num f).ips = s.ips := rfl
@[simp] theorem modRegion_ip6s (s : State) (part num : Nat) (f : Region → Region) : (modRegion s part num f).ip6s = s.ip6s := rfl
@[simp] theorem modRegion_net (s : State) (part num : Nat) (f : Region → Region) : (modRegion s part num f).net = s.net := rfl
@[simp] theorem modRegion_power (s : State) (part num : Nat) (f : Region → Region) : (modRegion s part num f).power = s.power := rfl
@[simp] theorem modRegion_flips (s : State) (part num : Nat) (f : Region → Region) : (modRegion s part num f).flips = s.flips := rfl
@[simp] theorem modRegion_parity (s : State) (part num : Nat) (f : Region → Region) : (modRegion s part num f).parity = s.parity := rfl
@[simp] theorem modRegion_corrected (s : State) (part num : Nat) (f : Region → Region) : (modRegion s part num f).corrected = s.corrected := rfl
@[simp] theorem modRegion_halted (s : State) (part num : Nat) (f : Region → Region) : (modRegion s part num f).halted = s.halted := rfl
@[simp] theorem modRegion_clock (s : State) (part num : Nat) (f : Region → Region) : (modRegion s part num f).clock = s.clock := rfl
@[simp] theorem modRegion_agenda (s : State) (part num : Nat) (f : Region → Region) : (modRegion s part num f).agenda = s.agenda := rfl
@[simp] theorem modRegion_counter (s : State) (part num : Nat) (f : Region → Region) : (modRegion s part num f).counter = s.counter := rfl
@[simp] theorem modRegion_cur (s : State) (part num : Nat) (f : Region → Region) : (modRegion s part num f).cur = s.cur := rfl
@[simp] theorem modRegion_scr (s : State) (part num : Nat) (f : Region → Region) : (modRegion s part num f).scr = s.scr := rfl

/-! ### What is read back -/

@[simp] theorem setCore_cores (s : State) (k : Nat) (c : Core) : (setCore s k c).cores = s.cores.setIfInBounds k c := rfl
@[simp] theorem modScr_scr (s : State) (f : Scratch → Scratch) : (modScr s f).scr = f s.scr := rfl
@[simp] theorem memWrite_mem (s : State) (key : Nat) (bs : List Byte) :
    (memWrite s key bs).mem = tabSetMany memDefault s.mem key bs := rfl

theorem getCore_setCore (s : State) (k j : Nat) (c : Core) (h : k < 16) :
    getCore (setCore s k c) j = if j = k then c else getCore s j := by
  by_cases hj : j = k
  · subst hj; simp [getCore, h]
  · simp [getCore, hj, Ne.symm hj]

@[simp] theorem getCore_setCore_same (s : State) (k : Nat) (c : Core) (h : k < 16) : getCore (setCore s k c) k = c := by
  simp [getCore_setCore, h]

@[simp] theorem getCore_setCore_ne (s : State) (k j : Nat) (c : Core) (h : j ≠ k) :
    getCore (setCore s k c) j = getCore s j := by
  simp [getCore, Ne.symm h]

@[simp] theorem getCore_modScr (s : State) (f : Scratch → Scratch) (k : Nat) : getCore (modScr s f) k = getCore s k := rfl
@[simp] theorem getCore_memWrite (s : State) (key : Nat) (bs : List Byte) (k : Nat) :
    getCore (memWrite s key bs) k = getCore s k := rfl

@[simp] theorem getCtx_setCtx_same (c : Core) (b : Bool) (x : Context) : getCtx (setCtx c b x) b = x := by
  cases b <;> rfl
@[simp] theorem getCtx_setCtx_other (c : Core) (b : Bool) (x : Context) : getCtx (setCtx c b x) (!b) = getCtx c (!b) := by
  cases b <;> rfl
@[simp] theorem getRegs_setRegs (c : Core) (w : Who) (r : Regs) : getRegs (setRegs c w r) w = r := by
  cases w <;> rfl
theorem getRegs_setRegs_ne (c : Core) (w u : Who) (r : Regs) (h : u ≠ w) : getRegs (setRegs c w r) u = getRegs c u := by
  cases w <;> cases u <;> first | exact absurd rfl h | rfl

theorem getRegs_modRegsAt (s : State) (k : Nat) (w : Who) (f : Regs → Regs) (h : k < 16) :
    getRegs (getCore (modRegsAt s k w f) k) w = f (getRegs (getCore s k) w) := by
  simp [modRegsAt, modCore, h]

theorem getCtx_modCtxAt (s : State) (k : Nat) (b : Bool) (f : Context → Context) (h : k < 16) :
    getCtx (getCore (modCtxAt s k b f) k) b = f (getCtx (getCore s k) b) := by
  simp [modCtxAt, modCore, modCtx, h]

end Sys2Proof.Machine
end

