-- ==== Sys2Proof/Laws/Memory.lean ====
section
/-!
SUPPORT. The canonical form of memory and of every sparse table: each operation keeps it, a read after a write gives
what was written, and a write leaves every other key alone.
-/
namespace Sys2Proof.Machine

/-! ### Tables -/

theorem tabWfFrom_mono {α : Type} [DecidableEq α] {d : α} {t : Tab α} {a b : Nat} (h : tabWfFrom d b t = true)
    (hab : a ≤ b) : tabWfFrom d a t = true := by
  cases t with
  | nil => rfl
  | cons e t => simp only [tabWfFrom, Bool.and_eq_true, decide_eq_true_eq] at h ⊢; exact ⟨⟨by omega, h.1.2⟩, h.2⟩

theorem tabSet_wfFrom {α : Type} [DecidableEq α] {d : α} {t : Tab α} {b i : Nat} (v : α) (h : tabWfFrom d b t = true)
    (hi : b ≤ i) : tabWfFrom d b (tabSet d t i v) = true := by
  induction t generalizing b with
  | nil => by_cases hv : v = d <;> simp [tabSet, hv, tabWfFrom, hi]
  | cons e t ih =>
    have h0 := h
    simp only [tabWfFrom, Bool.and_eq_true, decide_eq_true_eq, Bool.not_eq_true', decide_eq_false_iff_not] at h
    obtain ⟨⟨hb, he⟩, ht⟩ := h
    simp only [tabSet]
    split
    · split
      · exact h0
      · rename_i hlt hv
        simp [tabWfFrom, hi, hv, he, ht]; omega
    · split
      · split
        · exact tabWfFrom_mono ht (by omega)
        · rename_i hv; simp [tabWfFrom, hb, hv, ht]
      · simp only [tabWfFrom, Bool.and_eq_true, decide_eq_true_eq, Bool.not_eq_true', decide_eq_false_iff_not]
        exact ⟨⟨hb, he⟩, ih ht (by omega)⟩

/-- A write of one entry keeps the canonical form. -/
theorem tabSet_wf {α : Type} [DecidableEq α] {d : α} {t : Tab α} (i : Nat) (v : α) (h : tabWf d t = true) :
    tabWf d (tabSet d t i v) = true := tabSet_wfFrom v h (Nat.zero_le i)

/-- A write of consecutive entries keeps the canonical form. -/
theorem tabSetMany_wf {α : Type} [DecidableEq α] {d : α} {t : Tab α} (i : Nat) (vs : List α) (h : tabWf d t = true) :
    tabWf d (tabSetMany d t i vs) = true := by
  induction vs generalizing t i with
  | nil => exact h
  | cons v vs ih => exact ih (i + 1) (tabSet_wf i v h)

theorem tabErase_wfFrom {α : Type} [DecidableEq α] {d : α} {t : Tab α} {b : Nat} (lo hi : Nat)
    (h : tabWfFrom d b t = true) : tabWfFrom d b (tabErase lo hi t) = true := by
  induction t generalizing b with
  | nil => rfl
  | cons e t ih =>
    simp only [tabWfFrom, Bool.and_eq_true] at h
    have hc := ih h.2
    simp only [tabErase, List.filter_cons] at hc ⊢
    split
    · simp only [tabWfFrom, Bool.and_eq_true]; exact ⟨h.1, hc⟩
    · exact tabWfFrom_mono hc (by have := h.1.1; simp only [decide_eq_true_eq] at this; omega)

/-- Dropping a range of keys keeps the canonical form. -/
theorem tabErase_wf {α : Type} [DecidableEq α] {d : α} {t : Tab α} (lo hi : Nat) (h : tabWf d t = true) :
    tabWf d (tabErase lo hi t) = true := tabErase_wfFrom lo hi h

/-- Keys below every listed key read as the default. -/
theorem tabGet_below {α : Type} [DecidableEq α] {d : α} {t : Tab α} {b i : Nat} (h : tabWfFrom d b t = true) (hi : i < b) :
    tabGet d t i = d := by
  cases t with
  | nil => rfl
  | cons e t =>
    simp only [tabWfFrom, Bool.and_eq_true, decide_eq_true_eq] at h
    have := h.1.1
    simp only [tabGet]
    rw [if_neg (by omega), if_pos (by omega)]

/-- A write leaves every other key alone. -/
theorem tabGet_tabSet_ne {α : Type} [DecidableEq α] {d : α} {t : Tab α} {i j : Nat} (v : α) (hj : j ≠ i)
    (h : tabWf d t = true) : tabGet d (tabSet d t i v) j = tabGet d t j := by
  have key : ∀ (t : Tab α) (b : Nat), tabWfFrom d b t = true → tabGet d (tabSet d t i v) j = tabGet d t j := by
    intro t
    induction t with
    | nil => intro b _; simp only [tabSet]; split <;> simp [tabGet, hj]
    | cons e t ih =>
      intro b hw
      have hw' := hw
      simp only [tabWfFrom, Bool.and_eq_true] at hw
      simp only [tabSet]
      split
      · split
        · rfl
        · simp only [tabGet, hj, if_false]
          split
          · rw [if_neg (by omega), if_pos (by omega)]
          · rfl
      · split
        · rename_i _ he
          split
          · simp only [tabGet]
            rw [if_neg (by omega)]
            split
            · exact tabGet_below hw.2 (by omega)
            · rfl
          · have : ¬j = e.1 := by omega
            simp [tabGet, this]
        · simp only [tabGet, ih _ hw.2]
  exact key t 0 h

/-- A read after a write to the same key gives the value written. -/
theorem tabGet_tabSet_same {α : Type} [DecidableEq α] {d : α} {t : Tab α} (i : Nat) (v : α) (h : tabWf d t = true) :
    tabGet d (tabSet d t i v) i = v := by
  have key : ∀ (t : Tab α) (b : Nat), tabWfFrom d b t = true → tabGet d (tabSet d t i v) i = v := by
    intro t
    induction t with
    | nil => intro b _; simp only [tabSet]; split <;> simp_all [tabGet]
    | cons e t ih =>
      intro b hw
      simp only [tabWfFrom, Bool.and_eq_true] at hw
      simp only [tabSet]
      split
      · split
        · rename_i hlt hv; simp only [tabGet]; rw [if_neg (by omega), if_pos hlt]; exact hv.symm
        · simp [tabGet]
      · split
        · rename_i _ he
          split
          · rename_i hv; rw [tabGet_below hw.2 (by omega)]; exact hv.symm
          · simp only [tabGet]; rw [if_pos he]
        · rename_i h1 h2
          simp only [tabGet]; rw [if_neg h2, if_neg h1]; exact ih _ hw.2
  exact key t 0 h

/-- A read after a write of several keys: the written ones, and every other one as before. -/
theorem tabGet_tabSetMany {α : Type} [DecidableEq α] {d : α} {t : Tab α} (i j : Nat) (vs : List α) (h : tabWf d t = true) :
    tabGet d (tabSetMany d t i vs) j = if i ≤ j then (vs[j - i]?).getD (tabGet d t j) else tabGet d t j := by
  induction vs generalizing t i with
  | nil => simp [tabSetMany]
  | cons v vs ih =>
    simp only [tabSetMany]
    rw [ih (i + 1) (tabSet_wf i v h)]
    rcases Nat.lt_trichotomy j i with hlt | heq | hgt
    · rw [if_neg (by omega), if_neg (by omega), tabGet_tabSet_ne v (by omega) h]
    · subst heq; rw [if_neg (by omega), if_pos (Nat.le_refl _), tabGet_tabSet_same _ v h]; simp
    · rw [if_pos (by omega), if_pos (by omega), tabGet_tabSet_ne v (by omega) h]
      obtain ⟨n, rfl⟩ : ∃ n, j = i + 1 + n := ⟨j - (i + 1), by omega⟩
      rw [show i + 1 + n - i = n + 1 by omega, show i + 1 + n - (i + 1) = n by omega]; simp

/-! ### Memory -/

/-- A write to storage keeps the canonical form of memory. -/
theorem memWrite_wf {s : State} (key : Nat) (bs : List Byte) (h : Memory.wf s.mem = true) :
    Memory.wf (memWrite s key bs).mem = true := tabSetMany_wf key bs h

/-- So does a write to a space of a core. -/
theorem spWrite_wf {s : State} (k : Nat) (sp : Space) (a : Nat) (bs : List Byte) (h : Memory.wf s.mem = true) :
    Memory.wf (spWrite s k sp a bs).mem = true := memWrite_wf _ bs h

/-- So does erasing a received part of a boot image. -/
theorem erasePart_wf {s : State} (base : Nat) (h : Memory.wf s.mem = true) :
    Memory.wf (erasePart s base).mem = true := tabErase_wf _ _ h

/-- Memory after reset is in its canonical form. -/
theorem reset_wf : Memory.wf State.reset.mem = true := rfl

/-- A byte read after a write: a written byte as written, every other byte as before. -/
theorem memByte_memWrite {s : State} (key a : Nat) (bs : List Byte) (h : Memory.wf s.mem = true) :
    memByte (memWrite s key bs) a = if key ≤ a then (bs[a - key]?).getD (memByte s a) else memByte s a :=
  tabGet_tabSetMany key a bs h

theorem memByte_memWrite_outside {s : State} {key a : Nat} {bs : List Byte} (h : Memory.wf s.mem = true)
    (ha : a < key ∨ key + bs.length ≤ a) : memByte (memWrite s key bs) a = memByte s a := by
  rw [memByte_memWrite key a bs h]
  split
  · rw [List.getElem?_eq_none (by omega)]; rfl
  · rfl

end Sys2Proof.Machine
end

