-- ==== Sys2Proof/Laws/Ops.lean ====
section
/-!
SUPPORT. What the shared operations of a slot instruction do: one lemma per answer of the gate, of the restrictions on
the control slot and of the flags.
-/
namespace Sys2Proof.Machine

theorem slotOp_ready {s : State} {i : Instr} {body : State → State} (h : Ready s i) : slotOp s i body = body s := by
  unfold Ready at h; simp [slotOp, h]

theorem slotOp_skip {s : State} {i : Instr} {body : State → State} (h : slotGate s i = .skip) : slotOp s i body = s := by
  simp [slotOp, h]

theorem slotOp_trap {s : State} {i : Instr} {body : State → State} {c v : Nat} (h : slotGate s i = .trap c v) :
    slotOp s i body = raise s c v := by
  simp [slotOp, h]

theorem slotOp_wait {s : State} {i : Instr} {body : State → State} (h : slotGate s i = .wait) :
    slotOp s i body = freeze s .register := by
  simp [slotOp, h]

/-- A gate that is open has met no decode cause. -/
theorem ready_decodeCause {s : State} {i : Instr} (h : Ready s i) : decodeCause (curCore s).curator i = none := by
  unfold Ready slotGate at h
  cases hd : decodeCause (curCore s).curator i with
  | none => rfl
  | some c => simp [hd] at h

theorem ctlOp_ready {s : State} {i : Instr} {last : Bool} {body : State → State} (h : Ready s i)
    (hf : ctlForbidden s i true last = none) : ctlOp s i last body = body s := by
  simp [ctlOp, ready_decodeCause h, hf, slotOp_ready h]

/-- Every instruction of a slot is its own effect behind the gate, and behind the restrictions of the control slot where
R93 and R96 set them. -/
theorem exec_gated (i : Instr) (s : State) (h : isSlot i = true) :
    (∃ body, exec i s = .next (slotOp s i body)) ∨ (∃ last body, exec i s = .next (ctlOp s i last body)) := by
  cases i
  all_goals first
    | exact Or.inl ⟨_, rfl⟩
    | exact Or.inr ⟨_, _, rfl⟩
    | cases h

theorem withFlags_quiet {s : State} {fl : Flg} {body : State → State} (h : floatTrap s fl = 0) :
    withFlags s fl body = body (noteFlags s fl) := by
  simp [withFlags, h, noteFlags]

theorem withFlags_trap {s : State} {fl : Flg} {body : State → State} (h : floatTrap s fl ≠ 0) :
    withFlags s fl body = raise s 0x08 (floatTrap s fl) := by
  simp [withFlags, h]

theorem withLateFlags_quiet {s : State} {fl : Flg} {body : State → State} (h : floatTrap s fl = 0) :
    withLateFlags s fl body = body s := by
  simp [withLateFlags, h]

theorem withLateFlags_trap {s : State} {fl : Flg} {body : State → State} (h : floatTrap s fl ≠ 0) :
    withLateFlags s fl body = raise s 0x08 (floatTrap s fl) := by
  simp [withLateFlags, h]

@[simp] theorem noteFlags_zero (s : State) : noteFlags s 0 = s := by simp [noteFlags, modScr]

end Sys2Proof.Machine
end

