-- ==== Sys2Proof/Laws/PerInstr.lean ====
section
/-!
SUPPORT. The family of statements about each instruction as syntax: the rows that share their words (R124, R353) share
them with the form that decoding gives.
-/
namespace Sys2Proof.Laws

/-- The form that decoding gives an instruction has the same word, and is its own form. -/
def Canonical.Statement (i : Instr) : Prop := encode (canonForm i) = encode i ∧ canonForm (canonForm i) = canonForm i

theorem Canonical.nop : Canonical.Statement (.nop) := ⟨rfl, rfl⟩

theorem Canonical.pbr (b : BitVec 2) (o : BitVec 24) : Canonical.Statement (.pbr b o) := ⟨rfl, rfl⟩

theorem Canonical.pbrx (a : BitVec 5) (e : Bool) (b : BitVec 2) (n : Bool) (p : BitVec 3) : Canonical.Statement (.pbrx a e b n p) := ⟨rfl, rfl⟩

theorem Canonical.br (b : BitVec 2) (n : Bool) (p : BitVec 3) : Canonical.Statement (.br b n p) := ⟨rfl, rfl⟩

theorem Canonical.call (d : BitVec 5) (b : BitVec 2) (n : Bool) (p : BitVec 3) : Canonical.Statement (.call d b n p) := ⟨rfl, rfl⟩

theorem Canonical.loopImm (v : BitVec 3) (l : BitVec 8) (t : BitVec 14) : Canonical.Statement (.loopImm v l t) := ⟨rfl, rfl⟩

theorem Canonical.loopReg (v : BitVec 3) (l : BitVec 8) (a : BitVec 5) (e : Bool) : Canonical.Statement (.loopReg v l a e) := ⟨rfl, rfl⟩

theorem Canonical.loopKeep (v : BitVec 3) (l : BitVec 8) : Canonical.Statement (.loopKeep v l) := ⟨rfl, rfl⟩

theorem Canonical.loopsl (v : BitVec 3) (l : BitVec 8) (h : BitVec 4) : Canonical.Statement (.loopsl v l h) := ⟨rfl, rfl⟩

theorem Canonical.lbrk (v : BitVec 3) (n : Bool) (p : BitVec 3) : Canonical.Statement (.lbrk v n p) := ⟨rfl, rfl⟩

theorem Canonical.waitb (d : BitVec 5) (a : BitVec 5) (e : Bool) (b : BitVec 5) (f : Bool) (n : Bool) (p : BitVec 3) : Canonical.Statement (.waitb d a e b f n p) := ⟨rfl, rfl⟩

theorem Canonical.waitt (a : BitVec 5) (e : Bool) (o : BitVec 3) (n : Bool) (p : BitVec 3) : Canonical.Statement (.waitt a e o n p) := ⟨rfl, rfl⟩

theorem Canonical.done (n : Bool) (p : BitVec 3) : Canonical.Statement (.done n p) := ⟨rfl, rfl⟩

theorem Canonical.ckpt (n : Bool) (p : BitVec 3) : Canonical.Statement (.ckpt n p) := ⟨rfl, rfl⟩

theorem Canonical.fence (k : BitVec 2) (s : BitVec 2) (m : BitVec 16) (n : Bool) (p : BitVec 3) : Canonical.Statement (.fence k s m n p) := ⟨rfl, rfl⟩

theorem Canonical.trap (i : BitVec 16) (n : Bool) (p : BitVec 3) : Canonical.Statement (.trap i n p) := ⟨rfl, rfl⟩

theorem Canonical.brk (i : BitVec 16) (n : Bool) (p : BitVec 3) : Canonical.Statement (.brk i n p) := ⟨rfl, rfl⟩

theorem Canonical.getid (d : BitVec 5) (n : Bool) (p : BitVec 3) : Canonical.Statement (.getid d n p) := ⟨rfl, rfl⟩

theorem Canonical.evpop (d : BitVec 5) (b : BitVec 5) (n : Bool) (p : BitVec 3) : Canonical.Statement (.evpop d b n p) := ⟨rfl, rfl⟩

theorem Canonical.rdct (d : BitVec 5) (c : BitVec 5) (n : Bool) (p : BitVec 3) : Canonical.Statement (.rdct d c n p) := ⟨rfl, rfl⟩

theorem Canonical.rng (d : BitVec 5) (v : BitVec 3) (n : Bool) (p : BitVec 3) : Canonical.Statement (.rng d v n p) := ⟨rfl, rfl⟩

theorem Canonical.mfc (d : BitVec 5) (c : BitVec 11) (n : Bool) (p : BitVec 3) : Canonical.Statement (.mfc d c n p) := ⟨rfl, rfl⟩

theorem Canonical.mtc (a : BitVec 5) (e : Bool) (c : BitVec 11) (n : Bool) (p : BitVec 3) : Canonical.Statement (.mtc a e c n p) := ⟨rfl, rfl⟩

theorem Canonical.mtcKcpc (a : BitVec 5) (e : Bool) (n : Bool) (p : BitVec 3) : Canonical.Statement (.mtcKcpc a e n p) := ⟨rfl, rfl⟩

theorem Canonical.tret (n : Bool) (p : BitVec 3) : Canonical.Statement (.tret n p) := ⟨rfl, rfl⟩

theorem Canonical.halt (a : BitVec 5) (e : Bool) (n : Bool) (p : BitVec 3) : Canonical.Statement (.halt a e n p) := ⟨rfl, rfl⟩

theorem Canonical.haltResume (a : BitVec 5) (e : Bool) (n : Bool) (p : BitVec 3) : Canonical.Statement (.haltResume a e n p) := ⟨rfl, rfl⟩

theorem Canonical.pstop (a : BitVec 5) (e : Bool) (n : Bool) (p : BitVec 3) : Canonical.Statement (.pstop a e n p) := ⟨rfl, rfl⟩

theorem Canonical.pstopThaw (a : BitVec 5) (e : Bool) (n : Bool) (p : BitVec 3) : Canonical.Statement (.pstopThaw a e n p) := ⟨rfl, rfl⟩

theorem Canonical.pdrain (a : BitVec 5) (e : Bool) (n : Bool) (p : BitVec 3) : Canonical.Statement (.pdrain a e n p) := ⟨rfl, rfl⟩

theorem Canonical.csave (a : BitVec 5) (e : Bool) (b : BitVec 5) (f : Bool) (n : Bool) (p : BitVec 3) : Canonical.Statement (.csave a e b f n p) := ⟨rfl, rfl⟩

theorem Canonical.cload (a : BitVec 5) (e : Bool) (b : BitVec 5) (f : Bool) (n : Bool) (p : BitVec 3) : Canonical.Statement (.cload a e b f n p) := ⟨rfl, rfl⟩

theorem Canonical.tlbiAsid (a : BitVec 5) (e : Bool) (b : BitVec 5) (f : Bool) (n : Bool) (p : BitVec 3) : Canonical.Statement (.tlbiAsid a e b f n p) := ⟨rfl, rfl⟩

theorem Canonical.tlbiPage (a : BitVec 5) (e : Bool) (b : BitVec 5) (f : Bool) (n : Bool) (p : BitVec 3) : Canonical.Statement (.tlbiPage a e b f n p) := ⟨rfl, rfl⟩

theorem Canonical.tlbiAll (a : BitVec 5) (e : Bool) (b : BitVec 5) (f : Bool) (n : Bool) (p : BitVec 3) : Canonical.Statement (.tlbiAll a e b f n p) := ⟨rfl, rfl⟩

theorem Canonical.sltw (a : BitVec 5) (e : Bool) (b : BitVec 5) (f : Bool) (n : Bool) (p : BitVec 3) : Canonical.Statement (.sltw a e b f n p) := ⟨rfl, rfl⟩

theorem Canonical.sltwCommit (a : BitVec 5) (e : Bool) (b : BitVec 5) (f : Bool) (n : Bool) (p : BitVec 3) : Canonical.Statement (.sltwCommit a e b f n p) := ⟨rfl, rfl⟩

theorem Canonical.lkey (a : BitVec 5) (e : Bool) (b : BitVec 5) (f : Bool) (n : Bool) (p : BitVec 3) : Canonical.Statement (.lkey a e b f n p) := ⟨rfl, rfl⟩

theorem Canonical.lksw (a : BitVec 5) (e : Bool) (n : Bool) (p : BitVec 3) : Canonical.Statement (.lksw a e n p) := ⟨rfl, rfl⟩

theorem Canonical.retc (a : BitVec 5) (e : Bool) (n : Bool) (p : BitVec 3) : Canonical.Statement (.retc a e n p) := ⟨rfl, rfl⟩

theorem Canonical.retcCore (a : BitVec 5) (e : Bool) (n : Bool) (p : BitVec 3) : Canonical.Statement (.retcCore a e n p) := ⟨rfl, rfl⟩

theorem Canonical.jrsm (a : BitVec 5) (e : Bool) (n : Bool) (p : BitVec 3) : Canonical.Statement (.jrsm a e n p) := ⟨rfl, rfl⟩

theorem Canonical.jkil (a : BitVec 5) (e : Bool) (n : Bool) (p : BitVec 3) : Canonical.Statement (.jkil a e n p) := ⟨rfl, rfl⟩

theorem Canonical.add (d : BitVec 5) (a : BitVec 5) (e : Bool) (b : BitVec 5) (f : Bool) (p : BitVec 3) : Canonical.Statement (.add d a e b f p) := ⟨rfl, rfl⟩

theorem Canonical.sub (d : BitVec 5) (a : BitVec 5) (e : Bool) (b : BitVec 5) (f : Bool) (p : BitVec 3) : Canonical.Statement (.sub d a e b f p) := ⟨rfl, rfl⟩

theorem Canonical.and (d : BitVec 5) (a : BitVec 5) (e : Bool) (b : BitVec 5) (f : Bool) (p : BitVec 3) : Canonical.Statement (.and d a e b f p) := ⟨rfl, rfl⟩

theorem Canonical.or (d : BitVec 5) (a : BitVec 5) (e : Bool) (b : BitVec 5) (f : Bool) (p : BitVec 3) : Canonical.Statement (.or d a e b f p) := ⟨rfl, rfl⟩

theorem Canonical.xor (d : BitVec 5) (a : BitVec 5) (e : Bool) (b : BitVec 5) (f : Bool) (p : BitVec 3) : Canonical.Statement (.xor d a e b f p) := ⟨rfl, rfl⟩

theorem Canonical.andn (d : BitVec 5) (a : BitVec 5) (e : Bool) (b : BitVec 5) (f : Bool) (p : BitVec 3) : Canonical.Statement (.andn d a e b f p) := ⟨rfl, rfl⟩

theorem Canonical.sll (d : BitVec 5) (a : BitVec 5) (e : Bool) (b : BitVec 5) (f : Bool) (p : BitVec 3) : Canonical.Statement (.sll d a e b f p) := ⟨rfl, rfl⟩

theorem Canonical.srl (d : BitVec 5) (a : BitVec 5) (e : Bool) (b : BitVec 5) (f : Bool) (p : BitVec 3) : Canonical.Statement (.srl d a e b f p) := ⟨rfl, rfl⟩

theorem Canonical.sra (d : BitVec 5) (a : BitVec 5) (e : Bool) (b : BitVec 5) (f : Bool) (p : BitVec 3) : Canonical.Statement (.sra d a e b f p) := ⟨rfl, rfl⟩

theorem Canonical.rol (d : BitVec 5) (a : BitVec 5) (e : Bool) (b : BitVec 5) (f : Bool) (p : BitVec 3) : Canonical.Statement (.rol d a e b f p) := ⟨rfl, rfl⟩

theorem Canonical.min (d : BitVec 5) (a : BitVec 5) (e : Bool) (b : BitVec 5) (f : Bool) (p : BitVec 3) : Canonical.Statement (.min d a e b f p) := ⟨rfl, rfl⟩

theorem Canonical.max (d : BitVec 5) (a : BitVec 5) (e : Bool) (b : BitVec 5) (f : Bool) (p : BitVec 3) : Canonical.Statement (.max d a e b f p) := ⟨rfl, rfl⟩

theorem Canonical.minu (d : BitVec 5) (a : BitVec 5) (e : Bool) (b : BitVec 5) (f : Bool) (p : BitVec 3) : Canonical.Statement (.minu d a e b f p) := ⟨rfl, rfl⟩

theorem Canonical.maxu (d : BitVec 5) (a : BitVec 5) (e : Bool) (b : BitVec 5) (f : Bool) (p : BitVec 3) : Canonical.Statement (.maxu d a e b f p) := ⟨rfl, rfl⟩

theorem Canonical.mul (d : BitVec 5) (a : BitVec 5) (e : Bool) (b : BitVec 5) (f : Bool) (p : BitVec 3) : Canonical.Statement (.mul d a e b f p) := ⟨rfl, rfl⟩

theorem Canonical.mulh (d : BitVec 5) (a : BitVec 5) (e : Bool) (b : BitVec 5) (f : Bool) (p : BitVec 3) : Canonical.Statement (.mulh d a e b f p) := ⟨rfl, rfl⟩

theorem Canonical.mulhu (d : BitVec 5) (a : BitVec 5) (e : Bool) (b : BitVec 5) (f : Bool) (p : BitVec 3) : Canonical.Statement (.mulhu d a e b f p) := ⟨rfl, rfl⟩

theorem Canonical.div (d : BitVec 5) (a : BitVec 5) (e : Bool) (b : BitVec 5) (f : Bool) (p : BitVec 3) : Canonical.Statement (.div d a e b f p) := ⟨rfl, rfl⟩

theorem Canonical.divu (d : BitVec 5) (a : BitVec 5) (e : Bool) (b : BitVec 5) (f : Bool) (p : BitVec 3) : Canonical.Statement (.divu d a e b f p) := ⟨rfl, rfl⟩

theorem Canonical.rem (d : BitVec 5) (a : BitVec 5) (e : Bool) (b : BitVec 5) (f : Bool) (p : BitVec 3) : Canonical.Statement (.rem d a e b f p) := ⟨rfl, rfl⟩

theorem Canonical.remu (d : BitVec 5) (a : BitVec 5) (e : Bool) (b : BitVec 5) (f : Bool) (p : BitVec 3) : Canonical.Statement (.remu d a e b f p) := ⟨rfl, rfl⟩

theorem Canonical.clz (d : BitVec 5) (a : BitVec 5) (e : Bool) (p : BitVec 3) : Canonical.Statement (.clz d a e p) := ⟨rfl, rfl⟩

theorem Canonical.ctz (d : BitVec 5) (a : BitVec 5) (e : Bool) (p : BitVec 3) : Canonical.Statement (.ctz d a e p) := ⟨rfl, rfl⟩

theorem Canonical.popc (d : BitVec 5) (a : BitVec 5) (e : Bool) (p : BitVec 3) : Canonical.Statement (.popc d a e p) := ⟨rfl, rfl⟩

theorem Canonical.brev (d : BitVec 5) (a : BitVec 5) (e : Bool) (p : BitVec 3) : Canonical.Statement (.brev d a e p) := ⟨rfl, rfl⟩

theorem Canonical.extb (d : BitVec 5) (a : BitVec 5) (e : Bool) (p : BitVec 3) : Canonical.Statement (.extb d a e p) := ⟨rfl, rfl⟩

theorem Canonical.exth (d : BitVec 5) (a : BitVec 5) (e : Bool) (p : BitVec 3) : Canonical.Statement (.exth d a e p) := ⟨rfl, rfl⟩

theorem Canonical.extw (d : BitVec 5) (a : BitVec 5) (e : Bool) (p : BitVec 3) : Canonical.Statement (.extw d a e p) := ⟨rfl, rfl⟩

theorem Canonical.exbu (d : BitVec 5) (a : BitVec 5) (e : Bool) (p : BitVec 3) : Canonical.Statement (.exbu d a e p) := ⟨rfl, rfl⟩

theorem Canonical.exhu (d : BitVec 5) (a : BitVec 5) (e : Bool) (p : BitVec 3) : Canonical.Statement (.exhu d a e p) := ⟨rfl, rfl⟩

theorem Canonical.exwu (d : BitVec 5) (a : BitVec 5) (e : Bool) (p : BitVec 3) : Canonical.Statement (.exwu d a e p) := ⟨rfl, rfl⟩

theorem Canonical.addi (d : BitVec 5) (a : BitVec 5) (e : Bool) (i : BitVec 12) (p : BitVec 3) : Canonical.Statement (.addi d a e i p) := ⟨rfl, rfl⟩

theorem Canonical.andi (d : BitVec 5) (a : BitVec 5) (e : Bool) (i : BitVec 12) (p : BitVec 3) : Canonical.Statement (.andi d a e i p) := ⟨rfl, rfl⟩

theorem Canonical.ori (d : BitVec 5) (a : BitVec 5) (e : Bool) (i : BitVec 12) (p : BitVec 3) : Canonical.Statement (.ori d a e i p) := ⟨rfl, rfl⟩

theorem Canonical.xori (d : BitVec 5) (a : BitVec 5) (e : Bool) (i : BitVec 12) (p : BitVec 3) : Canonical.Statement (.xori d a e i p) := ⟨rfl, rfl⟩

theorem Canonical.slli (d : BitVec 5) (a : BitVec 5) (e : Bool) (s : BitVec 6) (p : BitVec 3) : Canonical.Statement (.slli d a e s p) := ⟨rfl, rfl⟩

theorem Canonical.srli (d : BitVec 5) (a : BitVec 5) (e : Bool) (s : BitVec 6) (p : BitVec 3) : Canonical.Statement (.srli d a e s p) := ⟨rfl, rfl⟩

theorem Canonical.srai (d : BitVec 5) (a : BitVec 5) (e : Bool) (s : BitVec 6) (p : BitVec 3) : Canonical.Statement (.srai d a e s p) := ⟨rfl, rfl⟩

theorem Canonical.muli (d : BitVec 5) (a : BitVec 5) (e : Bool) (i : BitVec 12) (p : BitVec 3) : Canonical.Statement (.muli d a e i p) := ⟨rfl, rfl⟩

theorem Canonical.lim (d : BitVec 5) (h : BitVec 2) (i : BitVec 16) (p : BitVec 3) : Canonical.Statement (.lim d h i p) := ⟨rfl, rfl⟩

theorem Canonical.lik (d : BitVec 5) (h : BitVec 2) (i : BitVec 16) (p : BitVec 3) : Canonical.Statement (.lik d h i p) := ⟨rfl, rfl⟩

theorem Canonical.cmp (d : BitVec 3) (c : BitVec 4) (a : BitVec 5) (e : Bool) (b : BitVec 5) (f : Bool) (p : BitVec 3) : Canonical.Statement (.cmp d c a e b f p) := ⟨rfl, rfl⟩

theorem Canonical.cmpi (d : BitVec 3) (c : BitVec 4) (a : BitVec 5) (e : Bool) (i : BitVec 10) (p : BitVec 3) : Canonical.Statement (.cmpi d c a e i p) := ⟨rfl, rfl⟩

theorem Canonical.sel (d : BitVec 5) (a : BitVec 5) (e : Bool) (b : BitVec 5) (f : Bool) (s : BitVec 3) (p : BitVec 3) : Canonical.Statement (.sel d a e b f s p) := ⟨rfl, rfl⟩

theorem Canonical.pand (d : BitVec 3) (a : BitVec 3) (e : Bool) (b : BitVec 3) (f : Bool) (p : BitVec 3) : Canonical.Statement (.pand d a e b f p) := ⟨rfl, rfl⟩

theorem Canonical.por (d : BitVec 3) (a : BitVec 3) (e : Bool) (b : BitVec 3) (f : Bool) (p : BitVec 3) : Canonical.Statement (.por d a e b f p) := ⟨rfl, rfl⟩

theorem Canonical.pxor (d : BitVec 3) (a : BitVec 3) (e : Bool) (b : BitVec 3) (f : Bool) (p : BitVec 3) : Canonical.Statement (.pxor d a e b f p) := ⟨rfl, rfl⟩

theorem Canonical.pnot (d : BitVec 3) (a : BitVec 3) (e : Bool) (p : BitVec 3) : Canonical.Statement (.pnot d a e p) := ⟨rfl, rfl⟩

theorem Canonical.dadd (d : BitVec 5) (a : BitVec 5) (e : Bool) (b : BitVec 5) (f : Bool) (r : BitVec 3) (p : BitVec 3) : Canonical.Statement (.dadd d a e b f r p) := ⟨rfl, rfl⟩

theorem Canonical.dsub (d : BitVec 5) (a : BitVec 5) (e : Bool) (b : BitVec 5) (f : Bool) (r : BitVec 3) (p : BitVec 3) : Canonical.Statement (.dsub d a e b f r p) := ⟨rfl, rfl⟩

theorem Canonical.dmul (d : BitVec 5) (a : BitVec 5) (e : Bool) (b : BitVec 5) (f : Bool) (r : BitVec 3) (p : BitVec 3) : Canonical.Statement (.dmul d a e b f r p) := ⟨rfl, rfl⟩

theorem Canonical.ddiv (d : BitVec 5) (a : BitVec 5) (e : Bool) (b : BitVec 5) (f : Bool) (r : BitVec 3) (p : BitVec 3) : Canonical.Statement (.ddiv d a e b f r p) := ⟨rfl, rfl⟩

theorem Canonical.dsqrt (d : BitVec 5) (a : BitVec 5) (e : Bool) (r : BitVec 3) (p : BitVec 3) : Canonical.Statement (.dsqrt d a e r p) := ⟨rfl, rfl⟩

theorem Canonical.dmin (d : BitVec 5) (a : BitVec 5) (e : Bool) (b : BitVec 5) (f : Bool) (p : BitVec 3) : Canonical.Statement (.dmin d a e b f p) := ⟨rfl, rfl⟩

theorem Canonical.dmax (d : BitVec 5) (a : BitVec 5) (e : Bool) (b : BitVec 5) (f : Bool) (p : BitVec 3) : Canonical.Statement (.dmax d a e b f p) := ⟨rfl, rfl⟩

theorem Canonical.dabs (d : BitVec 5) (a : BitVec 5) (e : Bool) (p : BitVec 3) : Canonical.Statement (.dabs d a e p) := ⟨rfl, rfl⟩

theorem Canonical.dneg (d : BitVec 5) (a : BitVec 5) (e : Bool) (p : BitVec 3) : Canonical.Statement (.dneg d a e p) := ⟨rfl, rfl⟩

theorem Canonical.dfma (d : BitVec 5) (a : BitVec 5) (e : Bool) (b : BitVec 5) (f : Bool) (r : BitVec 3) (p : BitVec 3) : Canonical.Statement (.dfma d a e b f r p) := ⟨rfl, rfl⟩

theorem Canonical.dfms (d : BitVec 5) (a : BitVec 5) (e : Bool) (b : BitVec 5) (f : Bool) (r : BitVec 3) (p : BitVec 3) : Canonical.Statement (.dfms d a e b f r p) := ⟨rfl, rfl⟩

theorem Canonical.dnfma (d : BitVec 5) (a : BitVec 5) (e : Bool) (b : BitVec 5) (f : Bool) (r : BitVec 3) (p : BitVec 3) : Canonical.Statement (.dnfma d a e b f r p) := ⟨rfl, rfl⟩

theorem Canonical.dnfms (d : BitVec 5) (a : BitVec 5) (e : Bool) (b : BitVec 5) (f : Bool) (r : BitVec 3) (p : BitVec 3) : Canonical.Statement (.dnfms d a e b f r p) := ⟨rfl, rfl⟩

theorem Canonical.fadd (d : BitVec 5) (a : BitVec 5) (e : Bool) (b : BitVec 5) (f : Bool) (r : BitVec 3) (p : BitVec 3) : Canonical.Statement (.fadd d a e b f r p) := ⟨rfl, rfl⟩

theorem Canonical.fsub (d : BitVec 5) (a : BitVec 5) (e : Bool) (b : BitVec 5) (f : Bool) (r : BitVec 3) (p : BitVec 3) : Canonical.Statement (.fsub d a e b f r p) := ⟨rfl, rfl⟩

theorem Canonical.fmul (d : BitVec 5) (a : BitVec 5) (e : Bool) (b : BitVec 5) (f : Bool) (r : BitVec 3) (p : BitVec 3) : Canonical.Statement (.fmul d a e b f r p) := ⟨rfl, rfl⟩

theorem Canonical.fdiv (d : BitVec 5) (a : BitVec 5) (e : Bool) (b : BitVec 5) (f : Bool) (r : BitVec 3) (p : BitVec 3) : Canonical.Statement (.fdiv d a e b f r p) := ⟨rfl, rfl⟩

theorem Canonical.fsqrt (d : BitVec 5) (a : BitVec 5) (e : Bool) (r : BitVec 3) (p : BitVec 3) : Canonical.Statement (.fsqrt d a e r p) := ⟨rfl, rfl⟩

theorem Canonical.fmin (d : BitVec 5) (a : BitVec 5) (e : Bool) (b : BitVec 5) (f : Bool) (p : BitVec 3) : Canonical.Statement (.fmin d a e b f p) := ⟨rfl, rfl⟩

theorem Canonical.fmax (d : BitVec 5) (a : BitVec 5) (e : Bool) (b : BitVec 5) (f : Bool) (p : BitVec 3) : Canonical.Statement (.fmax d a e b f p) := ⟨rfl, rfl⟩

theorem Canonical.ffma (d : BitVec 5) (a : BitVec 5) (e : Bool) (b : BitVec 5) (f : Bool) (r : BitVec 3) (p : BitVec 3) : Canonical.Statement (.ffma d a e b f r p) := ⟨rfl, rfl⟩

theorem Canonical.i2d (d : BitVec 5) (a : BitVec 5) (e : Bool) (r : BitVec 3) (p : BitVec 3) : Canonical.Statement (.i2d d a e r p) := ⟨rfl, rfl⟩

theorem Canonical.u2d (d : BitVec 5) (a : BitVec 5) (e : Bool) (r : BitVec 3) (p : BitVec 3) : Canonical.Statement (.u2d d a e r p) := ⟨rfl, rfl⟩

theorem Canonical.d2i (d : BitVec 5) (a : BitVec 5) (e : Bool) (r : BitVec 3) (p : BitVec 3) : Canonical.Statement (.d2i d a e r p) := ⟨rfl, rfl⟩

theorem Canonical.d2u (d : BitVec 5) (a : BitVec 5) (e : Bool) (r : BitVec 3) (p : BitVec 3) : Canonical.Statement (.d2u d a e r p) := ⟨rfl, rfl⟩

theorem Canonical.f2d (d : BitVec 5) (a : BitVec 5) (e : Bool) (r : BitVec 3) (p : BitVec 3) : Canonical.Statement (.f2d d a e r p) := ⟨rfl, rfl⟩

theorem Canonical.d2f (d : BitVec 5) (a : BitVec 5) (e : Bool) (r : BitVec 3) (p : BitVec 3) : Canonical.Statement (.d2f d a e r p) := ⟨rfl, rfl⟩

theorem Canonical.i2f (d : BitVec 5) (a : BitVec 5) (e : Bool) (r : BitVec 3) (p : BitVec 3) : Canonical.Statement (.i2f d a e r p) := ⟨rfl, rfl⟩

theorem Canonical.f2i (d : BitVec 5) (a : BitVec 5) (e : Bool) (r : BitVec 3) (p : BitVec 3) : Canonical.Statement (.f2i d a e r p) := ⟨rfl, rfl⟩

theorem Canonical.mfs (d : BitVec 5) (s : BitVec 12) (p : BitVec 3) : Canonical.Statement (.mfs d s p) := ⟨rfl, rfl⟩

theorem Canonical.mts (a : BitVec 5) (e : Bool) (s : BitVec 12) (p : BitVec 3) : Canonical.Statement (.mts a e s p) := ⟨rfl, rfl⟩

theorem Canonical.vadd (d : BitVec 5) (a : BitVec 5) (e : Bool) (b : BitVec 5) (f : Bool) (t : BitVec 3) (m : BitVec 4) (u : BitVec 2) : Canonical.Statement (.vadd d a e b f t m u) := ⟨rfl, rfl⟩

theorem Canonical.vsub (d : BitVec 5) (a : BitVec 5) (e : Bool) (b : BitVec 5) (f : Bool) (t : BitVec 3) (m : BitVec 4) (u : BitVec 2) : Canonical.Statement (.vsub d a e b f t m u) := ⟨rfl, rfl⟩

theorem Canonical.vmul (d : BitVec 5) (a : BitVec 5) (e : Bool) (b : BitVec 5) (f : Bool) (t : BitVec 3) (m : BitVec 4) (u : BitVec 2) : Canonical.Statement (.vmul d a e b f t m u) := ⟨rfl, rfl⟩

theorem Canonical.vfma (d : BitVec 5) (a : BitVec 5) (e : Bool) (b : BitVec 5) (f : Bool) (t : BitVec 3) (m : BitVec 4) (u : BitVec 2) : Canonical.Statement (.vfma d a e b f t m u) := ⟨rfl, rfl⟩

theorem Canonical.vfms (d : BitVec 5) (a : BitVec 5) (e : Bool) (b : BitVec 5) (f : Bool) (t : BitVec 3) (m : BitVec 4) (u : BitVec 2) : Canonical.Statement (.vfms d a e b f t m u) := ⟨rfl, rfl⟩

theorem Canonical.vmin (d : BitVec 5) (a : BitVec 5) (e : Bool) (b : BitVec 5) (f : Bool) (t : BitVec 3) (m : BitVec 4) (u : BitVec 2) : Canonical.Statement (.vmin d a e b f t m u) := ⟨rfl, rfl⟩

theorem Canonical.vmax (d : BitVec 5) (a : BitVec 5) (e : Bool) (b : BitVec 5) (f : Bool) (t : BitVec 3) (m : BitVec 4) (u : BitVec 2) : Canonical.Statement (.vmax d a e b f t m u) := ⟨rfl, rfl⟩

theorem Canonical.vmaxm (d : BitVec 5) (a : BitVec 5) (e : Bool) (b : BitVec 5) (f : Bool) (t : BitVec 3) (m : BitVec 4) (u : BitVec 2) : Canonical.Statement (.vmaxm d a e b f t m u) := ⟨rfl, rfl⟩

theorem Canonical.vabs (d : BitVec 5) (a : BitVec 5) (e : Bool) (t : BitVec 3) (m : BitVec 4) : Canonical.Statement (.vabs d a e t m) := ⟨rfl, rfl⟩

theorem Canonical.vneg (d : BitVec 5) (a : BitVec 5) (e : Bool) (t : BitVec 3) (m : BitVec 4) : Canonical.Statement (.vneg d a e t m) := ⟨rfl, rfl⟩

theorem Canonical.vcmpeq (d : BitVec 5) (a : BitVec 5) (e : Bool) (b : BitVec 5) (f : Bool) (t : BitVec 3) (m : BitVec 4) (u : BitVec 2) : Canonical.Statement (.vcmpeq d a e b f t m u) := ⟨rfl, rfl⟩

theorem Canonical.vcmplt (d : BitVec 5) (a : BitVec 5) (e : Bool) (b : BitVec 5) (f : Bool) (t : BitVec 3) (m : BitVec 4) (u : BitVec 2) : Canonical.Statement (.vcmplt d a e b f t m u) := ⟨rfl, rfl⟩

theorem Canonical.vcmple (d : BitVec 5) (a : BitVec 5) (e : Bool) (b : BitVec 5) (f : Bool) (t : BitVec 3) (m : BitVec 4) (u : BitVec 2) : Canonical.Statement (.vcmple d a e b f t m u) := ⟨rfl, rfl⟩

theorem Canonical.vcmpun (d : BitVec 5) (a : BitVec 5) (e : Bool) (b : BitVec 5) (f : Bool) (t : BitVec 3) (m : BitVec 4) (u : BitVec 2) : Canonical.Statement (.vcmpun d a e b f t m u) := ⟨rfl, rfl⟩

theorem Canonical.vcmpm (d : BitVec 4) (a : BitVec 5) (e : Bool) : Canonical.Statement (.vcmpm d a e) := ⟨rfl, rfl⟩

theorem Canonical.vand (d : BitVec 5) (a : BitVec 5) (e : Bool) (b : BitVec 5) (f : Bool) (t : BitVec 3) (m : BitVec 4) (u : BitVec 2) : Canonical.Statement (.vand d a e b f t m u) := ⟨rfl, rfl⟩

theorem Canonical.vor (d : BitVec 5) (a : BitVec 5) (e : Bool) (b : BitVec 5) (f : Bool) (t : BitVec 3) (m : BitVec 4) (u : BitVec 2) : Canonical.Statement (.vor d a e b f t m u) := ⟨rfl, rfl⟩

theorem Canonical.vxor (d : BitVec 5) (a : BitVec 5) (e : Bool) (b : BitVec 5) (f : Bool) (t : BitVec 3) (m : BitVec 4) (u : BitVec 2) : Canonical.Statement (.vxor d a e b f t m u) := ⟨rfl, rfl⟩

theorem Canonical.vshl (d : BitVec 5) (a : BitVec 5) (e : Bool) (b : BitVec 5) (f : Bool) (t : BitVec 3) (m : BitVec 4) (u : BitVec 2) : Canonical.Statement (.vshl d a e b f t m u) := ⟨rfl, rfl⟩

theorem Canonical.vshr (d : BitVec 5) (a : BitVec 5) (e : Bool) (b : BitVec 5) (f : Bool) (t : BitVec 3) (m : BitVec 4) (u : BitVec 2) : Canonical.Statement (.vshr d a e b f t m u) := ⟨rfl, rfl⟩

theorem Canonical.vsra (d : BitVec 5) (a : BitVec 5) (e : Bool) (b : BitVec 5) (f : Bool) (t : BitVec 3) (m : BitVec 4) (u : BitVec 2) : Canonical.Statement (.vsra d a e b f t m u) := ⟨rfl, rfl⟩

theorem Canonical.vbld (d : BitVec 5) (a : BitVec 5) (e : Bool) (b : BitVec 5) (f : Bool) (t : BitVec 3) (m : BitVec 4) (u : BitVec 2) : Canonical.Statement (.vbld d a e b f t m u) := ⟨rfl, rfl⟩

theorem Canonical.vbc (d : BitVec 5) (b : BitVec 5) (f : Bool) (t : BitVec 3) (m : BitVec 4) : Canonical.Statement (.vbc d b f t m) := ⟨rfl, rfl⟩

theorem Canonical.vins (d : BitVec 5) (a : BitVec 5) (e : Bool) (b : BitVec 5) (f : Bool) (t : BitVec 3) (m : BitVec 4) : Canonical.Statement (.vins d a e b f t m) := ⟨rfl, rfl⟩

theorem Canonical.vext (d : BitVec 5) (a : BitVec 5) (e : Bool) (b : BitVec 5) (f : Bool) (t : BitVec 3) : Canonical.Statement (.vext d a e b f t) := ⟨rfl, rfl⟩

theorem Canonical.vperm (d : BitVec 5) (a : BitVec 5) (e : Bool) (b : BitVec 5) (f : Bool) (t : BitVec 3) (m : BitVec 4) : Canonical.Statement (.vperm d a e b f t m) := ⟨rfl, rfl⟩

theorem Canonical.vrot (d : BitVec 5) (a : BitVec 5) (e : Bool) (b : BitVec 5) (f : Bool) (t : BitVec 3) (m : BitVec 4) (u : BitVec 2) : Canonical.Statement (.vrot d a e b f t m u) := ⟨rfl, rfl⟩

theorem Canonical.vred (d : BitVec 5) (a : BitVec 5) (e : Bool) (o : BitVec 5) (t : BitVec 3) (m : BitVec 4) : Canonical.Statement (.vred d a e o t m) := ⟨rfl, rfl⟩

theorem Canonical.vscan (d : BitVec 5) (a : BitVec 5) (e : Bool) (o : BitVec 5) (t : BitVec 3) (m : BitVec 4) : Canonical.Statement (.vscan d a e o t m) := ⟨rfl, rfl⟩

theorem Canonical.vcvt (d : BitVec 5) (a : BitVec 5) (e : Bool) (r : Bool) (c : BitVec 4) (s : Bool) (t : BitVec 3) (m : BitVec 4) : Canonical.Statement (.vcvt d a e r c s t m) := ⟨rfl, rfl⟩

theorem Canonical.vqnt (d : BitVec 5) (a : BitVec 5) (e : Bool) (b : BitVec 5) (f : Bool) (t : BitVec 3) (m : BitVec 4) : Canonical.Statement (.vqnt d a e b f t m) := ⟨rfl, rfl⟩

theorem Canonical.vdqnt (d : BitVec 5) (a : BitVec 5) (e : Bool) (b : BitVec 5) (f : Bool) (t : BitVec 3) (m : BitVec 4) : Canonical.Statement (.vdqnt d a e b f t m) := ⟨rfl, rfl⟩

theorem Canonical.vhad (d : BitVec 5) (a : BitVec 5) (e : Bool) (c : Bool) (s : BitVec 3) (t : BitVec 3) (m : BitVec 4) : Canonical.Statement (.vhad d a e c s t m) := ⟨rfl, rfl⟩

theorem Canonical.vsmrg (d : BitVec 5) (a : BitVec 5) (e : Bool) (t : BitVec 3) (m : BitVec 4) : Canonical.Statement (.vsmrg d a e t m) := ⟨rfl, rfl⟩

theorem Canonical.vsmup (d : BitVec 5) (a : BitVec 5) (e : Bool) (b : BitVec 5) (f : Bool) (t : BitVec 3) (m : BitVec 4) : Canonical.Statement (.vsmup d a e b f t m) := ⟨rfl, rfl⟩

theorem Canonical.vchc (s : BitVec 3) (o : BitVec 5) (b : BitVec 5) (f : Bool) (t : BitVec 3) (h : BitVec 4) (u : BitVec 2) : Canonical.Statement (.vchc s o b f t h u) := ⟨rfl, rfl⟩

theorem Canonical.vch (d : BitVec 5) (a : BitVec 5) (e : Bool) (t : BitVec 3) (m : BitVec 4) : Canonical.Statement (.vch d a e t m) := ⟨rfl, rfl⟩

theorem Canonical.mand (d : BitVec 4) (a : BitVec 4) (e : Bool) (b : BitVec 4) (f : Bool) : Canonical.Statement (.mand d a e b f) := ⟨rfl, rfl⟩

theorem Canonical.mor (d : BitVec 4) (a : BitVec 4) (e : Bool) (b : BitVec 4) (f : Bool) : Canonical.Statement (.mor d a e b f) := ⟨rfl, rfl⟩

theorem Canonical.mxor (d : BitVec 4) (a : BitVec 4) (e : Bool) (b : BitVec 4) (f : Bool) : Canonical.Statement (.mxor d a e b f) := ⟨rfl, rfl⟩

theorem Canonical.mnot (d : BitVec 4) (a : BitVec 4) (e : Bool) : Canonical.Statement (.mnot d a e) := ⟨rfl, rfl⟩

theorem Canonical.mfx (d : BitVec 5) (a : BitVec 4) (e : Bool) : Canonical.Statement (.mfx d a e) := ⟨rfl, rfl⟩

theorem Canonical.mtx (d : BitVec 4) (a : BitVec 5) (e : Bool) : Canonical.Statement (.mtx d a e) := ⟨rfl, rfl⟩

theorem Canonical.mbitSet (d : BitVec 4) (a : BitVec 4) (e : Bool) (i : BitVec 4) : Canonical.Statement (.mbitSet d a e i) := ⟨rfl, rfl⟩

theorem Canonical.mbitClr (d : BitVec 4) (a : BitVec 4) (e : Bool) (i : BitVec 4) : Canonical.Statement (.mbitClr d a e i) := ⟨rfl, rfl⟩

theorem Canonical.mbitInv (d : BitVec 4) (a : BitVec 4) (e : Bool) (i : BitVec 4) : Canonical.Statement (.mbitInv d a e i) := ⟨rfl, rfl⟩

theorem Canonical.vexp2 (d : BitVec 5) (a : BitVec 5) (e : Bool) (t : BitVec 3) (m : BitVec 4) : Canonical.Statement (.vexp2 d a e t m) := ⟨rfl, rfl⟩

theorem Canonical.vlog2 (d : BitVec 5) (a : BitVec 5) (e : Bool) (t : BitVec 3) (m : BitVec 4) : Canonical.Statement (.vlog2 d a e t m) := ⟨rfl, rfl⟩

theorem Canonical.vrcp (d : BitVec 5) (a : BitVec 5) (e : Bool) (t : BitVec 3) (m : BitVec 4) : Canonical.Statement (.vrcp d a e t m) := ⟨rfl, rfl⟩

theorem Canonical.vrsq (d : BitVec 5) (a : BitVec 5) (e : Bool) (t : BitVec 3) (m : BitVec 4) : Canonical.Statement (.vrsq d a e t m) := ⟨rfl, rfl⟩

theorem Canonical.vsqrt (d : BitVec 5) (a : BitVec 5) (e : Bool) (t : BitVec 3) (m : BitVec 4) : Canonical.Statement (.vsqrt d a e t m) := ⟨rfl, rfl⟩

theorem Canonical.vsincos (d : BitVec 5) (a : BitVec 5) (e : Bool) (t : BitVec 3) (m : BitVec 4) : Canonical.Statement (.vsincos d a e t m) := ⟨rfl, rfl⟩

theorem Canonical.vtanh (d : BitVec 5) (a : BitVec 5) (e : Bool) (t : BitVec 3) (m : BitVec 4) : Canonical.Statement (.vtanh d a e t m) := ⟨rfl, rfl⟩

theorem Canonical.mac (r : BitVec 8) (s : BitVec 5) (o : BitVec 2) (e : Bool) (p : BitVec 3) : Canonical.Statement (.mac r s o e p) := ⟨rfl, rfl⟩

theorem Canonical.mwld (k : BitVec 6) (s : BitVec 4) (p : BitVec 3) : Canonical.Statement (.mwld k s p) := ⟨rfl, rfl⟩

theorem Canonical.mswp (p : BitVec 3) : Canonical.Statement (.mswp p) := ⟨rfl, rfl⟩

theorem Canonical.mdrn (d : BitVec 5) (r : BitVec 8) (s : BitVec 4) (m : Bool) (c : Bool) (p : BitVec 3) : Canonical.Statement (.mdrn d r s m c p) := ⟨rfl, rfl⟩

theorem Canonical.mfmt (a : BitVec 4) (w : BitVec 4) (p : BitVec 3) : Canonical.Statement (.mfmt a w p) := ⟨rfl, rfl⟩

theorem Canonical.mchk (p : BitVec 3) : Canonical.Statement (.mchk p) := ⟨rfl, rfl⟩

theorem Canonical.mloc (p : BitVec 3) : Canonical.Statement (.mloc p) := ⟨rfl, rfl⟩

theorem Canonical.mfix (p : BitVec 3) : Canonical.Statement (.mfix p) := ⟨rfl, rfl⟩

theorem Canonical.mmpb (a : BitVec 5) (e : Bool) (p : BitVec 3) : Canonical.Statement (.mmpb a e p) := ⟨rfl, rfl⟩

theorem Canonical.mclr (r : BitVec 8) (c : BitVec 5) (p : BitVec 3) : Canonical.Statement (.mclr r c p) := ⟨rfl, rfl⟩

theorem Canonical.vld (d : BitVec 5) (s : BitVec 4) (p : BitVec 3) : Canonical.Statement (.vld d s p) := ⟨rfl, rfl⟩

theorem Canonical.vst (v : BitVec 5) (s : BitVec 4) (e : Bool) (p : BitVec 3) : Canonical.Statement (.vst v s e p) := ⟨rfl, rfl⟩

theorem Canonical.vlda (d : BitVec 5) (a : BitVec 5) (e : Bool) (s : Bool) (o : BitVec 10) (p : BitVec 3) : Canonical.Statement (.vlda d a e s o p) := ⟨rfl, rfl⟩

theorem Canonical.vsta (v : BitVec 5) (a : BitVec 5) (e : Bool) (f : Bool) (s : Bool) (o : BitVec 10) (p : BitVec 3) : Canonical.Statement (.vsta v a e f s o p) := ⟨rfl, rfl⟩

theorem Canonical.lds (d : BitVec 5) (a : BitVec 5) (e : Bool) (s : Bool) (z : BitVec 2) (g : Bool) (o : BitVec 7) (p : BitVec 3) : Canonical.Statement (.lds d a e s z g o p) := ⟨rfl, rfl⟩

theorem Canonical.sts (v : BitVec 5) (a : BitVec 5) (e : Bool) (f : Bool) (s : Bool) (z : BitVec 2) (o : BitVec 7) (p : BitVec 3) : Canonical.Statement (.sts v a e f s z o p) := ⟨rfl, rfl⟩

theorem Canonical.acst (r : BitVec 8) (s : BitVec 4) (a : BitVec 5) (e : Bool) (p : BitVec 3) : Canonical.Statement (.acst r s a e p) := ⟨rfl, rfl⟩

theorem Canonical.acld (r : BitVec 8) (s : BitVec 4) (a : BitVec 5) (e : Bool) (p : BitVec 3) : Canonical.Statement (.acld r s a e p) := ⟨rfl, rfl⟩

theorem Canonical.stcfg (s : BitVec 4) (a : BitVec 5) (e : Bool) (o : BitVec 10) (p : BitVec 3) : Canonical.Statement (.stcfg s a e o p) := ⟨rfl, rfl⟩

theorem Canonical.stget (d : BitVec 5) (s : BitVec 4) (l : BitVec 3) (p : BitVec 3) : Canonical.Statement (.stget d s l p) := ⟨rfl, rfl⟩

theorem Canonical.stset (v : BitVec 5) (s : BitVec 4) (e : Bool) (l : BitVec 3) (p : BitVec 3) : Canonical.Statement (.stset v s e l p) := ⟨rfl, rfl⟩

theorem Canonical.stadv (s : BitVec 4) (l : BitVec 3) (p : BitVec 3) : Canonical.Statement (.stadv s l p) := ⟨rfl, rfl⟩

theorem Canonical.rpop (o : BitVec 3) (p : BitVec 3) : Canonical.Statement (.rpop o p) := ⟨rfl, rfl⟩

theorem Canonical.xrd (d : BitVec 5) (a : BitVec 5) (e : Bool) (o : BitVec 10) (p : BitVec 3) : Canonical.Statement (.xrd d a e o p) := ⟨rfl, rfl⟩

theorem Canonical.cpy (a : BitVec 5) (e : Bool) (o : BitVec 9) (p : BitVec 3) : Canonical.Statement (.cpy a e o p) := ⟨rfl, rfl⟩

theorem Canonical.sca (a : BitVec 5) (e : Bool) (o : BitVec 9) (p : BitVec 3) : Canonical.Statement (.sca a e o p) := ⟨rfl, rfl⟩

theorem Canonical.tsend (t : BitVec 5) (a : BitVec 5) (e : Bool) (b : BitVec 5) (f : Bool) (o : BitVec 3) (p : BitVec 3) : Canonical.Statement (.tsend t a e b f o p) := ⟨rfl, rfl⟩

theorem Canonical.tktg (d : BitVec 5) (o : BitVec 3) (p : BitVec 3) : Canonical.Statement (.tktg d o p) := ⟨rfl, rfl⟩

theorem Canonical.fld (a : BitVec 5) (e : Bool) (o : BitVec 9) (p : BitVec 3) : Canonical.Statement (.fld a e o p) := ⟨rfl, rfl⟩

theorem Canonical.fst (a : BitVec 5) (e : Bool) (o : BitVec 9) (p : BitVec 3) : Canonical.Statement (.fst a e o p) := ⟨rfl, rfl⟩

theorem Canonical.fatm (a : BitVec 5) (e : Bool) (o : BitVec 9) (p : BitVec 3) : Canonical.Statement (.fatm a e o p) := ⟨rfl, rfl⟩

theorem Canonical.frep (a : BitVec 5) (e : Bool) (o : BitVec 9) (p : BitVec 3) : Canonical.Statement (.frep a e o p) := ⟨rfl, rfl⟩

theorem Canonical.bara (a : BitVec 5) (e : Bool) (r : Bool) (p : BitVec 3) : Canonical.Statement (.bara a e r p) := ⟨rfl, rfl⟩

theorem Canonical.bari (a : BitVec 5) (e : Bool) (b : BitVec 5) (f : Bool) (p : BitVec 3) : Canonical.Statement (.bari a e b f p) := ⟨rfl, rfl⟩

theorem Canonical.pfxlk (a : BitVec 5) (e : Bool) (o : BitVec 9) (p : BitVec 3) : Canonical.Statement (.pfxlk a e o p) := ⟨rfl, rfl⟩

theorem Canonical.pfxin (a : BitVec 5) (e : Bool) (o : BitVec 9) (p : BitVec 3) : Canonical.Statement (.pfxin a e o p) := ⟨rfl, rfl⟩

theorem Canonical.pfxref (a : BitVec 5) (e : Bool) (o : BitVec 9) (p : BitVec 3) : Canonical.Statement (.pfxref a e o p) := ⟨rfl, rfl⟩

theorem Canonical.pfxapp (a : BitVec 5) (e : Bool) (o : BitVec 9) (p : BitVec 3) : Canonical.Statement (.pfxapp a e o p) := ⟨rfl, rfl⟩

theorem Canonical.pfxev (a : BitVec 5) (e : Bool) (o : BitVec 9) (p : BitVec 3) : Canonical.Statement (.pfxev a e o p) := ⟨rfl, rfl⟩

theorem Canonical.kvmrg (a : BitVec 5) (e : Bool) (o : BitVec 9) (p : BitVec 3) : Canonical.Statement (.kvmrg a e o p) := ⟨rfl, rfl⟩

theorem Canonical.mark (p : BitVec 3) : Canonical.Statement (.mark p) := ⟨rfl, rfl⟩

theorem Canonical.jstat (d : BitVec 3) (a : BitVec 5) (e : Bool) (p : BitVec 3) : Canonical.Statement (.jstat d a e p) := ⟨rfl, rfl⟩

theorem Canonical.branchFetchComplete (k : Nat) (w : Who) (n : Nat) : Canonical.Statement (.branchFetchComplete k w n) := ⟨rfl, rfl⟩

theorem Canonical.fixedResultDelivery (k : Nat) (w : Who) : Canonical.Statement (.fixedResultDelivery k w) := ⟨rfl, rfl⟩

theorem Canonical.longLatencyWriteback (k : Nat) (w : Who) (n : Nat) : Canonical.Statement (.longLatencyWriteback k w n) := ⟨rfl, rfl⟩

theorem Canonical.checkpointCommit (k : Nat) (c : Bool) : Canonical.Statement (.checkpointCommit k c) := ⟨rfl, rfl⟩

theorem Canonical.withheldStorePerform (k : Nat) (c : Bool) : Canonical.Statement (.withheldStorePerform k c) := ⟨rfl, rfl⟩

theorem Canonical.rerunPairCompare (k : Nat) (c : Bool) : Canonical.Statement (.rerunPairCompare k c) := ⟨rfl, rfl⟩

theorem Canonical.queueEntry (k : Nat) : Canonical.Statement (.queueEntry k) := ⟨rfl, rfl⟩

theorem Canonical.arbiterDecide (k : Nat) : Canonical.Statement (.arbiterDecide k) := ⟨rfl, rfl⟩

theorem Canonical.candidateStarving (k : Nat) (c : Bool) : Canonical.Statement (.candidateStarving k c) := ⟨rfl, rfl⟩

theorem Canonical.preempt (k : Nat) : Canonical.Statement (.preempt k) := ⟨rfl, rfl⟩

theorem Canonical.budgetExpiry (k : Nat) : Canonical.Statement (.budgetExpiry k) := ⟨rfl, rfl⟩

theorem Canonical.handover (k : Nat) : Canonical.Statement (.handover k) := ⟨rfl, rfl⟩

theorem Canonical.gangFiringOpen (n : Nat) : Canonical.Statement (.gangFiringOpen n) := ⟨rfl, rfl⟩

theorem Canonical.rngAnswer (k : Nat) (c : Bool) : Canonical.Statement (.rngAnswer k c) := ⟨rfl, rfl⟩

theorem Canonical.tktgGrant (k : Nat) (c : Bool) (g : Option Nat) (r : Option PortAddr) : Canonical.Statement (.tktgGrant k c g r) := ⟨rfl, rfl⟩

theorem Canonical.evpopRecordFill (k : Nat) (c : Bool) : Canonical.Statement (.evpopRecordFill k c) := ⟨rfl, rfl⟩

theorem Canonical.tokenFirstFlit : Canonical.Statement (.tokenFirstFlit) := ⟨rfl, rfl⟩

theorem Canonical.tokenContinuationFlit : Canonical.Statement (.tokenContinuationFlit) := ⟨rfl, rfl⟩

theorem Canonical.creditReturn (m : Option (PortAddr × Nat)) : Canonical.Statement (.creditReturn m) := ⟨rfl, rfl⟩

theorem Canonical.headAdvanceNotice (m : Option (PortAddr × Nat)) : Canonical.Statement (.headAdvanceNotice m) := ⟨rfl, rfl⟩

theorem Canonical.cfgdoneAction (k : Nat) (c : Bool) : Canonical.Statement (.cfgdoneAction k c) := ⟨rfl, rfl⟩

theorem Canonical.markerAction (k : Nat) (c : Bool) : Canonical.Statement (.markerAction k c) := ⟨rfl, rfl⟩

theorem Canonical.drainAction (k : Nat) (c : Bool) : Canonical.Statement (.drainAction k c) := ⟨rfl, rfl⟩

theorem Canonical.sourceHardwareMark (k : Nat) (c : Bool) : Canonical.Statement (.sourceHardwareMark k c) := ⟨rfl, rfl⟩

theorem Canonical.jobStart (k : Nat) (j : Nat) : Canonical.Statement (.jobStart k j) := ⟨rfl, rfl⟩

theorem Canonical.jobComplete (k : Nat) (j : Nat) : Canonical.Statement (.jobComplete k j) := ⟨rfl, rfl⟩

theorem Canonical.mwldBeatLand (k : Nat) : Canonical.Statement (.mwldBeatLand k) := ⟨rfl, rfl⟩

theorem Canonical.caliperCompare (k : Nat) (c : Bool) : Canonical.Statement (.caliperCompare k c) := ⟨rfl, rfl⟩

theorem Canonical.pageWalk (k : Nat) (j : Nat) : Canonical.Statement (.pageWalk k j) := ⟨rfl, rfl⟩

theorem Canonical.writeRequest : Canonical.Statement (.writeRequest) := ⟨rfl, rfl⟩

theorem Canonical.readRequest : Canonical.Statement (.readRequest) := ⟨rfl, rfl⟩

theorem Canonical.readReply : Canonical.Statement (.readReply) := ⟨rfl, rfl⟩

theorem Canonical.atomicRequest : Canonical.Statement (.atomicRequest) := ⟨rfl, rfl⟩

theorem Canonical.atomicReply : Canonical.Statement (.atomicReply) := ⟨rfl, rfl⟩

theorem Canonical.acknowledgement : Canonical.Statement (.acknowledgement) := ⟨rfl, rfl⟩

theorem Canonical.refusal : Canonical.Statement (.refusal) := ⟨rfl, rfl⟩

theorem Canonical.prefixRequest : Canonical.Statement (.prefixRequest) := ⟨rfl, rfl⟩

theorem Canonical.prefixReply : Canonical.Statement (.prefixReply) := ⟨rfl, rfl⟩

theorem Canonical.frameTransmit (l : Nat) : Canonical.Statement (.frameTransmit l) := ⟨rfl, rfl⟩

theorem Canonical.linkFrameReceive (l : Nat) (f : Frame) : Canonical.Statement (.linkFrameReceive l f) := ⟨rfl, rfl⟩

theorem Canonical.linkRetryTimeout (l : Nat) : Canonical.Statement (.linkRetryTimeout l) := ⟨rfl, rfl⟩

theorem Canonical.lossOfSignal (l : Nat) : Canonical.Statement (.lossOfSignal l) := ⟨rfl, rfl⟩

theorem Canonical.escapeTimeout (n : Nat) : Canonical.Statement (.escapeTimeout n) := ⟨rfl, rfl⟩

theorem Canonical.e2eResendTimeout (dchip : Nat) (lane : Nat) (seq : Nat) : Canonical.Statement (.e2eResendTimeout dchip lane seq) := ⟨rfl, rfl⟩

theorem Canonical.heldSlotRelease (l : Nat) (row : Nat) : Canonical.Statement (.heldSlotRelease l row) := ⟨rfl, rfl⟩

theorem Canonical.slotTableSwitch : Canonical.Statement (.slotTableSwitch) := ⟨rfl, rfl⟩

theorem Canonical.linkTraining (peers : List TrainedLink) : Canonical.Statement (.linkTraining peers) := ⟨rfl, rfl⟩

theorem Canonical.powerOn (ga : BitVec 12) : Canonical.Statement (.powerOn ga) := ⟨rfl, rfl⟩

theorem Canonical.marginPlan (k : Nat) : Canonical.Statement (.marginPlan k) := ⟨rfl, rfl⟩

theorem Canonical.powerLimit (watts : PowerReading) : Canonical.Statement (.powerLimit watts) := ⟨rfl, rfl⟩

theorem Canonical.clockRestore (watts : PowerReading) : Canonical.Statement (.clockRestore watts) := ⟨rfl, rfl⟩

theorem Canonical.thermalLimit (t : Nat) : Canonical.Statement (.thermalLimit t) := ⟨rfl, rfl⟩

theorem Canonical.thermalShutdown : Canonical.Statement (.thermalShutdown) := ⟨rfl, rfl⟩

theorem Canonical.plinthFrameReceive (f : PlinthFrame) : Canonical.Statement (.plinthFrameReceive f) := ⟨rfl, rfl⟩

theorem Canonical.plinthRetransmitTimeout (ch : Nat) : Canonical.Statement (.plinthRetransmitTimeout ch) := ⟨rfl, rfl⟩

theorem Canonical.plinthAckTimer (ch : Nat) : Canonical.Statement (.plinthAckTimer ch) := ⟨rfl, rfl⟩

theorem Canonical.config : Canonical.Statement (.config) := ⟨rfl, rfl⟩

theorem Canonical.handle : Canonical.Statement (.handle) := ⟨rfl, rfl⟩

theorem Canonical.launchPrepare : Canonical.Statement (.launchPrepare) := ⟨rfl, rfl⟩

theorem Canonical.prepareReport : Canonical.Statement (.prepareReport) := ⟨rfl, rfl⟩

theorem Canonical.launchApply : Canonical.Statement (.launchApply) := ⟨rfl, rfl⟩

theorem Canonical.launchAbort : Canonical.Statement (.launchAbort) := ⟨rfl, rfl⟩

theorem Canonical.readyReport : Canonical.Statement (.readyReport) := ⟨rfl, rfl⟩

theorem Canonical.vread : Canonical.Statement (.vread) := ⟨rfl, rfl⟩

theorem Canonical.vwrite : Canonical.Statement (.vwrite) := ⟨rfl, rfl⟩

theorem Canonical.inject : Canonical.Statement (.inject) := ⟨rfl, rfl⟩

theorem Canonical.pagedata : Canonical.Statement (.pagedata) := ⟨rfl, rfl⟩

theorem Canonical.result : Canonical.Statement (.result) := ⟨rfl, rfl⟩

theorem Canonical.bootBegin : Canonical.Statement (.bootBegin) := ⟨rfl, rfl⟩

theorem Canonical.bootManifest : Canonical.Statement (.bootManifest) := ⟨rfl, rfl⟩

theorem Canonical.bootData : Canonical.Statement (.bootData) := ⟨rfl, rfl⟩

theorem Canonical.bootCfg : Canonical.Statement (.bootCfg) := ⟨rfl, rfl⟩

theorem Canonical.bootEnd : Canonical.Statement (.bootEnd) := ⟨rfl, rfl⟩

theorem Canonical.bootStatusReport : Canonical.Statement (.bootStatusReport) := ⟨rfl, rfl⟩

theorem Canonical.mgmtCreatePartition : Canonical.Statement (.mgmtCreatePartition) := ⟨rfl, rfl⟩

theorem Canonical.mgmtDestroyPartition : Canonical.Statement (.mgmtDestroyPartition) := ⟨rfl, rfl⟩

theorem Canonical.mgmtOpenChannel : Canonical.Statement (.mgmtOpenChannel) := ⟨rfl, rfl⟩

theorem Canonical.mgmtCloseChannel : Canonical.Statement (.mgmtCloseChannel) := ⟨rfl, rfl⟩

theorem Canonical.mgmtRestartCurator : Canonical.Statement (.mgmtRestartCurator) := ⟨rfl, rfl⟩

theorem Canonical.mgmtRetireCore : Canonical.Statement (.mgmtRetireCore) := ⟨rfl, rfl⟩

theorem Canonical.mgmtInstallStorageKey : Canonical.Statement (.mgmtInstallStorageKey) := ⟨rfl, rfl⟩

theorem Canonical.mgmtAbortSegment : Canonical.Statement (.mgmtAbortSegment) := ⟨rfl, rfl⟩

theorem Canonical.mgmtRollBackRegion : Canonical.Statement (.mgmtRollBackRegion) := ⟨rfl, rfl⟩

theorem Canonical.mgmtReplacePackage : Canonical.Statement (.mgmtReplacePackage) := ⟨rfl, rfl⟩

theorem Canonical.mgmtWriteRouting : Canonical.Statement (.mgmtWriteRouting) := ⟨rfl, rfl⟩

theorem Canonical.mgmtReadTelemetry : Canonical.Statement (.mgmtReadTelemetry) := ⟨rfl, rfl⟩

theorem Canonical.mgmtAbandonRegion : Canonical.Statement (.mgmtAbandonRegion) := ⟨rfl, rfl⟩

theorem Canonical.spdmVersion : Canonical.Statement (.spdmVersion) := ⟨rfl, rfl⟩

theorem Canonical.spdmCapabilities : Canonical.Statement (.spdmCapabilities) := ⟨rfl, rfl⟩

theorem Canonical.spdmAlgorithms : Canonical.Statement (.spdmAlgorithms) := ⟨rfl, rfl⟩

theorem Canonical.spdmDigests : Canonical.Statement (.spdmDigests) := ⟨rfl, rfl⟩

theorem Canonical.spdmCertificate : Canonical.Statement (.spdmCertificate) := ⟨rfl, rfl⟩

theorem Canonical.spdmChallenge : Canonical.Statement (.spdmChallenge) := ⟨rfl, rfl⟩

theorem Canonical.spdmMeasurements : Canonical.Statement (.spdmMeasurements) := ⟨rfl, rfl⟩

theorem Canonical.spdmKeyExchange : Canonical.Statement (.spdmKeyExchange) := ⟨rfl, rfl⟩

theorem Canonical.spdmFinish : Canonical.Statement (.spdmFinish) := ⟨rfl, rfl⟩

theorem Canonical.spdmKeyUpdate : Canonical.Statement (.spdmKeyUpdate) := ⟨rfl, rfl⟩

theorem Canonical.spdmEndSession : Canonical.Statement (.spdmEndSession) := ⟨rfl, rfl⟩

theorem Canonical.hangPoll (part : Nat) (region : Nat) (others : List (Nat × Bool)) : Canonical.Statement (.hangPoll part region others) := ⟨rfl, rfl⟩

theorem Canonical.stopWavePackage : Canonical.Statement (.stopWavePackage) := ⟨rfl, rfl⟩

theorem Canonical.stopReport : Canonical.Statement (.stopReport) := ⟨rfl, rfl⟩

theorem Canonical.drainPoll (part : Nat) (region : Nat) (others : List DrainAns) : Canonical.Statement (.drainPoll part region others) := ⟨rfl, rfl⟩

theorem Canonical.regionError : Canonical.Statement (.regionError) := ⟨rfl, rfl⟩

theorem Canonical.regionRollback : Canonical.Statement (.regionRollback) := ⟨rfl, rfl⟩

theorem Canonical.markerWaveStart (part : Nat) (region : Nat) : Canonical.Statement (.markerWaveStart part region) := ⟨rfl, rfl⟩

theorem Canonical.sinkWaveReport : Canonical.Statement (.sinkWaveReport) := ⟨rfl, rfl⟩

theorem Canonical.waveCompletionBroadcast : Canonical.Statement (.waveCompletionBroadcast) := ⟨rfl, rfl⟩

theorem Canonical.linkDownReport : Canonical.Statement (.linkDownReport) := ⟨rfl, rfl⟩

theorem Canonical.illegal (slot : BitVec 3) (w : BitVec 32) : Canonical.Statement (.illegal slot w) := ⟨rfl, rfl⟩

theorem Canonical.softError (t : SoftTarget) : Canonical.Statement (.softError t) := ⟨rfl, rfl⟩

theorem Canonical.mmpbLoadDone (k : Nat) (c : Bool) : Canonical.Statement (.mmpbLoadDone k c) := ⟨rfl, rfl⟩

theorem Canonical.arrayInterlockExpiry (k : Nat) (c : Bool) (row : Option Nat) : Canonical.Statement (.arrayInterlockExpiry k c row) := ⟨rfl, rfl⟩

theorem Canonical.arp (ip : BitVec 32) : Canonical.Statement (.arp ip) := ⟨rfl, rfl⟩

theorem Canonical.neighbourDiscovery (ip : BitVec 128) : Canonical.Statement (.neighbourDiscovery ip) := ⟨rfl, rfl⟩

theorem Canonical.boundaryScan (tms : Bool) (tdi : Bool) : Canonical.Statement (.boundaryScan tms tdi) := ⟨rfl, rfl⟩

theorem Canonical.powerLoss : Canonical.Statement (.powerLoss) := ⟨rfl, rfl⟩

end Sys2Proof.Laws
end

