-- ==== Sys2Proof/Tests/Slice0.lean ====
section
/-!
SUPPORT. Tests: ill-formed terms refused, words written out from the encodings of the spec, single steps on small states
with results worked out from the rules, and for every statement states and operands that meet its hypotheses.
-/
set_option Elab.async false
set_option maxRecDepth 100000
set_option exponentiation.threshold 5000
namespace Sys2Proof.Tests
open Sys2Proof Sys2Proof.Machine

/-! ### Small states -/

/-- The state after reset, context A of core 0 running. -/
def stg (f : Context → Context) : State :=
  setCore State.reset 0 { Core.reset with running := some false, ctxA := f { Context.reset with status := .running } }

/-- The state after reset, core 0 in curator mode. -/
def cur (f : Core → Core) : State := setCore State.reset 0 (f { Core.reset with curator := true })

/-- Registers written. -/
def regs (l : List (RegName × Nat)) (r : Regs) : Regs := l.foldl (fun r e => writeReg r e.1 e.2) r

/-- The same with registers written. -/
def stgX (l : List (RegName × Nat)) : State := stg fun x => { x with live := regs l x.live }
def curX (l : List (RegName × Nat)) : State := cur fun c => { c with cur := regs l c.cur }

/-- Core 0 of a state changed. -/
def onCore (f : Core → Core) (s : State) : State := modCore s 0 f
def onCtx (f : Context → Context) (s : State) : State := modCtxAt s 0 false f

/-! ### Witnesses: scalar and vector slots -/

theorem witness_IntegerResults_add : intResult (stgX [(xReg 2, 2 ^ 64 - 1), (xReg 3, 1)]) (.add 1 2 false 3 false 0)
      = some (1, 1, 0) ∧ Ready (stgX [(xReg 2, 2 ^ 64 - 1), (xReg 3, 1)]) (.add 1 2 false 3 false 0) := ⟨rfl, rfl⟩
theorem witness_IntegerResults_x0 : intResult (stgX [(xReg 2, 5)]) (.sub 0 2 false 2 false 0) = some (1, 0, 0) ∧
    Ready (stgX [(xReg 2, 5)]) (.sub 0 2 false 2 false 0) := ⟨rfl, rfl⟩
theorem witness_IntegerResults_cmp : (∃ P, truthResult (stgX [(xReg 2, 2 ^ 63)]) (.cmp 7 2 2 false 3 false 0) = some (7, P)) ∧
    Ready (stgX [(xReg 2, 2 ^ 63)]) (.cmp 7 2 2 false 3 false 0) :=
  ⟨⟨_, rfl⟩, rfl⟩
theorem witness_DivisionResults : divResult (stgX [(xReg 2, 2 ^ 63), (xReg 3, 2 ^ 64 - 1)]) (.div 1 2 false 3 false 0)
      = some (1, 2 ^ 63) ∧ Ready (stgX [(xReg 2, 2 ^ 63), (xReg 3, 2 ^ 64 - 1)]) (.div 1 2 false 3 false 0) := ⟨rfl, rfl⟩
theorem witness_DivisionResults_zero : divResult (stgX [(xReg 2, 7)]) (.rem 1 2 false 3 false 0) = some (1, 7) ∧
    Ready (stgX [(xReg 2, 7)]) (.rem 1 2 false 3 false 0) := ⟨rfl, rfl⟩

/-- 1.0 + 1.0 and 1.0 / 0.0 in binary64; every exception enabled in the second state. -/
def sFl : State := stgX [(xReg 2, 0x3FF0000000000000), (xReg 4, 0x7FF0000000000001), (vReg 1, 0x3F800000), (mReg 1, 1)]
def sEn : State := onCore (fun c => { c with kstat := 0x1F00 }) sFl

theorem witness_FloatResults : floatResult sFl (.dadd 1 2 false 2 false 0 0)
      = some (4, [(xReg 1, 0x4000000000000000)], 0) ∧ Ready sFl (.dadd 1 2 false 2 false 0 0) ∧ floatTrap sFl 0 = 0 :=
  ⟨rfl, rfl, rfl⟩
theorem witness_FloatResults_long : floatLong sFl (.ddiv 1 2 false 2 false 0 0) = some (1, (0x3FF0000000000000, 0)) ∧
    Ready sFl (.ddiv 1 2 false 2 false 0 0) ∧ floatTrap sFl 0 = 0 := ⟨rfl, rfl, rfl⟩
theorem witness_FloatResults_trap : Ready sEn (.dadd 1 4 false 2 false 0 0) ∧
    ∃ lat ws fl, floatResult sEn (.dadd 1 4 false 2 false 0 0) = some (lat, ws, fl) ∧ floatTrap sEn fl ≠ 0 :=
  ⟨rfl, _, _, _, rfl, by decide +kernel⟩
theorem witness_FloatResults_trapLong : Ready sEn (.ddiv 1 2 false 0 false 0 0) ∧
    ∃ d r, floatLong sEn (.ddiv 1 2 false 0 false 0 0) = some (d, r) ∧ floatTrap sEn r.2 ≠ 0 := ⟨rfl, _, _, rfl, by decide +kernel⟩
theorem witness_FloatResults_trapElem :
    let s := onCore (fun c => { c with kstat := 0x1F00 }) (stgX [(vReg 1, 0x7F800001)])
    Ready s (.vadd 2 1 false 1 false 0 0 0) ∧ ∃ lat d w m res,
      elemResult s (.vadd 2 1 false 1 false 0 0 0) = some (lat, d, w, m, res) ∧ floatTrap s (elemFlags s w m res) ≠ 0 :=
  ⟨rfl, _, _, _, _, _, rfl, by decide +kernel⟩
theorem witness_FloatResults_trapSpecial :
    let s := onCore (fun c => { c with kstat := 0x1F00 }) (stgX [(vReg 1, 0x7F800001), (mReg 1, 1)])
    Ready s (.vrcp 2 1 false 0 1) ∧ ∃ t m ds, specialResult s (.vrcp 2 1 false 0 1) = some (t, m, ds) ∧ efmt t = .fl f32 ∧
      floatTrap s (specialFlags s t m f32 ds) ≠ 0 :=
  ⟨rfl, _, _, _, rfl, rfl, by decide +kernel⟩
theorem witness_ElementResults : ∃ lat d w m res, elemResult sFl (.vadd 2 1 false 1 false 0 1 0) = some (lat, d, w, m, res) ∧
    Ready sFl (.vadd 2 1 false 1 false 0 1 0) ∧ floatTrap sFl (elemFlags sFl w m res) = 0 ∧ (res 0).1 = 0x40000000 :=
  ⟨_, _, _, _, _, rfl, rfl, by decide +kernel, by decide +kernel⟩
theorem witness_WholeResults : wholeResult (stgX [(mReg 1, 0x8001)]) (.mbitInv 2 1 false 15) = some (2, [(mReg 2, 1)], 0) ∧
    Ready (stgX [(mReg 1, 0x8001)]) (.mbitInv 2 1 false 15) ∧ floatTrap (stgX [(mReg 1, 0x8001)]) 0 = 0 := ⟨rfl, rfl, rfl⟩
theorem witness_SpecialResults : ∃ t m ds f, specialResult sFl (.vrcp 2 1 false 0 1) = some (t, m, ds) ∧
    Ready sFl (.vrcp 2 1 false 0 1) ∧ efmt t = .fl f ∧ floatTrap sFl (specialFlags sFl t m f ds) = 0 :=
  ⟨_, _, _, _, rfl, rfl, rfl, by decide +kernel⟩
theorem witness_ChainsAndQuants_chain : Ready sFl (.vchc 5 1 3 false 0 0 1) ∧ Ready sFl (.vch 2 1 false 0 1) ∧
    floatTrap sFl ((List.range 64).foldl (fun f j =>
      if laneOn (rm sFl 1) ((chainRun (frmOf sFl) (actRegs sFl).chain.toList (elems32 (rv sFl 1))).getD 0 ⟨f32, 0, 0⟩).fmt.w j
      then f ||| ((chainRun (frmOf sFl) (actRegs sFl).chain.toList (elems32 (rv sFl 1))).getD j ⟨f32, 0, 0⟩).fl else f) 0) = 0 :=
  ⟨rfl, rfl, by decide +kernel⟩
/-- A control word of VQNT: FP8 E4M3 (code 4), maximum wanted. -/
theorem witness_ChainsAndQuants_quant :
    let s := stgX [(vReg 1, 0x3F800000), (xReg 2, 0x3F80000000000404), (mReg 1, 1)]
    Ready s (.vqnt 2 1 false 2 false 0 1) ∧ qctlOk (ux s 2) true = true ∧ bitOf (ux s 2) 10 = true ∧
      pendCount (actCtx s) < 64 ∧ floatTrap s (quantResult s 1 (ux s 2) 0 1).2 = 0 :=
  ⟨rfl, rfl, rfl, by decide +kernel, by decide +kernel⟩
theorem witness_ChainsAndQuants_bad :
    let s := stgX [(xReg 2, 9)]
    Ready s (.vqnt 2 1 false 2 false 0 0) ∧ qctlOk (ux s 2) true = false ∧ Ready s (.vdqnt 2 1 false 2 false 0 0) ∧
      qctlOk (ux s 2) false = false := ⟨rfl, rfl, rfl, rfl⟩
theorem witness_ResultFrame : Ready (stgX []) (.mul 1 2 false 3 false 0) ∧ (∃ r, intResult (stgX []) (.mul 1 2 false 3 false 0) = some r) ∧
    ∃ t, exec (.mul 1 2 false 3 false 0) (stgX []) = .next t := ⟨rfl, ⟨_, rfl⟩, _, rfl⟩
/-! ### Witnesses: deliveries and gates -/

theorem witness_Deliveries_due : (31 < fileSize .v) ∧ hardWired (vReg 31) = false ∧ hardWired (vReg 0) = false ∧
    isFull (getRegs (getCore (sendReg (stgX []) 0 (vReg 31) 9) 0) .a) (vReg 31) = true ∧
    readReg (getRegs (deliverDue (getCore (sendReg (stgX []) 0 (vReg 31) 9) 0) .a) .a) (vReg 31) = 9 :=
  ⟨by decide, rfl, rfl, rfl, by decide +kernel⟩
theorem witness_Deliveries_empty :
    isFull (setFull (getRegs (getCore (stgX []) 0) .a) (xReg 31) false) (xReg 31) = false ∧ hardWired (xReg 31) = false :=
  ⟨rfl, rfl⟩
theorem witness_Deliveries_hard : hardWired (xReg 0) = true ∧ hardWired (mReg 0) = true ∧ hardWired (qReg 0) = true :=
  ⟨rfl, rfl, rfl⟩
theorem witness_Deliveries_long : (3 < 4) ∧ (15 < 16) ∧
    (getProd (getCore (onCtx (fun x => { x with producers := [.value [(xReg 5, 7)] 0 .plain] }) (stgX [])) 0) .a)[0]?
      = some (.value [(xReg 5, 7)] 0 .plain) ∧ 5 < fileSize .x ∧ hardWired (xReg 5) = false :=
  ⟨by decide, by decide, rfl, by decide, rfl⟩

theorem witness_SlotGates_open : Ready (stgX []) (.add 1 2 true 3 true 0) ∧ isSlot (.add 1 2 true 3 true 0) = true := ⟨rfl, rfl⟩
theorem witness_SlotGates_reserved : isSlot (.dadd 1 2 false 3 false 7 0) = true ∧ (Instr.dadd 1 2 false 3 false 7 0).wf = false :=
  ⟨rfl, rfl⟩
theorem witness_SlotGates_curator : isSlot (.done false 0) = true ∧ (Instr.done false 0).wf = true ∧
    (curCore (curX [])).curator = true ∧ curatorOk (.done false 0) = false := ⟨rfl, rfl, rfl, rfl⟩
theorem witness_SlotGates_priv : isSlot (.tret false 0) = true ∧ (Instr.tret false 0).wf = true ∧
    (curCore (stgX [])).curator = false ∧ isPriv (.tret false 0) = true := ⟨rfl, rfl, rfl, rfl⟩
/-- q1 is false. -/
theorem witness_SlotGates_false : isSlot (.add 1 2 false 3 false 1) = true ∧
    decodeCause (curCore (stgX [])).curator (.add 1 2 false 3 false 1) = none ∧
    ctlForbidden (stgX []) (.add 1 2 false 3 false 1) true true = none ∧
    guardFull (actRegs (stgX [])) (.add 1 2 false 3 false 1) = true ∧
    guardTrue (actRegs (stgX [])) (.add 1 2 false 3 false 1) = false := ⟨rfl, rfl, rfl, rfl, rfl⟩

/-- x2 is empty. -/
def sEmpty : State := onCtx (fun x => { x with live := setFull x.live (xReg 2) false }) (stgX [])

theorem witness_SlotGates_empty : isSlot (.add 1 2 true 3 false 0) = true ∧
    decodeCause (curCore sEmpty).curator (.add 1 2 true 3 false 0) = none ∧
    ctlForbidden sEmpty (.add 1 2 true 3 false 0) true true = none ∧ guardFull (actRegs sEmpty) (.add 1 2 true 3 false 0) = true ∧
    guardTrue (actRegs sEmpty) (.add 1 2 true 3 false 0) = true ∧ emptySrc (actRegs sEmpty) (.add 1 2 true 3 false 0) = some (xReg 2) ∧
    exec (.add 1 2 true 3 false 0) sEmpty = .next (raise sEmpty 0x03 2) := ⟨rfl, rfl, rfl, rfl, rfl, rfl, rfl⟩
theorem witness_SlotGates_guard : let s := onCtx (fun x => { x with live := setFull x.live (qReg 3) false }) (stgX [])
    isSlot (.add 1 2 true 3 false 3) = true ∧ decodeCause (curCore s).curator (.add 1 2 true 3 false 3) = none ∧
    ctlForbidden s (.add 1 2 true 3 false 3) true true = none ∧ guardFull (actRegs s) (.add 1 2 true 3 false 3) = false ∧
    exec (.add 1 2 true 3 false 3) s = .next (freeze s .register) := ⟨rfl, rfl, rfl, rfl, rfl⟩
theorem witness_SlotGates_freeze : emptySrc (actRegs sEmpty) (.add 2 3 true 3 false 0) = none ∧
    (∃ d, d ∈ dstsOf (.add 2 3 true 3 false 0) ∧ isFull (actRegs sEmpty) d = false) ∧
    emptySrc (actRegs sEmpty) (.add 1 2 false 3 false 0) = none ∧
    (∃ q, q ∈ srcsOf (.add 1 2 false 3 false 0) ∧ isFull (actRegs sEmpty) q.1 = false) :=
  ⟨rfl, ⟨xReg 2, by decide, rfl⟩, rfl, ⟨(xReg 2, false), by decide, rfl⟩⟩

/-! ### Witnesses: control slot -/

theorem witness_Branches_prepare : Ready (stgX []) (.pbr 0 0x800000) ∧ Ready (stgX []) (.pbr 0 8191) ∧
    Ready (stgX [(xReg 1, 8191)]) (.pbrx 1 false 3 false 0) ∧ Ready (stgX [(xReg 1, 8192)]) (.pbrx 1 false 3 false 0) :=
  ⟨rfl, rfl, rfl, rfl⟩

/-- Branch target register 1 is fetched; 2 not yet; 3 is bad. -/
def sBr : State := onCtx (fun x => { x with live := { x.live with
  bt := ((x.live.bt.setIfInBounds 1 ⟨5, true, none⟩).setIfInBounds 2 ⟨5, false, none⟩).setIfInBounds 3 ⟨0, true, some 9000⟩ } }) (stgX [])

theorem witness_Branches_untaken : CtlReady sBr (.br 1 true 0) ∧ predTrue sBr true 0 = false ∧ CtlReady sBr (.call 1 1 true 0) :=
  ⟨⟨rfl, rfl⟩, rfl, rfl, rfl⟩
theorem witness_Branches_taken : CtlReady sBr (.br 1 false 0) ∧ predTrue sBr false 0 = true ∧ (getBt sBr 1).bad = none ∧
    (getBt sBr 1).fetched = true ∧ CtlReady sBr (.call 1 1 false 0) := ⟨⟨rfl, rfl⟩, rfl, rfl, rfl, rfl, rfl⟩
theorem witness_Branches_unfetched : CtlReady sBr (.br 2 false 0) ∧ (getBt sBr 2).bad = none ∧ (getBt sBr 2).fetched = false ∧
    CtlReady sBr (.call 1 2 false 0) := ⟨⟨rfl, rfl⟩, rfl, rfl, rfl, rfl⟩
theorem witness_Branches_bad : CtlReady sBr (.br 3 false 0) ∧ (getBt sBr 3).bad = some 9000 ∧ CtlReady sBr (.call 1 3 false 0) :=
  ⟨⟨rfl, rfl⟩, rfl, rfl, rfl⟩

/-- Level 0 is active over bundles 1 to 9, the issuing bundle is 2, and sl is 1000. -/
def sLoop : State := onCtx (fun x => { x with live := { x.live with loops := [⟨0, 1, 9⟩], next := .at 2, sl := 1000 } })
  (stgX [(xReg 1, 2 ^ 32 - 1), (xReg 2, 2 ^ 32)])

theorem witness_Loops_fit : LoopFits sLoop 5 6 ∧ CtlReady sLoop (.loopImm 5 6 0) ∧ CtlReady sLoop (.loopReg 5 6 1 false) ∧
    ux sLoop 1 < 2 ^ 32 ∧ CtlReady sLoop (.loopReg 5 6 2 false) ∧ 2 ^ 32 ≤ ux sLoop 2 ∧ CtlReady sLoop (.loopKeep 5 6) ∧
    CtlReady sLoop (.loopsl 5 6 4) ∧ ((actRegs sLoop).sl.toNat + 2 ^ 4 - 1) / 2 ^ 4 = 63 := by
  refine ⟨⟨rfl, ?_, ?_⟩, ⟨rfl, rfl⟩, ⟨rfl, rfl⟩, by decide +kernel, ⟨rfl, rfl⟩, by decide +kernel, ⟨rfl, rfl⟩, ⟨rfl, rfl⟩, rfl⟩ <;>
    decide +kernel
theorem witness_Loops_same : CtlReady sLoop (.loopImm 0 7 0) ∧ rngPending (actCtx sLoop) 0 = false ∧
    ∃ l, l ∈ (actRegs sLoop).loops ∧ l.lvl = 0 := ⟨⟨rfl, rfl⟩, rfl, ⟨0, 1, 9⟩, by decide +kernel, rfl⟩
theorem witness_Loops_below :
    let s := onCtx (fun x => { x with live := { x.live with loops := [⟨3, 1, 9⟩] } }) sLoop
    CtlReady s (.loopImm 2 7 0) ∧ rngPending (actCtx s) 2 = false ∧ (∀ l, l ∈ (actRegs s).loops → l.lvl ≠ 2) ∧
      ∃ l, l ∈ (actRegs s).loops ∧ 2 ≤ l.lvl := ⟨⟨rfl, rfl⟩, rfl, by decide +kernel, ⟨3, 1, 9⟩, by decide +kernel, by decide⟩
theorem witness_Loops_leaves : CtlReady sLoop (.loopImm 1 7 0) ∧ rngPending (actCtx sLoop) 1 = false ∧
    (∀ l, l ∈ (actRegs sLoop).loops → l.lvl < 1) ∧ ∃ l, l ∈ (actRegs sLoop).loops ∧ l.first ≤ issueIndex (curCore sLoop) ∧
      issueIndex (curCore sLoop) ≤ l.last ∧ l.last < issueIndex (curCore sLoop) + 1 + 7 :=
  ⟨⟨rfl, rfl⟩, rfl, by decide +kernel, ⟨0, 1, 9⟩, by decide +kernel, by decide +kernel, by decide +kernel, by decide +kernel⟩

theorem witness_Sequencing_delay : (actRegs (onCtx (fun x => { x with live := { x.live with next := .delay 4 (some (.goto 9)) true } })
    (stgX []))).next = .delay 4 (some (.goto 9)) true := rfl
/-- A branch inside the innermost body, and out of it into the outer one. -/
theorem witness_Sequencing_target : ∃ r : Regs, r.next = .delay 3 (some (.goto 2)) false ∧ r.loops = [⟨5, 1, 9⟩, ⟨0, 1, 12⟩] ∧
    (1 ≤ 2 ∧ 2 ≤ 9) ∧ ∃ u : Regs, u.next = .delay 3 (some (.goto 12)) false ∧ u.loops = r.loops ∧ 9 < 12 :=
  ⟨{ Regs.reset with next := .delay 3 (some (.goto 2)) false, loops := [⟨5, 1, 9⟩, ⟨0, 1, 12⟩] }, rfl, rfl, by decide,
    { Regs.reset with next := .delay 3 (some (.goto 12)) false, loops := [⟨5, 1, 9⟩, ⟨0, 1, 12⟩] }, rfl, rfl, by decide⟩
/-- The end of the innermost body, its counter below its trip and at it. -/
theorem witness_Sequencing_body : ∃ r : Regs, r.next = .at 9 ∧ r.loops = [⟨5, 1, 9⟩, ⟨0, 1, 12⟩] ∧
    ((r.lc.getD 5 0).toNat + 1) % 2 ^ 32 < (r.lt.getD 5 0).toNat ∧ ∃ u : Regs, u.next = .at 9 ∧ u.loops = r.loops ∧
      (u.lt.getD 5 0).toNat ≤ ((u.lc.getD 5 0).toNat + 1) % 2 ^ 32 ∧ ∀ m, m ∈ [(⟨0, 1, 12⟩ : Loop)] → m.last ≠ 9 :=
  ⟨{ Regs.reset with next := .at 9, loops := [⟨5, 1, 9⟩, ⟨0, 1, 12⟩], lt := Regs.reset.lt.setIfInBounds 5 2 }, rfl, rfl,
    by decide +kernel, { Regs.reset with next := .at 9, loops := [⟨5, 1, 9⟩, ⟨0, 1, 12⟩], lt := Regs.reset.lt.setIfInBounds 5 1 },
    rfl, rfl, by decide +kernel, by decide⟩

/-- The end of a body of level 1 with stream 2 loaded: dimension 1 has three elements. -/
theorem witness_Sequencing_streams : ∃ r : Regs, r.next = .at 9 ∧ r.loops = [⟨1, 1, 9⟩] ∧ (2 < 16) ∧
    ∃ x, x = r.st.getD 2 .reset ∧ x.loaded = true ∧ stCount x 1 = 3 ∧ stCount x 0 = 0 ∧
      ∃ y, y = (advance r 9 .none).st.getD 2 .reset ∧ y.idx = [0, 0, 0, 0, 0, 0] ∧ x.idx = [0, 2, 4, 0, 0, 0] :=
  ⟨{ Regs.reset with next := .at 9, loops := [⟨1, 1, 9⟩], lt := Regs.reset.lt.setIfInBounds 1 2, st := Regs.reset.st.setIfInBounds 2 ⟨true, BitVec.ofNat 512 (3 * 2 ^ 80), [0, 2, 4, 0, 0, 0], false, none⟩ },
    rfl, rfl, by decide, _, rfl, rfl, by decide +kernel, by decide +kernel, _, rfl, by decide +kernel, rfl⟩

theorem witness_BoundariesAndWaits_boundary : Ready sLoop (.lbrk 0 false 0) ∧ ctlForbidden sLoop (.lbrk 0 false 0) true false = none ∧
    CtlReady sLoop (.done false 0) ∧ Ready sLoop (.ckpt false 0) ∧ Ready sLoop (.fence 1 0 0 false 0) ∧
    (curCore sLoop).curator = false ∧ pendCount (actCtx sLoop) < 64 ∧ Ready (curX []) (.fence 1 0 0 false 0) ∧
    (curCore (curX [])).curator = true ∧ Ready sLoop .nop :=
  ⟨rfl, rfl, ⟨rfl, rfl⟩, rfl, rfl, rfl, by decide +kernel, rfl, rfl, rfl⟩
theorem witness_BoundariesAndWaits_wait :
    let s := stgX [(xReg 1, 2 ^ 23 - 8), (xReg 2, 1), (xReg 3, 4)]
    Ready s (.waitb 4 1 false 2 false false 0) ∧ LoadGoes s .spad (ux s 1 : Nat) 8 8 ∧
      bitsOf (actWord s (ux s 1) 8) 48 16 ≠ ux s 2 % 2 ^ 16 ∧
      bitsOf (actWord s (ux s 1) 8) 48 16 = ux s 0 % 2 ^ 16 ∧ bitOf (actWord s (ux s 1) 8) 33 = false ∧
      Ready s (.waitb 4 1 false 0 false false 0) ∧
      Ready s (.waitb 4 3 false 2 false false 0) ∧ accessTrap s .spad (ux s 3 : Nat) 8 8 = some (0x04, 4) :=
  ⟨rfl, ⟨rfl, rfl, rfl⟩, by decide +kernel, by decide +kernel, by decide +kernel, rfl, rfl, rfl⟩

/-- Input port 7 is a FIFO ring of 16 entries with one token, output port 0 a FIFO port, 1 a REORDER port. -/
def ringIn : RingCfg := ⟨0x1000, 4, 256, false, 240, false, []⟩
def outFifo : OutCfg := ⟨⟨0, 1, false, 0⟩, false, false, 4, 240, 0⟩
def sRing : State := onCtx (fun x => { x with
  cfg := { x.cfg with ins := [(7, ringIn)], outs := [(0, outFifo), (1, { outFifo with reorder := true })], evq := some 0x40 },
  ins := x.ins.setIfInBounds 7 { x.ins.getD 7 .reset with toks := [⟨3, 0, 9, 0, 5, 64, 0⟩] },
  outs := (x.outs.setIfInBounds 0 { x.outs.getD 0 .reset with credits := 2 }).setIfInBounds 1
    { x.outs.getD 1 .reset with granted := [0], head := 0 } }) (stgX [(xReg 1, 1), (xReg 2, 64), (xReg 3, 2 ^ 23 - 128), (xReg 4, 48), (xReg 5, 2)])

theorem witness_BoundariesAndWaits_waitt : Ready sRing (.waitt 1 false 7 false 0) ∧
    ringCfg (actCtx sRing) 7 = some ringIn ∧ exec (.waitt 1 false 7 false 0) sRing = .next sRing ∧
    exec (.waitt 5 false 7 false 0) sRing = .next (freeze sRing (.waitt 7)) ∧ 2 ^ ringIn.n < ux sRing 2 ∧
    ringCfg (actCtx sRing) 0 = none := ⟨rfl, rfl, rfl, rfl, by decide +kernel, rfl⟩
theorem witness_ContextRegisters : Ready sRing (.evpop 1 2 false 0) ∧ (actCtx sRing).cfg.evq = some 0x40 ∧
    Ready sRing (.rng 1 5 false 0) ∧ (∀ l, l ∈ (actRegs sRing).loops → l.lvl ≠ 5) ∧ rngPending (actCtx sRing) 5 = false ∧
    Ready sRing (.getid 1 false 0) ∧ Ready sRing (.rdct 1 7 false 0) ∧ (actCtx (stgX [])).cfg.evq = none ∧ Ready (stgX []) (.evpop 1 2 false 0) ∧
    (∃ l, l ∈ (actRegs sLoop).loops ∧ l.lvl = 0) ∧ Ready sLoop (.rng 1 0 false 0) :=
  ⟨rfl, rfl, rfl, by decide +kernel, rfl, rfl, rfl, rfl, rfl, ⟨⟨0, 1, 9⟩, by decide +kernel, rfl⟩, rfl⟩
/-- An RNG for level 5 has no answer yet. -/
def sRng : State := onCtx (fun x => { x with producers := [.rng 3 5] }) sRing
theorem witness_ContextRegisters_written : sRing.cur < 16 ∧ sregWidth 0x30 = some 7 ∧ sregWidth 0x50 = some 12 ∧
    sregWaits (seenCtx sRing) 0x47 = false ∧ sregWaits (seenCtx sRng) 5 = true ∧
    readSreg (getCtx (curCore (applySregs sRing [(0x30, 255)])) (sregCtx (curCore sRing))) 0x30 = 127 :=
  ⟨by decide +kernel, rfl, rfl, rfl, rfl, by decide +kernel⟩
theorem witness_ContextRegisters_pending : rngPending (actCtx sRng) 5 = true ∧ Ready sRng (.rng 1 5 false 0) ∧
    (∀ l, l ∈ (actRegs sRng).loops → l.lvl ≠ 5) ∧ sregWaits (actCtx sRng) 5 = true ∧ Ready sRng (.mfs 1 5 0) ∧ Ready sRng (.mts 1 false 5 0) ∧
    (curCore sRng).curator = false := ⟨rfl, rfl, by decide +kernel, rfl, rfl, rfl, rfl⟩
theorem witness_ContextRegisters_special : Ready sRing (.mfs 1 0x47 0) ∧ sregWaits (actCtx sRing) 0x47 = false ∧
    Ready sRing (.mts 1 false 0x0D 0) ∧ sregWaits (actCtx sRing) 0x0D = false ∧ Ready sRing (.mts 1 false 0x23 0) ∧
    pendCount (actCtx sRing) < 64 ∧ Ready (curX []) (.mfs 1 0x10 0) ∧ Ready (curX []) (.mts 1 false 0x10 0) ∧
    kIdle (curCore (curX [])) = false ∧ sregWaits (getCtx (curCore (curX [])) (kCtx (curCore (curX [])))) 0x10 = false ∧
    kIdle (curCore (onCore (fun c => setKflag c 3 true) (curX []))) = true :=
  ⟨rfl, rfl, rfl, rfl, rfl, by decide +kernel, rfl, rfl, rfl, rfl, rfl⟩
/-! ### Witnesses: traps and system instructions -/

/-- A vector table of 256 bundles: every cause has its vector. -/
def sVec : State := onCore (fun c => { c with kvec := 0x08000000 }) (stgX [])

theorem witness_Traps : Ready sVec (.trap 0xFFFF false 0) ∧ Ready sVec (.brk 0 false 0) ∧ MayEnter sVec 0x06 ∧
    MayEnter sVec 0x07 ∧ MayEnter sVec 0x10 :=
  ⟨rfl, rfl, by unfold MayEnter hasVector; decide +kernel, by unfold MayEnter hasVector; decide +kernel,
    by unfold MayEnter hasVector; decide +kernel⟩
theorem witness_Traps_fault : (curX []).cur < 16 ∧ (curCore (curX [])).curator = true ∧ (curCore (stgX [])).curator = false ∧
    (actCtx (stgX [])).rerun = .none ∧ kvecSize (curCore (stgX [])) = 0 ∧ ¬hasVector (curCore (stgX [])) 6 ∧
    ¬hasVector (curCore (onCore (fun c => { c with kvec := 0x00800000 }) (stgX []))) 0x10 :=
  ⟨by decide +kernel, rfl, rfl, rfl, rfl, by unfold hasVector; decide +kernel, by unfold hasVector; decide +kernel⟩
theorem witness_TrapReturn : Ready (curX []) (.tret false 0) ∧ (getCore (curX []) 0).stopEntry = [] ∧
    kIdle (getCore (curX []) 0) = false ∧ kGone (getCore (curX []) 0) = false ∧
    let s := onCtx (fun x => { x with status := .running }) (curX [])
    (getCtx (getCore s 0) (kCtx (getCore s 0))).stopped = none ∧ (getCtx (getCore s 0) (kCtx (getCore s 0))).status = .running :=
  ⟨rfl, rfl, rfl, rfl, rfl, rfl⟩
theorem witness_TrapReturn_idle : kIdle (getCore (onCore (fun c => setKflag c 3 true) (curX [])) 0) = true ∧
    (getCore (onCore (fun c => setKflag c 3 true) (curX [])) 0).stopEntry = [] := ⟨rfl, rfl⟩
theorem witness_ControlRegisters_reads : Ready (curX []) (.mfc 1 0x19 false 0) ∧ cregValue (curX []) 0x19 = some 0 ∧
    cregValue (curX []) 0x15 = some 0x100000 ∧ cregValue (curX []) 3 = some 0 := ⟨rfl, rfl, rfl, rfl⟩
theorem witness_ControlRegisters_writes : Ready (curX []) (.mtc 1 false 0x12 false 0) ∧ Ready (curX []) (.mtcKcpc 1 false false 0) ∧
    (curX []).cur < 16 ∧ bitsOf (curCore (curX [])).partid.toNat 0 8 = 0 ∧
    bitsOf (curCore (onCore (fun c => { c with partid := 1 }) (curX []))).partid.toNat 0 8 ≠ 0 ∧
    kIdle (curCore (curX [])) = false ∧ kGone (curCore (curX [])) = false ∧ (curCore (curX [])).fqPost = [] ∧
    ∃ q, findPart { (curX []) with parts := [partReset 0] } 0 = some q :=
  ⟨rfl, rfl, by decide +kernel, by decide +kernel, by decide +kernel, rfl, rfl, rfl, ⟨_, rfl⟩⟩
theorem witness_ControlRegisters_job : ¬NoJobs (curCore (onCore (fun c => { c with jobs := [default] }) (curX []))) ∧
    NoJobs (curCore (curX [])) := ⟨fun h => (nomatch h.1), ⟨rfl, fun _ h => (nomatch h)⟩⟩
theorem witness_ControlRegisters_idle : kIdle (curCore (onCore (fun c => setKflag c 3 true) (curX []))) = true ∧
    kAsync (curCore (onCore (fun c => setKflag c 1 true) (curX []))) = true ∧
    kIdle (curCore (onCore (fun c => setKflag c 1 true) (curX []))) = false := ⟨rfl, rfl, rfl⟩
theorem witness_CoreAndRegionControl_halt :
    let s := curX [(xReg 1, 2 ^ 17), (xReg 2, 0x18000), (xReg 3, 0xFFFF)]
    Ready s (.halt 1 false false 0) ∧ 2 ^ 17 ≤ ux s 1 ∧ Ready s (.haltResume 2 false false 0) ∧ ux s 2 < 2 ^ 17 ∧
      bitOf (ux s 2) 16 = true ∧ ux s 3 < 2 ^ 17 ∧ bitOf (ux s 3) 16 = false ∧ Ready s (.halt 3 false false 0) ∧
      ∀ k, k ∈ ownCores s 1 → (getCore s k).curator = true ∨ (getCore s k).running = none :=
  ⟨rfl, by decide +kernel, rfl, by decide +kernel, rfl, by decide +kernel, rfl, rfl, by decide +kernel⟩
/-- A core whose context awaits its Caliper comparison, and a mask that names a foreign core. -/
theorem witness_CoreAndRegionControl_checks :
    let s := onCore (fun c => { c with partid := 7 }) (curX [(xReg 1, 2), (xReg 2, 5)])
    let u := setCore s 1 { Core.reset with partid := 7, running := some false, ctxA := { Context.reset with mchk := some 3 } }
    Ready u (.halt 1 false false 0) ∧ ux u 1 < 2 ^ 17 ∧ bitOf (ux u 1) 16 = false ∧ ownCores u (ux u 1) = [1] ∧
      StillChecks (getCore u 1) ∧ HaltsAtOnce (getCore u 0) ∧ ownCores u (ux u 2) = [0] ∧ anyForeign u (ux u 2) = true :=
  ⟨rfl, by decide +kernel, rfl, by decide +kernel, ⟨rfl, _, rfl, by decide, rfl⟩, .inl rfl, by decide +kernel, by decide +kernel⟩

/-- Regions 5, running, and 6, stopped, of partition 0. -/
def sReg : State := { curX [(xReg 1, 5), (xReg 2, 0x10006), (xReg 3, 6), (xReg 4, 0x10005), (xReg 5, 2 ^ 17)] with
  regions := [{ (default : Region) with num := 5, phase := .running }, { (default : Region) with num := 6, phase := .stopped }] }

theorem witness_CoreAndRegionControl_stop : (∃ r, namedRegions sReg 5 = [r] ∧ findRegion sReg r.part 5 = some r ∧
      r.phase = .running ∧ r.cfg.homeChip = sReg.chip) ∧ sReg.cur < 16 ∧
    ux sReg 1 % 2 ^ 16 = 5 ∧ Ready sReg (.pstop 1 false false 0) ∧ bitOf (ux sReg 1) 16 = false ∧ ux sReg 1 < 2 ^ 16 ∧
    Ready sReg (.pdrain 1 false false 0) ∧ namedRegions sReg 0x1234 = [] :=
  ⟨⟨_, rfl, rfl, rfl, rfl⟩, by decide +kernel, rfl, rfl, rfl, by decide +kernel, rfl, rfl⟩
theorem witness_CoreAndRegionControl_far : ∃ r : Region, r.phase = .running ∧ r.cfg.homeChip ≠ sReg.chip :=
  ⟨{ (default : Region) with phase := .running, cfg := { (default : ImagePart) with homeChip := 9 } }, rfl, by decide +kernel⟩
theorem witness_CoreAndRegionControl_thaw : (∃ r, namedRegions sReg 6 = [r] ∧ findRegion sReg r.part 6 = some r ∧
      r.phase = .stopped ∧ r.wasDrained = false) ∧ ux sReg 2 % 2 ^ 16 = 6 ∧
    Ready sReg (.pstopThaw 2 false false 0) ∧ ux sReg 2 < 2 ^ 17 ∧ bitOf (ux sReg 2) 16 = true ∧
    ux sReg 4 % 2 ^ 16 = 5 ∧ bitOf (ux sReg 4) 16 = true ∧ Ready sReg (.pdrain 3 false false 0) ∧ ux sReg 3 % 2 ^ 16 = 6 ∧
    2 ^ 17 ≤ ux sReg 5 ∧ Ready sReg (.pstop 5 false false 0) ∧ Ready sReg (.pdrain 5 false false 0) :=
  ⟨⟨_, rfl, rfl, rfl, rfl⟩, rfl, rfl, by decide +kernel, rfl, rfl, rfl, rfl, rfl, by decide +kernel, rfl, rfl⟩

theorem witness_CoreAndRegionControl_mayThaw : (namedRegions sReg 5).Nodup ∧ (namedRegions sReg 6).Nodup ∧
    (∀ r, r ∈ namedRegions sReg 6 → mayThaw sReg r = true) ∧ (∀ r, r ∈ namedRegions sReg 5 → mayThaw sReg r = false) ∧
    (namedRegions sReg 6).map (·.phase) = [.stopped] ∧ (namedRegions sReg 5).map (·.phase) = [.running] :=
  ⟨by decide +kernel, by decide +kernel, by decide +kernel, by decide +kernel, by decide +kernel, by decide +kernel⟩

/-- Core 0 in curator mode, context A preempted; the operands name core 0, context A, slot 1. -/
def sSave : State := onCtx (fun x => { x with status := .preempted }) (curX [(xReg 1, 1), (xReg 2, 1), (xReg 3, 0x10001)])

theorem witness_ShadowAndTranslations_save : ux sSave 1 = 2 ^ sSave.cur + b01 false * 2 ^ 16 ∧ ux sSave 2 < 2 ∧
    Ready sSave (.csave 1 false 2 false false 0) ∧ (curCore sSave).curator = true ∧ saveRefused sSave 0 1 false = false ∧
    (getCtx (getCore sSave 0) false).relq = [] ∧ maskCores (ux sSave 1) = [0] ∧ bitOf (ux sSave 3) 16 = true ∧
    saveRefused sSave 0 1 true = true :=
  ⟨by decide +kernel, by decide +kernel, rfl, rfl, rfl, rfl, rfl, rfl, rfl⟩
theorem witness_ShadowAndTranslations_rest : (getCtx (getCore sSave 0) false).producers = [] ∧ (getCore sSave 0).mwld = none ∧
    (∀ y, (getCore sSave 0).running = some y → (getCtx (getCore sSave 0) y).rerun = .none) ∧ HaltsAtOnce (getCore sSave 0) ∧
    ux sSave 1 < 2 ^ 17 := ⟨rfl, rfl, nofun, .inl rfl, by decide +kernel⟩
/-- A context in shadow slot 1, its image part at offset 0 of the boot region. -/
def sLoad : State := { memWrite (onCore (fun c => { c with shadow1 := some ⟨false, 0, { Context.reset with status := .preempted }, []⟩ })
  (curX [(xReg 1, 1), (xReg 2, 1)])) (bootKey 0) [1] with bases := [0] }

/-- How firmware reads a part is opaque (log entry 14): the witness stands on a byte string that it reads as a part. -/
theorem witness_ShadowAndTranslations_load (p : ImagePart) (h : Config.readPart [] = some p) :
    Ready sLoad (.cload 1 false 2 false false 0) ∧ loadRefused sLoad 0 1 false = false ∧ shadowBad sLoad 0 1 = false ∧
      loadRefused sLoad 0 0 false = true ∧ maskCores (ux sLoad 1) = [0] ∧ tabWf noBundle (getCore sLoad 0).prog = true := by
  have hp : partAt sLoad 0 = some p := h
  have hb : sLoad.bases = [0] := rfl
  have hi : partImage sLoad 0 = 0 := rfl
  have hc : partChip sLoad 0 = sLoad.chip := rfl
  refine ⟨rfl, ?_, rfl, rfl, rfl, rfl⟩
  show ((findImage sLoad 0 false).isNone && (findImage sLoad 0 true).isNone) = false
  cases hf : p.fallback <;> simp [findImage, findBase, hb, hp, hi, hc, hf]
/-- Two hard flips in one word of the slot. -/
theorem witness_ShadowAndTranslations_bad :
    shadowBad { sLoad with flips := [(8 * shadowKey 0 1, true), (8 * shadowKey 0 1 + 1, true)] } 0 1 = true := by decide +kernel
theorem witness_ShadowAndTranslations_tlbi :
    let s := curX [(xReg 1, 3), (xReg 2, 2), (xReg 3, 1), (xReg 4, 7)]
    Ready s (.tlbiAll 1 false 0 false false 0) ∧ 3 ≤ ux s 1 ∧ ux s 2 = 2 ∧ ux s 0 = 0 ∧ bitsOf (curCore s).partid.toNat 0 8 = 0 ∧
      Ready s (.tlbiAll 2 false 0 false false 0) ∧ Ready s (.tlbiPage 3 false 4 false false 0) ∧ ux s 3 < 3 ∧ ux s 3 = 1 ∧
      Ready s (.tlbiAsid 0 false 0 false false 0) ∧ ux s 4 ≠ 0 ∧
      bitsOf (curCore (onCore (fun c => { c with partid := 1 }) s)).partid.toNat 0 8 ≠ 0 ∧
      (∀ c, c ∈ s.cores → ∀ j, j ∈ c.jobs → jobHolds (ux s 2) 0 j = false) ∧ s.accs = [] :=
  ⟨rfl, by decide +kernel, rfl, rfl, rfl, rfl, rfl, by decide +kernel, rfl, rfl, by decide +kernel, by decide +kernel, by decide +kernel, rfl⟩
/-- A job performs a fabric access that it translated by ASID 0. -/
theorem witness_ShadowAndTranslations_holds : ∃ j : Job, jobHolds 2 0 j = true ∧
    j ∈ (getCore (onCore (fun c => { c with jobs := [j] }) (curX [(xReg 1, 2)])) 0).jobs :=
  ⟨{ (default : Job) with state := .running, bytes := [0, 0, 8, 0], pend := [default] }, by decide +kernel, List.Mem.head _⟩
theorem witness_SlotTablesAndKeys_write :
    let s := curX [(xReg 1, 0x9100), (xReg 2, 0xFF), (xReg 3, 2 ^ 16)]
    Ready s (.sltw 1 false 2 false false 0) ∧ bitOf (ux s 1) 16 = false ∧ ux s 1 < 2 ^ 17 ∧ bitsOf (ux s 1) 8 8 ≤ 145 ∧
      ux s 2 = 0xFF ∧ Ready s (.sltwCommit 3 false 0 false false 0) ∧ ux s 3 = 2 ^ 16 ∧ ux s 0 = 0 ∧
      (curCore s).switchWait = none ∧ (curCore (onCore (fun c => { c with switchWait := some true }) s)).switchWait = some true :=
  ⟨rfl, rfl, by decide +kernel, by decide +kernel, rfl, rfl, rfl, rfl, rfl, rfl⟩
/-- Slots 1 and 2 are committed; slot 1 has a pending entry. -/
theorem witness_SlotTablesAndKeys_switch :
    let s := writePending (curX []) 1 3 4
    let u := { s with router := { s.router with commit := [(1, 2)] } }
    tabWf freeSlot u.router.slots = true ∧ tabWf freeSlot u.router.pending = true ∧
      tabGet freeSlot u.router.pending (slotKey 3 1) ≠ tabGet freeSlot u.router.slots (slotKey 3 1) ∧ (1 < 256) ∧
      ∃ c, c ∈ u.router.commit ∧ c.1 ≤ 1 ∧ 1 < c.1 + c.2 :=
  ⟨by decide +kernel, by decide +kernel, by decide +kernel, by decide, (1, 2), by decide +kernel, by decide, by decide⟩

/-- Link 3 is up, with transmit key slot 0 of row 16 active and slot 1 loaded. -/
def sKey : State := setLink (curX [(xReg 1, 3), (xReg 2, 0x83), (xReg 3, 0x40)]) 3
  { (default : Link) with up := true, tx := [(32, ⟨.active, 1, 0, 0⟩), (33, ⟨.loaded, 2, 0, 0⟩)] }

theorem witness_SlotTablesAndKeys_key : rowOf (curCore sKey) = 16 ∧ Ready sKey (.lkey 1 false 3 false false 0) ∧ ux sKey 1 < 2 ^ 8 ∧
    (getLink sKey 3).up = true ∧ ux sKey 3 % 32 = 0 ∧ LoadGoes sKey .spad 0x40 32 32 ∧ bitOf (ux sKey 1) 7 = false ∧
    bitOf (ux sKey 2) 7 = true ∧ ux sKey 2 % 128 = 3 ∧ (getKey (getLink sKey 3).rx 16 (idleSlot (getLink sKey 3).rx 16)).state ≠ .held ∧
    Ready sKey (.lksw 1 false false 0) ∧ (∃ q, activeSlot (getLink sKey 3).tx 16 = some q) ∧
    (getKey (getLink sKey 3).tx 16 (idleSlot (getLink sKey 3).tx 16)).state = .loaded ∧ ∀ w, w ∈ sKey.router.waiting → w.inp < 256 :=
  ⟨rfl, rfl, by decide +kernel, rfl, rfl, ⟨rfl, rfl, rfl⟩, rfl, rfl, rfl, by decide +kernel, rfl, ⟨_, rfl⟩, rfl, by decide +kernel⟩
theorem witness_RetirementAndJobs_retire :
    let s := curX [(xReg 1, 1), (xReg 2, 2), (xReg 3, 3)]
    Ready s (.retc 1 false false 0) ∧ s.cur < 16 ∧ MayRetire s false ∧ MayRetire s true ∧ ux s 1 < 2 ∧
      Ready s (.retcCore 2 false false 0) ∧ ux s 2 = 2 ∧ Ready s (.retc 3 false false 0) ∧ 3 ≤ ux s 3 ∧
      (let j : Job := { (default : Job) with owner := .b, state := .running }; ownJob true j = true ∧ j.state = .running) :=
  ⟨rfl, by decide +kernel, by unfold MayRetire; decide +kernel, by unfold MayRetire; decide +kernel, by decide +kernel, rfl, rfl, rfl,
    by decide +kernel, rfl, rfl⟩
theorem witness_RetirementAndJobs_job :
    let s := onCore (fun c => { c with jobs := [{ (default : Job) with card := 0x80, state := .suspended }] })
      (curX [(xReg 1, 0x80), (xReg 2, 0x81), (xReg 3, 2 ^ 23 - 128)])
    Ready s (.jkil 1 false false 0) ∧ ux s 3 % 128 = 0 ∧ ux s 3 < 2 ^ 23 ∧ Ready s (.jrsm 1 false false 0) ∧ ux s 1 % 128 = 0 ∧
      (∃ j, j ∈ (curCore s).jobs ∧ j.card = ux s 1 ∧ j.state = .suspended) ∧ Ready s (.jkil 2 false false 0) ∧ ux s 2 % 128 ≠ 0 :=
  ⟨rfl, rfl, by decide +kernel, rfl, rfl, ⟨_, List.Mem.head _, rfl, rfl⟩, rfl, by decide +kernel⟩
theorem witness_RetirementAndJobs_kill : (let j : Job := { (default : Job) with state := .running, pend := [default] }
    j.state = .running ∧ j.pend ≠ []) ∧ (default : Job).pend = [] ∧ Memory.wf (curX []).mem = true :=
  ⟨⟨rfl, by decide⟩, rfl, rfl⟩

/-! ### Witnesses: memory and the load/store slot -/

theorem witness_MemoryBytes : Memory.wf (memWrite State.reset 0x10 [1, 0, 2]).mem = true ∧
    (memWrite State.reset 0x10 [1, 0, 2]).mem = [(0x10, 1), (0x12, 2)] ∧ (15 < 16) ∧ 2 ^ 23 - 1 < spaceSize .spad :=
  ⟨rfl, rfl, by decide, by decide +kernel⟩
theorem witness_AccessCauses : (5 : Int) % (8 : Nat) ≠ 0 ∧ ((-8 : Int) % (8 : Nat) = 0 ∧ (-8 : Int) < 0) ∧
    (spaceSize .spad : Int) < (2 ^ 23 : Int) - 4 + 8 ∧ (0 : Int) % (64 : Nat) = 0 ∧ (0 : Int) + (256 : Nat) ≤ spaceSize .win := by decide +kernel
/-- The ring of port 7 hides its empty entry 0 and its length array; entry 3, with the token, may be read. -/
theorem witness_AccessCauses_ring : BoundRing (curCore sRing) false (7, ringIn) ∧ HiddenByte (getCtx (curCore sRing) false) (7, ringIn) 0x1000 ∧
    HiddenByte (getCtx (curCore sRing) false) (7, ringIn) 0x203F ∧ (0 < ringIn.es) ∧ (curCore sRing).curator = false ∧
    visibleToks ringIn (getIn (getCtx (curCore sRing) false) 7) = [⟨3, 0, 9, 0, 5, 64, 0⟩] ∧ (0x1300 - ringIn.base) / ringIn.es = 3 ∧
    accessTrap sRing .spad (0x1300 : Nat) 64 64 = none :=
  ⟨⟨nofun, nofun, by decide +kernel⟩, .inr ⟨by decide, by decide, by decide +kernel⟩, .inl (by decide +kernel), by decide, rfl, rfl, rfl, rfl⟩
theorem witness_AccessCauses_arena : ((onCore (fun c => { c with arena := some 0x100000 }) (stgX [])) |> curCore).arena = some 0x100000 ∧
    (0x100000 : Int) ≤ 0x100000 ∧ (0xFFFC0 : Int) < 0x100000 ∧ (curCore (stgX [])).arena = none := ⟨rfl, by decide, by decide, rfl⟩

def sMem : State := memWrite (stgX [(xReg 1, 0x40), (xReg 2, 0x8182838485868788), (xReg 3, 2 ^ 23 - 8), (xReg 5, 0x41)])
  (spaceKey 0 .spad 0x40) [0x80, 0xFF]

theorem witness_LoadsAndStores_load : loadOf sMem (.lds 1 1 false false 0 true 0 0) =
      some (.spad, 0x40, 1, xReg 1, fun v => intMod 64 (sextNat (8 * 2 ^ 0) v)) ∧
    Ready sMem (.lds 1 1 false false 0 true 0 0) ∧ LoadGoes sMem .spad 0x40 1 (loadAlign 1) ∧
    exec (.lds 1 1 false false 0 true 0 0) sMem = .next (sendLong sMem [(xReg 1, 0xFFFFFFFFFFFFFF80)] 0 .plain) :=
  ⟨rfl, rfl, ⟨rfl, rfl, rfl⟩, rfl⟩
theorem witness_LoadsAndStores_store : storeOf sMem (.sts 2 3 false false false 3 0 0) =
      some (.spad, 2 ^ 23 - 8, 8, [0x88, 0x87, 0x86, 0x85, 0x84, 0x83, 0x82, 0x81]) ∧ Ready sMem (.sts 2 3 false false false 3 0 0) ∧
    storeTrap sMem .spad (2 ^ 23 - 8) 8 8 = none ∧ StoreRoom sMem ∧ Memory.wf sMem.mem = true ∧
    (∃ t, exec (.sts 2 3 false false false 3 0 0) sMem = .next t) ∧ (curCore sMem).curator = false :=
  ⟨rfl, rfl, rfl, .inr (by decide +kernel), rfl, ⟨_, rfl⟩, rfl⟩
theorem witness_LoadsAndStores_trap : ∃ sp a al bs c v, storeOf sMem (.sts 2 5 false false false 1 0 0) = some (sp, a, al, bs) ∧
    storeTrap sMem sp a bs.length al = some (c, v) := ⟨_, _, _, _, _, _, rfl, rfl⟩
theorem witness_LoadsAndStores_curator : StoreRoom (curX []) := .inl rfl
/-! ### Witnesses: streams and rings -/

/-- A descriptor over 256 elements of one dimension, stride 256 bytes, with further fields. -/
def strm (fields : Nat) (i : Nat) : Stream := ⟨true, BitVec.ofNat 512 (256 * 2 ^ 40 + 256 * 2 ^ 56 + fields), [i, 0, 0, 0, 0, 0], false, none⟩

/-- Stream 1 reads the scratchpad from 0x1000, 2 writes it, 3 reads pages of 2^11 bytes through the index table at 0x40
(entry 0 resident, entry 1 not), 4 the head token of port 7, 5 is not loaded. -/
def stRead : Stream := strm 0x1000 0
def stWrite : Stream := strm (0x1000 + 2 ^ 33) 0
def stPaged : Stream := strm (2 ^ 283 + 11 * 2 ^ 285 + 0x40 * 2 ^ 290) 0
def stMiss : Stream := strm (2 ^ 283 + 11 * 2 ^ 285 + 0x40 * 2 ^ 290) 8
def stHead : Stream := ⟨true, BitVec.ofNat 512 (2 * 2 ^ 27 + 7 * 2 ^ 34), [0, 0, 0, 0, 0, 0], false, none⟩
def sStr : State := memWrite (onCtx (fun x => { x with live := { x.live with
    st := (((x.live.st.setIfInBounds 1 stRead).setIfInBounds 2 stWrite).setIfInBounds 3 stPaged).setIfInBounds 4 stHead } }) sRing)
  (spaceKey 0 .spad 0x40) ([0, 0x40, 0, 0] ++ [0, 0x20, 0, 0x80])

theorem witness_StreamAccesses_direct : stIen stRead = false ∧ (stBase stRead + stOffset stRead) % (64 : Int) = 0 :=
  ⟨rfl, by decide +kernel⟩
theorem witness_StreamAccesses_paged : stIen stPaged = true ∧ EntryAt sStr stPaged (stPage stPaged) sStr 0x4000 ∧
    stPage stPaged % ((2 ^ stIshift stPaged : Nat) : Int) + (stOffset stPaged - stPage stPaged) = 0 ∧
    bitOf 0x4000 31 = false ∧ ((bitsOf 0x4000 0 27 : Nat) + (0 : Int)) % (64 : Int) = 0 :=
  ⟨rfl, ⟨0x40, 0x4000, sStr, by decide +kernel, ⟨rfl, rfl, rfl⟩, rfl, rfl, rfl, rfl, rfl⟩, by decide +kernel, rfl, by decide +kernel⟩
theorem witness_StreamAccesses_miss : stIen stMiss = true ∧ EntryAt sStr stMiss (stPage stMiss) sStr 0x80002000 ∧
    bitOf 0x80002000 31 = true ∧ stSpace stMiss ≠ 2 ∧ stPage stMiss = 2048 :=
  ⟨rfl, ⟨0x44, 0x80002000, sStr, by decide +kernel, ⟨rfl, rfl, rfl⟩, rfl, rfl, rfl, rfl, rfl⟩, rfl, by decide +kernel, by decide +kernel⟩
theorem witness_StreamAccesses_read : StreamAt sStr 1 stRead 256 64 sStr 0x1000 false stRead ∧ stSpace stRead ≠ 2 ∧
    LoadGoes sStr .spad 0x3000 256 64 := ⟨fun _ => rfl, by decide +kernel, ⟨rfl, rfl, rfl⟩⟩
theorem witness_StreamAccesses_head : StreamAt sStr 4 stHead 64 64 sStr 0 false stHead ∧ stSpace stHead = 2 ∧
    ringCfg (actCtx sStr) (stPort stHead) = some ringIn ∧
    visibleToks ringIn (getIn (actCtx sStr) (stPort stHead)) = [⟨3, 0, 9, 0, 5, 64, 0⟩] ∧
    LoadGoes sStr .spad (entryAddr ringIn 3 + 16 + 0) 64 1 := ⟨fun _ => rfl, rfl, rfl, rfl, ⟨rfl, rfl, rfl⟩⟩
theorem witness_StreamLoadsAndStores_load : Ready sStr (.vld 1 3 0) ∧ stPaged.loaded = true ∧ stDir stPaged = false ∧
    mxOf (stFmt stPaged) = none ∧ StreamReads sStr 3 stPaged 256 64 sStr (actRead sStr .spad 0x4000 256) { stPaged with page := some 0 } :=
  ⟨rfl, rfl, rfl, rfl, fun _ => rfl⟩
theorem witness_StreamLoadsAndStores_store : Ready sStr (.vst 1 2 false 0) ∧ stWrite.loaded = true ∧ stDir stWrite = true ∧
    (let st' := { strm (2 ^ 33 + 0x4000) 0 with miss := false }
     StreamAt sStr 2 st' 256 64 sStr 0x4000 false st' ∧ storeTrap (putStream sStr 2 st') .spad 0x4000 256 64 = none ∧
       StoreRoom (putStream sStr 2 st')) :=
  ⟨rfl, rfl, rfl, fun _ => rfl, rfl, .inr (by decide +kernel)⟩
theorem witness_StreamLoadsAndStores_miss : ∃ s' a st', StreamAt sStr 3 { stMiss with desc := stMiss.desc ||| (1 <<< 33) } 256 64 s' a true st' :=
  ⟨_, _, _, fun _ => rfl⟩
theorem witness_StreamLoadsAndStores_bad : Ready sStr (.vld 1 5 0) ∧ (getStream sStr 5).loaded = false ∧ Ready sStr (.vst 1 1 false 0) ∧
    stDir (getStream sStr 1) = false ∧ stDir (getStream sStr 2) = true := ⟨rfl, rfl, rfl, rfl, rfl⟩
theorem witness_AccumulatorSegments :
    let s := stgX [(xReg 1, 0x40)]
    Ready s (.acst 255 15 1 false 0) ∧ storeTrap s .spad (ux s 1) 256 64 = none ∧ rowBusy s 255 = false ∧
      acldOn (actCtx s) 255 = false ∧ badWord s (accKey s.cur 255 960) 256 = none ∧ StoreRoom s ∧
      Ready s (.acld 255 15 1 false 0) ∧ LoadGoes s .spad (ux s 1) 256 64 ∧ undoOver (actCtx s) [255] = false ∧ s.cur < 16 ∧
      (curCore s).curator = false :=
  ⟨rfl, rfl, rfl, rfl, rfl, .inr (by decide +kernel), rfl, ⟨rfl, rfl, rfl⟩, rfl, by decide +kernel, rfl⟩
/-- An ACLD of segment 15 of row 255 is outstanding. -/
theorem witness_AccumulatorSegments_lands :
    let s := onCtx (fun x => { x with producers := [.acld 255 15 9] }) (stgX [])
    (15 < 16) ∧ tabWf 0 (getCore s 0).acc = true ∧ (getProd (getCore s 0) (whoCtx false))[0]? = some (.acld 255 15 9) ∧
      (getProd (getCore s 0) (whoCtx false)).take 0 = [] ∧ ∀ w, (255, w) ∉ (ctxAt s 0 false).undo :=
  ⟨by decide, rfl, rfl, rfl, fun _ => nofun⟩

/-- A legal descriptor lies at 0x40, an illegal one (space 3) at 0x80. -/
def sDesc : State := memWrite (memWrite (stgX [(xReg 1, 0x40), (xReg 2, 0x80), (xReg 3, 255), (xReg 4, 256)]) (spaceKey 0 .spad 0x40)
  (natLe 64 stRead.desc.toNat)) (spaceKey 0 .spad 0x80) (natLe 64 (3 * 2 ^ 27))

theorem witness_StreamRegisters_config : Ready sDesc (.stcfg 1 1 false 0 0) ∧ LoadGoes sDesc .spad 0x40 64 64 ∧
    descIllegal (curCore sDesc) (leNat (actRead sDesc .spad 0x40 64)) = false ∧
    Ready sDesc (.stcfg 1 2 false 0 0) ∧ descIllegal (curCore sDesc) (leNat (actRead sDesc .spad 0x80 64)) = true ∧
    ((actRegs sStr).st.getD 1 .reset).loaded = true ∧ ((actRegs sDesc).st.getD 1 .reset).loaded = false ∧
    (let s := onCtx (fun x => { x with restored := [(1, [5, 0, 0, 0, 0, 0], true)] }) sDesc
     ((actCtx s).restored.find? fun r => r.1 == 1) = some (1, [5, 0, 0, 0, 0, 0], true) ∧ (curCore s).curator = false) := by
  refine ⟨rfl, ⟨rfl, rfl, rfl⟩, ?_, rfl, ?_, rfl, rfl, rfl, rfl⟩ <;> decide +kernel
theorem witness_StreamRegisters_index :
    let s := onCtx (fun x => { x with live := { x.live with st := x.live.st.setIfInBounds 1 stRead } }) sDesc
    Ready s (.stget 1 1 6 0) ∧ Ready s (.stset 3 1 false 0 0) ∧ stRead.loaded = true ∧ getStream s 1 = stRead ∧
      ux s 3 < stCount stRead 0 ∧ stCount stRead 0 ≤ ux s 4 ∧ Ready s (.stset 4 1 false 0 0) ∧ Ready s (.stset 0 1 false 6 0) ∧
      Ready s (.stadv 1 5 0) ∧ (getStream s 2).loaded = false ∧ Ready s (.stset 3 2 false 0 0) ∧ Ready s (.stadv 2 0 0) :=
  ⟨rfl, rfl, rfl, rfl, by decide +kernel, by decide +kernel, rfl, rfl, rfl, rfl, rfl, rfl⟩
theorem witness_RingPopsAndCells_pop : Ready sRing (.rpop 7 0) ∧ ringCfg (actCtx sRing) 7 = some ringIn ∧ Ready sRing (.rpop 0 0) ∧
    ringCfg (actCtx sRing) 0 = none := ⟨rfl, rfl, rfl, rfl⟩
/-- The cell holds 3, so the result is 3 × 2^0. -/
theorem witness_RingPopsAndCells_cell :
    let s := memWrite (stgX [(xReg 1, 0x40)]) (spaceKey 0 .spad 0x40) [3]
    Ready s (.xrd 1 1 false 0 0) ∧ LoadGoes s .spad (lsAddr s 1 (0 : BitVec 10) 16) 16 16 ∧ leNat (actRead s .spad (lsAddr s 1 (0 : BitVec 10) 16).toNat 16) = 3 ∧
      roundTo f64 .rne (dyOfInt (sextNat 128 3) (actRegs s).xbp.toInt) = (0x4008000000000000, 0) ∧ floatTrap s 0 = 0 :=
  ⟨rfl, ⟨rfl, rfl, rfl⟩, by decide +kernel, by decide +kernel, rfl⟩

/-! ### Witnesses: matrix slot -/

/-- Formats FP8 E4M3 by FP8 E4M3; v0 holds 1.0 in element 0; the front plane holds 2.0 at row 0, column 3. -/
def sMac : State := onCore (fun c => { c with plane0 := [(0, ⟨4, 0x40000000, [], none⟩)] })
  (onCtx (fun x => { x with live := { x.live with acode := 4, wcode := 4, rec0 := ⟨4, 1, []⟩ } }) (stgX [(vReg 0, 0x38)]))

theorem witness_MacBeats : Ready sMac (.mac 255 16 1 false 0) ∧ mfmtPair (actRegs sMac).acode.toNat (frontCode (actRegs sMac)) = true ∧
    sMac.cur < 16 ∧ ActRow sMac 16 4 sMac (actReg sMac 0 4) ∧ (actReg sMac 0 4).length = codeK (frontCode (actRegs sMac)) ∧
    RowFree sMac 255 ∧ tabWf 0 (curCore sMac).acc = true :=
  ⟨rfl, by decide +kernel, by decide +kernel, ⟨rfl, rfl⟩, by decide +kernel,
   ⟨rfl, fun _ => rfl, rfl, rfl⟩, rfl⟩
theorem witness_MacBeats_stream :
    let s := onCtx (fun x => { x with live := { x.live with acode := 4, st := x.live.st.setIfInBounds 1 (strm (0x1000 + 4 * 2 ^ 29) 0) } }) (stgX [])
    mxOf 4 = none ∧ (getStream s 1).loaded = true ∧ stFmt (getStream s 1) = 4 ∧ stDir (getStream s 1) = false ∧
      StreamReads s 1 (getStream s 1) (codeK 4 * codeBits 4 / 8) (codeBits 4 / 8) s (actRead s .spad 0x1000 128) (getStream s 1) ∧
      Ready s (.mac 0 2 0 false 0) ∧ (getStream s 2).loaded = false :=
  ⟨rfl, rfl, rfl, rfl, fun _ => rfl, rfl, rfl⟩

/-- Stream 1 reads weights in FP8 E4M3 rows of 1024 bytes. -/
def sLoadW : State := onCtx (fun x => { x with live := { x.live with wcode := 4, st := x.live.st.setIfInBounds 1 (strm (0x1000 + 4 * 2 ^ 29) 0) } }) (stgX [])

theorem witness_WeightLoads : Ready sLoadW (.mwld 63 1 0) ∧ mwldIllegal (actRegs sLoadW) (getStream sLoadW 1) = false ∧ sLoadW.cur < 16 ∧
    (∃ s' data st', BeatRows sLoadW 1 (getStream sLoadW 1) 4 63 s' data st' ∧ s'.cores = sLoadW.cores ∧ s'.cur = sLoadW.cur) ∧
    (curCore sLoadW).mwld = none ∧ (actCtx sLoadW).copy.front = (actRegs sLoadW).front ∧ (curCore sLoadW).curator = false :=
  ⟨rfl, rfl, by decide +kernel, ⟨_, _, _, fun _ => rfl, rfl, rfl⟩, rfl, rfl, rfl⟩
theorem witness_WeightLoads_beat :
    let s := onCore (fun c => { c with mwld := some ⟨false, true, 63, [[]], false⟩ }) (stgX [])
    (getCore s 0).mwld = some ⟨false, true, 63, [[]], false⟩ ∧ (63 < 64) := ⟨rfl, by decide⟩
/-- A mask block lies at 0x400, one with lmb and its bias array at 0x10000 at 0x800. -/
def sMask : State := memWrite (memWrite (stgX [(xReg 1, 0x400), (xReg 2, 0x800)]) (spaceKey 0 .spad 0x400) [0])
  (spaceKey 0 .spad 0x800) (natLe 31 (4 + 0x10000 * 2 ^ 224))

theorem witness_ArrayConfiguration : Ready sMask (.mfmt 15 15 0) ∨ Ready sMask (.mfmt 4 4 0) := .inr rfl
theorem witness_ArrayConfiguration_swap : Ready sMask (.mswp 0) ∧ sMask.cur < 16 ∧ (curCore sMask).curator = false ∧
    (∀ l, (curCore sMask).mwld = some l → l.ctx ≠ runCtx (curCore sMask)) := ⟨rfl, by decide +kernel, rfl, fun _ h => nomatch h⟩
theorem witness_ArrayConfiguration_clear : Ready sMask (.mclr 224 31 0) ∧ tabWf 0 (curCore sMask).acc = true ∧
    (∀ n, 224 ≤ n → n ≤ 224 + 31 → acldOn (actCtx sMask) n = false) ∧
    undoOver (actCtx sMask) (rangeFrom 224 (224 + 31 + 1)) = false := ⟨rfl, rfl, fun _ _ _ => rfl, by decide +kernel⟩
theorem witness_ArrayConfiguration_mask : Ready sMask (.mmpb 1 false 0) ∧ LoadGoes sMask .spad (ux sMask 1) 1024 64 ∧
    maskIllegal (leNat (actRead sMask .spad (ux sMask 1) 1024)) = false ∧ bitOf (leNat (actRead sMask .spad (ux sMask 1) 1024)) 2 = false ∧
    Ready sMask (.mmpb 2 false 0) ∧ LoadGoes sMask .spad (ux sMask 2) 1024 64 ∧
    maskIllegal (leNat (actRead sMask .spad (ux sMask 2) 1024)) = false ∧ bitOf (leNat (actRead sMask .spad (ux sMask 2) 1024)) 2 = true ∧
    LoadGoes sMask .spad (bitsOf (leNat (actRead sMask .spad (ux sMask 2) 1024)) 224 23 : Nat) 4096 64 := by
  refine ⟨rfl, ⟨rfl, rfl, rfl⟩, ?_, ?_, rfl, ⟨rfl, rfl, rfl⟩, ?_, ?_, ⟨?_, ?_, ?_⟩⟩ <;> decide +kernel
theorem witness_Drains : Ready sMac (.mdrn 1 255 15 true true 0) ∧ 255 ∉ (actCtx sMac).macBusy ∧ acldOn (actCtx sMac) 255 = false ∧
    (actCtx sMac).mmpbBusy = false ∧ badWord sMac (accKey sMac.cur 255 960) 256 = none :=
  ⟨rfl, by decide +kernel, rfl, rfl, rfl⟩
/-- The fix is enabled for row 255, column 1023. -/
def sFix : State := onCtx (fun x => { x with live := { x.live with
  fixEn := true, ckloc := 0x7FFFF, span := { x.live.span with delta := some (255, 1023, .zero) } } }) (stgX [])

theorem witness_Caliper_instructions : sMac.cur < 16 ∧ Ready sMac (.mchk 0) ∧ pendCount (actCtx sMac) < 64 ∧ Ready sMac (.mloc 0) ∧
    (actRegs sMac).fixEn = false ∧ Ready sMac (.mfix 0) ∧ Ready sFix (.mloc 0) ∧ (actRegs sFix).fixEn = true ∧
    (actRegs sFix).span.delta = some (255, 1023, .zero) ∧ Ready sFix (.mfix 0) ∧ (curCore sFix).curator = false ∧
    bitsOf (actRegs sFix).ckloc.toNat 0 8 = 255 ∧ bitsOf (actRegs sFix).ckloc.toNat 8 10 = 1023 ∧ acldOn (actCtx sFix) 255 = false ∧
    undoOver (actCtx sFix) [255] = false ∧ tabWf 0 (curCore sFix).acc = true ∧ badWord sFix (accKey sFix.cur 255 1023) 4 = none :=
  ⟨by decide +kernel, rfl, by decide +kernel, rfl, rfl, rfl, rfl, rfl, rfl, rfl, rfl, rfl, rfl, rfl, rfl, rfl, rfl⟩
/-- Nothing found; one row and one column off; two rows off. -/
def sChk (sp : Span) : State := onCtx (fun x => { x with mchk := some 3, live := { x.live with span := sp } }) (stgX [])
def rowOff : RowSpan := { RowSpan.reset with h := ⟨1, 0⟩, b := 1 }
def colOff : ColSpan := { ColSpan.reset with b := ⟨1, 0⟩ }

theorem witness_Caliper_compare : (ctxAt (sChk .reset) 0 false).mchk = some 3 ∧ (ctxAt (sChk .reset) 0 false).mmpbBusy = false ∧
    (ctxAt (sChk .reset) 0 false).macBusy = [] ∧ (compareSpan (sChk .reset) 0 false).rows = [] ∧
    (compareSpan (sChk .reset) 0 false).cols = [] ∧ arrayOpen (ctxAt (sChk .reset) 0 false) = false ∧
    arrayOpen (ctxAt (onCtx (fun x => { x with producers := [.acld 3 0 0] }) (sChk .reset)) 0 false) = true :=
  ⟨rfl, rfl, rfl, rfl, rfl, rfl, rfl⟩
theorem witness_Caliper_single :
    (compareSpan (sChk { Span.reset with rows := [(255, rowOff)], cols := [(1023, colOff)], b := 1 }) 0 false).rows.map (·.1) = [255] ∧
    (compareSpan (sChk { Span.reset with rows := [(255, rowOff)], cols := [(1023, colOff)], b := 1 }) 0 false).cols = [1023] := by
  constructor <;> decide +kernel
theorem witness_Caliper_many :
    let s := sChk { Span.reset with rows := [(4, rowOff), (255, rowOff)], b := 1 }
    (compareSpan s 0 false).rows.length + (compareSpan s 0 false).cols.length ≠ 0 ∧ (compareSpan s 0 false).rows.length ≠ 1 ∧
      bitOf (ctxAt s 0 false).live.ckpol.toNat 0 = false ∧ (ctxAt s 0 false).rerun = .none ∧ (ctxAt s 0 false).ckcnt = 0 ∧
      bitOf (ctxAt (onCtx (fun x => { x with live := { x.live with ckpol := 1 } }) s) 0 false).live.ckpol.toNat 0 = true :=
  ⟨by decide +kernel, by decide +kernel, rfl, rfl, rfl, rfl⟩

/-! ### Witnesses: engine slot -/

theorem witness_Launches : launchOf (.cpy 3 false 0 0) = some (0x01, 3, 0) ∧ Ready sRing (.cpy 3 false 0 0) ∧
    queueRoom sRing = true ∧ lsAddr sRing 3 (0 : BitVec 9) 128 = 2 ^ 23 - 128 ∧ lsAddr sRing 3 (0 : BitVec 9) 128 % 128 = 0 ∧
    (curCore sRing).curator = false ∧ pendCount (actCtx sRing) < 64 ∧
    queueRoom (onCore (fun c => { c with jobs := List.replicate 8 { (default : Job) with owner := .a } }) sRing) = false ∧
    lsAddr sRing 1 (0 : BitVec 9) 128 % 128 ≠ 0 ∧ (2 : Int) ^ 23 ≤ lsAddr sRing 3 (1 : BitVec 9) 128 :=
  ⟨rfl, rfl, rfl, by decide +kernel, by decide +kernel, rfl, by decide +kernel, by decide +kernel, by decide +kernel, by decide +kernel⟩
theorem witness_Launches_curator :
    let s := curX [(xReg 3, 2 ^ 23 - 128)]
    Ready s (.cpy 3 false 0 0) ∧ (curCore s).curator = true ∧ curatorIdle s = true ∧ s.scr.before = [] ∧ Memory.wf s.mem = true ∧
      ((2 ^ 23 - 128 : Nat) : Int) = lsAddr s 3 (0 : BitVec 9) 128 := ⟨rfl, rfl, rfl, rfl, rfl, by decide +kernel⟩
theorem witness_TokenInstructions_send : Ready sRing (.tsend 1 2 false 2 false 0 0) ∧ ux sRing 2 % 16 = 0 ∧ ux sRing 2 + 16 + ux sRing 2 ≤ 2 ^ 23 ∧
    outCfg (actCtx sRing) 0 = some outFifo ∧ 64 ≤ ux sRing 2 ∧ ux sRing 2 ≤ outFifo.maxlen ∧ pendCount (actCtx sRing) < 64 ∧
    sRing.scr.implicit = false ∧ (getOut (actCtx sRing) 0).credits = 2 ∧ outFifo.reorder = false ∧
    actBad sRing .spad (ux sRing 2) (16 + ux sRing 2) = none :=
  ⟨rfl, rfl, by decide +kernel, rfl, by decide +kernel, by decide +kernel, by decide +kernel, rfl, rfl, rfl, rfl⟩
theorem witness_TokenInstructions_noCredit :
    (getOut (actCtx (onCtx (fun x => modOut x 0 fun q => { q with credits := 0 }) sRing)) 0).credits = 0 := rfl
theorem witness_TokenInstructions_ticket : Ready sRing (.tsend 1 2 false 2 false 1 0) ∧ outCfg (actCtx sRing) 1 = some { outFifo with reorder := true } ∧
    (getOut (actCtx sRing) 1).granted = [0] ∧ ticketDist 0 (getOut (actCtx sRing) 1).head < 2 ^ outFifo.n ∧ 2 ^ outFifo.n ≤ 2 ^ 15 :=
  ⟨rfl, rfl, rfl, by decide +kernel, by decide +kernel⟩
/-- No granted ticket: the template names one. The oldest granted ticket lies outside the ring, or too far. -/
theorem witness_TokenInstructions_template :
    let s := onCtx (fun x => modOut x 1 fun q => { q with granted := [] }) sRing
    Ready s (.tsend 1 2 false 2 false 1 0) ∧ (getOut (actCtx s) 1).granted = [] ∧ LoadGoes s .spad (ux s 2 + 4 : Nat) 2 2 ∧
      leNat (actRead s .spad (ux s 2 + 4) 2) = 0 :=
  ⟨rfl, rfl, ⟨rfl, rfl, rfl⟩, by decide +kernel⟩
theorem witness_TokenInstructions_window :
    (getOut (actCtx (onCtx (fun x => modOut x 1 fun q => { q with granted := [16] }) sRing)) 1).granted = [16] ∧
    2 ^ outFifo.n ≤ ticketDist 16 0 ∧ ticketDist 16 0 < 2 ^ 15 ∧ 2 ^ 15 ≤ ticketDist 0x8000 0 := ⟨rfl, by decide +kernel⟩
theorem witness_TokenInstructions_bad : Ready sRing (.tsend 1 2 false 4 false 0 0) ∧ ux sRing 4 < 64 ∧ Ready sRing (.tsend 1 2 false 2 false 7 0) ∧
    outCfg (actCtx sRing) 7 = none := ⟨rfl, by decide +kernel, rfl, rfl⟩
theorem witness_TokenInstructions_grant : Ready sRing (.tktg 31 1 0) ∧ Ready sRing (.tktg 31 0 0) ∧ Ready sRing (.tktg 31 7 0) := ⟨rfl, rfl, rfl⟩
theorem witness_TokenInstructions_mark :
    let s := onCtx (fun x => { x with cfg := { x.cfg with ins := [], outs := [(0, outFifo)] } }) sRing
    Ready s (.mark 0) ∧ ctlPorts (actCtx s) = [] ∧ (∀ m, m ∈ membersOf s s.cur (runCtx (curCore s)) → ctlPorts (ctxAt s m.1 m.2) = []) ∧
      noCredit (actCtx s) = none ∧ heldTicket (actCtx s) = none ∧
      pendCount (actCtx s) < 64 ∧ s.scr.implicit = false ∧ Ready sRing (.mark 0) ∧ ctlPorts (actCtx sRing) = (7, ringIn) :: [] :=
  ⟨rfl, rfl, by decide +kernel, rfl, rfl, by decide +kernel, rfl, rfl, rfl⟩
theorem witness_TokenInstructions_markWaits :
    noCredit (actCtx (onCtx (fun x => modOut x 0 fun q => { q with credits := 0 }) sRing)) = some 0 ∧
    noCredit (actCtx sRing) = none ∧ heldTicket (actCtx sRing) = some 1 := ⟨rfl, rfl, rfl⟩
theorem witness_TokenInstructions_status : Ready sRing (.jstat 1 3 false 0) ∧ ux sRing 3 % 128 = 0 ∧ ux sRing 3 < 2 ^ 23 ∧
    (actCtx sRing).relq = [] ∧ badWord sRing (spaceKey sRing.cur .spad (ux sRing 3 + 4)) 2 = none ∧ ux sRing 1 % 128 ≠ 0 :=
  ⟨rfl, rfl, by decide +kernel, rfl, rfl, by decide +kernel⟩
theorem witness_Barriers :
    let s := stgX [(xReg 1, 2 ^ 23 - 8), (xReg 2, 2 ^ 32 - 1), (xReg 3, 2 ^ 32)]
    let t := curX [(xReg 1, 2 ^ 23 - 8), (xReg 2, 0)]
    ux s 1 % 8 = 0 ∧ ux s 1 < 2 ^ 23 ∧ Ready s (.bari 1 false 2 false 0) ∧ ux s 2 < 2 ^ 32 ∧ (curCore s).curator = false ∧
      queueRoom s = true ∧ pendCount (actCtx s) < 64 ∧ Ready s (.bari 1 false 3 false 0) ∧ 2 ^ 32 ≤ ux s 3 ∧
      Ready s (.bara 1 false true 0) ∧ Ready t (.bari 1 false 2 false 0) ∧ (curCore t).curator = true ∧
      Ready t (.bara 1 false true 0) ∧ curatorIdle t = true ∧ queueRoom t = true ∧
      queueRoom (onCore (fun c => { c with jobs := List.replicate 2 { (default : Job) with owner := .cur } }) t) = false ∧
      curatorIdle (onCore (fun c => { c with jobs := [{ (default : Job) with owner := .cur }] }) t) = false :=
  ⟨rfl, by decide +kernel, rfl, by decide +kernel, rfl, rfl, by decide +kernel, rfl, by decide +kernel, rfl, rfl, rfl, rfl, rfl, rfl,
    rfl, rfl⟩
/-- Addresses of other packages: bit 63 set; the last one names no word. -/
theorem witness_Barriers_remote :
    let s := stgX [(xReg 1, 2 ^ 63 + 9 * 2 ^ 44 + 2 ^ 40), (xReg 2, 2 ^ 63 + 9 * 2 ^ 44 + 2 ^ 40 + 4), (xReg 3, 2 ^ 63 + 9 * 2 ^ 44), (xReg 4, 2 ^ 23), (xReg 5, 4)]
    let t := curX [(xReg 1, 2 ^ 63 + 9 * 2 ^ 44 + 2 ^ 40)]
    Ready s (.bara 1 false true 0) ∧ ux s 1 % 8 = 0 ∧ bitOf (ux s 1) 63 = true ∧ remoteBarBad (ux s 1) = false ∧
      ux s 2 % 8 ≠ 0 ∧ bitOf (ux s 2) 63 = true ∧ remoteBarBad (ux s 3) = true ∧ ux s 3 % 8 = 0 ∧ bitOf (ux s 3) 63 = true ∧
      2 ^ 23 ≤ ux s 4 ∧ bitOf (ux s 4) 63 = false ∧ ux s 5 % 8 ≠ 0 ∧ bitOf (ux s 5) 63 = false ∧
      Ready t (.bara 1 false true 0) ∧ curatorIdle t = true ∧ (curCore t).curator = true ∧
      routable t (baraFlit t 0 (ux t 1) true) = false ∧
      routable (setLink { t with router := { t.router with escape := [(9, some 0x83)] } } 3 { (default : Link) with up := true }) (baraFlit t 0 (ux t 1) true) = true := by
  refine ⟨rfl, ?_, ?_, ?_, ?_, ?_, ?_, ?_, ?_, ?_, ?_, ?_, ?_, rfl, rfl, rfl, ?_, ?_⟩ <;> decide +kernel
theorem witness_Barriers_word : bitsOf 0 0 32 = 0 ∧ bitsOf (2 ^ 64 - 2 ^ 32 + 1) 0 32 = 1 ∧ 2 ^ 64 - 2 ^ 32 + 1 < 2 ^ 64 := by decide +kernel
/-! ### Witnesses: epochs, arbiter and scheduler -/

def onB (f : Context → Context) (s : State) : State := modCtxAt s 0 true f

/-- A boundary in context A with a withheld store and a max-magnitude setting, nothing outstanding. -/
def sCkpt (d : Boundary) : State := onCtx (fun x => { x with boundary := some d, withheld := [.amset 3 5, .store .spad 0x40 [1]] }) (stgX [])

/-- A boundary whose one withheld effect is a launch. -/
def sCkptJob : State := onCtx (fun x => { x with withheld := [.launch 0x10 0x1000 none] }) (sCkpt .ckpt)
theorem witness_Checkpoints_commit : commitDue (sCkpt .ckpt) 0 false = true ∧
    (∀ e, e ∈ (ctxAt (sCkpt .ckpt) 0 false).withheld → (∀ m a x, e ≠ .launch m a x) ∧ ∀ n p w, e ≠ .tierMiss n p w) ∧
    (ctxAt (sCkpt .ckpt) 0 false).boundary ≠ some .done ∧ commitDue (sCkpt .done) 0 false = true ∧
    (ctxAt (sCkpt .done) 0 false).boundary = some .done ∧ (ctxAt (sCkpt .done) 0 false).status = .running := by
  refine ⟨rfl, fun e h => ?_, by decide +kernel, rfl, rfl, rfl⟩
  rw [show (ctxAt (sCkpt .ckpt) 0 false).withheld = [.amset 3 5, .store .spad 0x40 [1]] from rfl] at h
  simp at h
  obtain rfl | rfl := h <;> exact ⟨nofun, nofun⟩
theorem witness_Checkpoints_launch : commitDue sCkptJob 0 false = true ∧
    (ctxAt sCkptJob 0 false).withheld = [.launch 0x10 0x1000 none] ∧ (ctxAt sCkptJob 0 false).relq = [] := ⟨rfl, rfl, rfl⟩
theorem witness_Checkpoints_store :
    let s := onCtx (fun x => { x with relq := [⟨0, .store .spad (2 ^ 23 - 1) [7]⟩] }) (stgX [])
    (ctxAt s 0 false).relq = ⟨0, .store .spad (2 ^ 23 - 1) [7]⟩ :: [] ∧ busyBefore s 0 0 .spad (2 ^ 23 - 1) 1 true = false :=
  ⟨rfl, rfl⟩
def sRerun (r : Rerun) : State := onCore (fun c => { c with kvec := 0x08000000 }) (onCtx (fun x => { x with rerun := r }) (sCkpt .ckpt))
theorem witness_Checkpoints_rerun : mayCommit (sRerun .first) 0 false = true ∧ (ctxAt (sRerun .first) 0 false).rerun = .first ∧
    (let s := sRerun (.second (signature (sRerun .first) 0 false) 0 none)
     mayCommit s 0 false = true ∧ (ctxAt s 0 false).rerun = .second (signature s 0 false) 0 none ∧ 0 = (ctxAt s 0 false).bundles) ∧
    (let s := sRerun (.second 0 0 none)
     (ctxAt s 0 false).rerun = .second 0 0 none ∧ 0 ≠ signature s 0 false ∧ hasVector (getCore s 0) 0x0B) := by
  refine ⟨rfl, rfl, ⟨rfl, ?_, rfl⟩, rfl, ?_, ?_⟩
  · decide +kernel
  · decide +kernel
  · unfold hasVector; decide +kernel

/-- No context of core 0 runs; A waits with priority 1, B with priority 2. -/
def sArb : State := onCore (fun c => { c with running := none })
  (onB (fun x => { x with status := .preempted, cfg := { x.cfg with prio := 2 } })
    (onCtx (fun x => { x with status := .armed, cfg := { x.cfg with prio := 1 } }) (stgX [])))

theorem witness_Scheduling_choice : choose sArb 0 = some true ∧ (∀ d, d ∈ waiters sArb 0 → starves (getCore sArb 0) (ctxAt sArb 0 d) = false) ∧
    waiters sArb 0 = [false, true] := by refine ⟨?_, ?_, ?_⟩ <;> decide +kernel
theorem witness_Scheduling_starving :
    let s := onCtx (fun x => { x with wait := 0x80000 }) sArb
    choose s 0 = some false ∧ false ∈ waiters s 0 ∧ starves (getCore s 0) (ctxAt s 0 false) = true := by
  refine ⟨?_, ?_, ?_⟩ <;> decide +kernel
theorem witness_Scheduling_decide : idleCore (getCore sArb 0) = true ∧ queueDue sArb 0 = false ∧ handoverDue sArb 0 = none ∧
    (ctxAt sArb 0 true).status = .preempted ∧ (ctxAt sArb 0 false).status = .armed ∧ isGang (ctxAt sArb 0 false) = false ∧
    (ctxAt sArb 0 false).firing = false := ⟨rfl, rfl, rfl, rfl, rfl, rfl, rfl⟩
theorem witness_Scheduling_candidate :
    let s := onCtx (fun x => { x with wait := 0x80000 }) sArb
    isCandidate s 0 false = true ∧ (getCore s 0).budget ≠ 0 ∧ (getCore s 0).budget.toNat / 2 ≤ (ctxAt s 0 false).wait := by
  refine ⟨?_, ?_, ?_⟩ <;> decide +kernel

/-- Context A runs with its period and its budget used up; B waits. -/
def sBusy : State := onCore (fun c => { c with running := some false, w := 0x100000, kvec := 0x08000000 })
  (onCtx (fun x => { x with status := .running, e := 0x1000000 }) sArb)

theorem witness_Scheduling_preempt : takable sBusy 0 = some false ∧ preemptDue sBusy 0 = true ∧ budgetDue sBusy 0 = true ∧
    (ctxAt sBusy 0 false).rerun = .none ∧ hasVector (getCore sBusy 0) 0x0C := by
  refine ⟨?_, ?_, ?_, rfl, ?_⟩
  · decide +kernel
  · decide +kernel
  · decide +kernel
  · unfold hasVector; decide +kernel
theorem witness_Scheduling_handover :
    let s := onB (fun x => { x with status := .staged }) sBusy
    handoverDue s 0 = some true ∧ (ctxAt s 0 (!true)).status = .running ∧ shadowBad s 0 (ctxAt s 0 true).cfg.shadow = false ∧
    (let s := { s with flips := [(8 * shadowKey 0 (ctxAt s 0 true).cfg.shadow, true), (8 * shadowKey 0 (ctxAt s 0 true).cfg.shadow + 1, true)] }
     handoverDue s 0 = some true ∧ shadowBad s 0 (ctxAt s 0 true).cfg.shadow = true) := by
  refine ⟨?_, ?_, ?_, ?_, ?_⟩ <;> decide +kernel
/-- Context A of core 0 and of core 1 are a gang. -/
def sGang : State :=
  let x : Context := { Context.reset with status := .armed, cfg := { Context.reset.cfg with gang := [0, 1] } }
  setCore (setCore State.reset 0 { Core.reset with ctxA := x }) 1 { Core.reset with ctxA := x }
theorem witness_Scheduling_gang : (0 / 2 = 0) ∧ ((0 % 2 == 1) = false) ∧ isGang (ctxAt sGang 0 false) = true ∧ triggerHolds sGang 0 false = true ∧
    membersOf sGang 0 false = [(0, false), (1, false)] ∧
    (∀ e, e ∈ membersOf sGang 0 false → e.1 < 16 ∧ (ctxAt sGang e.1 e.2).status = .armed ∧ (ctxAt sGang e.1 e.2).firing = false ∧
      (ctxAt sGang e.1 e.2).memberDone = false ∧ (ctxAt sGang e.1 e.2).stopped = none ∧ (ctxAt sGang e.1 e.2).ctlBusy = none) := by
  refine ⟨rfl, rfl, ?_, ?_, ?_, ?_⟩ <;> decide +kernel

/-- Context A awaits a range, a ticket or a record in x31. -/
def sAwait (p : Producer) : State := onCtx (fun x => { x with producers := [p], evTail := 1 }) sRing
theorem witness_AnswersArrive_range : (ctxAt (sAwait (.rng 31 5)) 0 false).producers = .rng 31 5 :: [] ∧
    (ctxAt (sAwait (.rng 31 5)) 0 false).rngReplay = [] ∧ posed (ctxAt (sAwait (.rng 31 5)) 0 false) = true ∧
    cellFrozen (sAwait (.rng 31 5)) 0 (ctxAt (sAwait (.rng 31 5)) 0 false) = false ∧ (sAwait (.rng 31 5)).cells = [] ∧
    (let s := { sAwait (.rng 31 5) with cells := [⟨0, 0, 0, 4, 2 ^ 32 - 1, false, []⟩] }
     s.cells.find? (cellOf (partOf (getCore s 0)) (ctxAt s 0 false)) = some ⟨0, 0, 0, 4, 2 ^ 32 - 1, false, []⟩) := ⟨rfl, rfl, rfl, rfl, rfl, rfl⟩
theorem witness_AnswersArrive_ticket :
    let s := onCtx (fun x => { x with cfg := { x.cfg with outs := [(1, { outFifo with reorder := true, peer := ⟨9, 0, false, 0⟩ })] } }) (sAwait (.tktg 31 1 false))
    (ctxAt s 0 false).producers = .tktg 31 1 false :: [] ∧ posed (ctxAt s 0 false) = true ∧ (getOut (ctxAt s 0 false) 1).asks = 0 ∧ outCfg (ctxAt s 0 false) 1 = some { outFifo with reorder := true, peer := ⟨9, 0, false, 0⟩ } ∧
      (getOut (ctxAt s 0 false) 1).replay = [] ∧ 9 ≠ s.chip := ⟨rfl, rfl, rfl, rfl, rfl, by decide +kernel⟩
theorem witness_AnswersArrive_next :
    let s := onCtx (fun x => { x with cfg := { x.cfg with ins := [(7, { ringIn with reorder := true })] } }) sRing
    nextTicket s (portAt s 0 false 7) ⟨9, 0, false, 0⟩ = some 0 ∧ (⟨9, 0, false, 0⟩ : PortAddr).chip ≠ s.chip := ⟨rfl, by decide +kernel⟩
theorem witness_AnswersArrive_record : (ctxAt (sAwait (.evpop 31 1)) 0 false).producers = .evpop 31 1 :: [] ∧
    (ctxAt (sAwait (.evpop 31 1)) 0 false).cfg.evq = some 0x40 ∧ posed (ctxAt (sAwait (.evpop 31 1)) 0 false) = true ∧
    (ctxAt (sAwait (.evpop 31 1)) 0 false).evHead + (ctxAt (sAwait (.evpop 31 1)) 0 false).evPopped < (ctxAt (sAwait (.evpop 31 1)) 0 false).evTail ∧
    badWord (sAwait (.evpop 31 1)) (spaceKey 0 .spad 0x40) 16 = none :=
  ⟨rfl, rfl, rfl, by decide +kernel, rfl⟩
/-- Two flips in one word of the record, hard or not. -/
theorem witness_AnswersArrive_badRecord (hard : Bool) :
    let k := 8 * spaceKey 0 .spad 0x40
    let s := onCore (fun c => { c with kvec := 0x08000000 }) { sAwait (.evpop 31 1) with flips := [(k, hard), (k + 1, hard)] }
    (∃ w, badWord s (spaceKey 0 .spad 0x40) 16 = some w ∧ persistent s w = hard) ∧ (ctxAt s 0 false).rerun = .none ∧
      (getCore s 0).running = some false ∧ (getCore s 0).curator = false ∧ (getCore s 0).faulted = false ∧
      (getCore s 0).halted = false ∧ hasVector (getCore s 0) 0x0A := by
  refine ⟨?_, rfl, rfl, rfl, rfl, rfl, ?_⟩
  · cases hard <;> exact ⟨_, rfl, by decide +kernel⟩
  · cases hard <;> unfold hasVector <;> decide +kernel
theorem witness_AnswersArrive_queue :
    let s := onCore (fun c => { c with fqctl := 0x10100000000, kvec := 0x08000000 }) (stgX [])
    queueDue s 0 = true ∧ budgetDue s 0 = false ∧ hasVector (getCore s 0) 0x20 :=
  ⟨rfl, rfl, by unfold hasVector; decide +kernel⟩
/-! ### Witnesses: ports, jobs, requests and answers -/

/-- A state with a flit at its target. -/
def arrive (s : State) (f : Flit) : State := { s with router := { s.router with arrived := [⟨0, f, 0⟩] } }

/-- A data token of 64 bytes for port 7 of context A of core 0, with its sequence number on the stream. -/
def tokFlit (seq : Nat) : Flit := { ((tokenFlits State.reset 0 ⟨0, 0, false, 7⟩ ⟨9, 0, 1, 0, 5, List.replicate 64 1⟩).headD default) with seq := seq, cls := 2 }
def sTok (seq : Nat) : State := arrive sRing (tokFlit seq)

theorem witness_TokensAndCredits_inOrder : GivenFlit (sTok 0) (tokFlit 0) ∧ partHere (sTok 0) (tokFlit 0) = true ∧
    (tokFlit 0).type = 1 ∧ (tokenPort (tokFlit 0)).core = 0 ∧ (tokenPort (tokFlit 0)).ctx = false ∧ (tokenPort (tokFlit 0)).port = 7 ∧
    ahead (sTok 0) (tokFlit 0) tokenLane = 0 ∧ partOf (getCore (sTok 0) 0) = (tokFlit 0).partition ∧
    joinToken [tokFlit 0] = some ⟨9, 0, 1, 0, 5, List.replicate 64 1⟩ ∧ ringCfg (ctxAt (sTok 0) 0 false) 7 = some ringIn ∧
    ringIn.reorder = false ∧ ringIn.cow = false :=
  ⟨⟨⟨0, tokFlit 0, 0⟩, rfl, rfl⟩, rfl, rfl, rfl, rfl, rfl, rfl, rfl, rfl, rfl, rfl, rfl⟩
theorem witness_TokensAndCredits_early : ahead (sTok 1023) (tokFlit 1023) tokenLane = 1023 ∧ 1023 < 1024 ∧
    GivenFlit (sTok 1023) (tokFlit 1023) := ⟨rfl, by decide, ⟨0, tokFlit 1023, 0⟩, rfl, rfl⟩
theorem witness_TokensAndCredits_again : ahead (sTok (2 ^ 32 - 1)) (tokFlit (2 ^ 32 - 1)) tokenLane = 2 ^ 32 - 1 ∧
    kept (sTok (2 ^ 32 - 1)) (tokFlit (2 ^ 32 - 1)) tokenLane = none ∧
    (∀ y, y = 8 ∨ y = 9 → ∃ s, s = putRx (sTok (2 ^ 32 - 1)) ⟨0, 16, 0, [(2 ^ 32 - 1, y, 5, [])], []⟩ ∧
      kept s (tokFlit (2 ^ 32 - 1)) tokenLane = some (y, 5, []) ∧ ahead s (tokFlit (2 ^ 32 - 1)) tokenLane = 2 ^ 32 - 1 ∧
      inFragment s (tokFlit (2 ^ 32 - 1)) = false) ∧
    (let s := putRx (sTok (2 ^ 32 - 1)) ⟨0, 16, 0, [(2 ^ 32 - 1, 8, 0, [])], []⟩
     inFragment { s with router := { s.router with frags := [⟨0, ⟨0, 0, false, 7⟩, [tokFlit (2 ^ 32 - 1)]⟩] } } (tokFlit (2 ^ 32 - 1)) = true) := by
  refine ⟨rfl, rfl, fun y h => ⟨_, rfl, ?_⟩, rfl⟩
  rcases h with rfl | rfl <;> exact ⟨rfl, rfl, rfl⟩
theorem witness_TokensAndCredits_foreign :
    let f := { tokFlit 0 with partition := 3 }
    GivenFlit (arrive sRing f) f ∧ partHere (arrive sRing f) f = false ∧
    (let s := setCore (arrive sRing f) 1 { Core.reset with partid := 3 }
     GivenFlit s f ∧ partHere s f = true ∧ partOf (getCore s 0) ≠ f.partition ∧ ahead s f tokenLane = 0) :=
  ⟨⟨⟨0, { tokFlit 0 with partition := 3 }, 0⟩, rfl, rfl⟩, by decide +kernel, ⟨⟨0, { tokFlit 0 with partition := 3 }, 0⟩, rfl, rfl⟩, by decide +kernel, by decide +kernel, rfl⟩
theorem witness_TokensAndCredits_unconfigured :
    let s := onCtx (fun x => { x with cfg := { x.cfg with ins := [] } }) (sTok 0)
    GivenFlit s (tokFlit 0) ∧ partHere s (tokFlit 0) = true ∧ ahead s (tokFlit 0) tokenLane = 0 ∧
    partOf (getCore s 0) = (tokFlit 0).partition ∧ (ctxAt s 0 false).status ≠ .empty ∧ ringCfg (ctxAt s 0 false) 7 = none :=
  ⟨⟨⟨0, tokFlit 0, 0⟩, rfl, rfl⟩, rfl, rfl, rfl, by decide +kernel, rfl⟩

/-- A token of 240 bytes in two flits; the region of the port has lost chip 0; a cow token for an empty context. -/
def longFlits : List Flit := tokenFlits State.reset 0 ⟨0, 0, false, 7⟩ ⟨9, 0, 1, 0, 5, List.replicate 224 1⟩
def longFlit (n seq : Nat) : Flit := { longFlits.getD n default with seq := seq, cls := 2 }
theorem witness_TokensAndCredits_parts : (longFlit 0 0).type = 1 ∧ (longFlit 1 1).type = 2 ∧ GivenFlit (arrive sRing (longFlit 0 0)) (longFlit 0 0) ∧
    ahead (arrive sRing (longFlit 0 0)) (longFlit 0 0) tokenLane = 0 ∧ joinToken (tokenSoFar (arrive sRing (longFlit 0 0)) (longFlit 0 0)) = none ∧
    (let s := putRx { (arrive sRing (longFlit 1 1)) with router := { (arrive sRing (longFlit 1 1)).router with
        frags := [⟨0, ⟨0, 0, false, 7⟩, [longFlit 0 0]⟩] } } ⟨0, 16, 1, [], []⟩
     GivenFlit s (longFlit 1 1) ∧ partHere s (longFlit 1 1) = true ∧ ahead s (longFlit 1 1) tokenLane = 0 ∧ fromLost s (longFlit 1 1) = false ∧
      tokenSoFar s (longFlit 1 1) = [longFlit 0 0, longFlit 1 1] ∧
      joinToken (tokenSoFar s (longFlit 1 1)) = some ⟨9, 0, 1, 0, 5, List.replicate 224 1⟩ ∧ ringCfg (ctxAt s 0 false) 7 = some ringIn) :=
  ⟨rfl, rfl, ⟨⟨0, longFlit 0 0, 0⟩, rfl, rfl⟩, rfl, by decide +kernel, ⟨⟨0, longFlit 1 1, 0⟩, rfl, rfl⟩, rfl, rfl, rfl, by decide +kernel,
    by decide +kernel, rfl⟩
theorem witness_TokensAndCredits_lost :
    let s := { onCtx (fun x => { x with region := 5 }) (sTok 0) with regions := [{ (default : Region) with num := 5, lost := [0] }] }
    GivenFlit s (tokFlit 0) ∧ partHere s (tokFlit 0) = true ∧ ahead s (tokFlit 0) tokenLane = 0 ∧ partOf (getCore s 0) = (tokFlit 0).partition ∧
      fromLost s (tokFlit 0) = true ∧ fromLost (sTok 0) (tokFlit 0) = false := ⟨⟨⟨0, tokFlit 0, 0⟩, rfl, rfl⟩, rfl, rfl, rfl, rfl, rfl⟩
/-- A token flit whose one token is of another type, or is a ticket's. -/
def typFlit (type ticket : Nat) : Flit :=
  { ((tokenFlits State.reset 0 ⟨0, 0, false, 7⟩ ⟨9, ticket, type, 0, 5, List.replicate 64 1⟩).headD default) with cls := 2 }
theorem witness_TokensAndCredits_cow :
    let s := onCtx (fun x => { x with status := .empty, cfg := { x.cfg with ins := [] } }) (arrive sRing (typFlit 5 0))
    let u := onCtx (fun x => { x with status := .drained, cfg := { x.cfg with ins := [(7, { ringIn with cow := true })] } }) (arrive sRing (typFlit 5 0))
    (ctxAt s 0 false).status = .empty ∧ ringCfg (ctxAt s 0 false) 7 = none ∧ (typFlit 5 0).type = 1 ∧ headerType (typFlit 5 0) = 5 ∧
      (∃ t, joinToken [typFlit 5 0] = some t) ∧ GivenFlit s (typFlit 5 0) ∧ fromLost s (typFlit 5 0) = false ∧
      GivenFlit u (typFlit 5 0) ∧ ringCfg (ctxAt u 0 false) 7 = some { ringIn with cow := true } ∧ (ctxAt u 0 false).status = .drained ∧
      tokenSoFar u (typFlit 5 0) = [typFlit 5 0] ∧ ∃ t, joinToken [typFlit 5 0] = some t ∧ t.type = 5 :=
  ⟨rfl, rfl, rfl, rfl, ⟨_, rfl⟩, ⟨⟨0, typFlit 5 0, 0⟩, rfl, rfl⟩, rfl, ⟨⟨0, typFlit 5 0, 0⟩, rfl, rfl⟩, rfl, rfl, rfl, _, rfl, rfl⟩
theorem witness_TokensAndCredits_types : (∃ t, joinToken [typFlit 7 0] = some t ∧ 7 ≤ t.type) ∧ (∃ t, joinToken [typFlit 0 0] = some t ∧ t.type = 0) ∧
    (∃ t, joinToken [typFlit 2 0] = some t ∧ isControl t.type = true) ∧ tokenSoFar (arrive sRing (typFlit 2 0)) (typFlit 2 0) = [typFlit 2 0] ∧
    GivenFlit (arrive sRing (typFlit 2 0)) (typFlit 2 0) :=
  ⟨⟨_, rfl, by decide⟩, ⟨_, rfl, rfl⟩, ⟨_, rfl, rfl⟩, rfl, ⟨0, typFlit 2 0, 0⟩, rfl, rfl⟩
/-- A REORDER ring with head 3 and an occupied entry 3: ticket 20 has its entry free, ticket 19 has not, ticket 2 is behind. -/
theorem witness_TokensAndCredits_reorder :
    let s := onCtx (fun x => { x with cfg := { x.cfg with ins := [(7, { ringIn with reorder := true })] }, ins := x.ins.setIfInBounds 7 { x.ins.getD 7 .reset with head := 3, toks := [⟨3, 3, 0, 1, 0, 64, 0⟩] } }) (arrive sRing (typFlit 1 20))
    GivenFlit s (typFlit 1 20) ∧ ringCfg (ctxAt s 0 false) 7 = some { ringIn with reorder := true } ∧
      (∃ t, joinToken (tokenSoFar s (typFlit 1 20)) = some t ∧ t.type = 1 ∧ t.ticket = 20 ∧ t.ticket % 2 ^ 4 = 4) ∧
      (getIn (ctxAt s 0 false) 7).head = 3 ∧ ticketDist 20 3 < 2 ^ 15 ∧ (∀ v, v ∈ (getIn (ctxAt s 0 false) 7).toks → v.slot ≠ 4) ∧
      (∃ v, v ∈ (getIn (ctxAt s 0 false) 7).toks ∧ v.slot = 19 % 2 ^ 4) ∧ 2 ^ 15 ≤ ticketDist 2 3 :=
  ⟨⟨⟨0, typFlit 1 20, 0⟩, rfl, rfl⟩, rfl, ⟨_, rfl, rfl, rfl, rfl⟩, rfl, by decide, by decide +kernel, ⟨_, List.Mem.head _, rfl⟩, by decide⟩

/-- Port 7 of context A owes two credits and a notice to a producer at port 0, here and on chip 9. -/
def sOwe (chip : Nat) : State := onCtx (fun x => { x with
  cfg := { x.cfg with ins := [(7, { ringIn with producers := [⟨chip, 15, true, 7⟩] })] },
  ins := x.ins.setIfInBounds 7 { x.ins.getD 7 .reset with owed := 2, notice := true } }) sRing

theorem witness_TokensAndCredits_credit : (15 < 16 ∧ 7 < 8) ∧ (∀ e, e ∈ sRing.engines → ∀ c, c ∈ e.ports → c.port ≠ ⟨0, 15, true, 7⟩) ∧
    owingPort (sOwe 0) (fun i => i.owed != 0) = some (0, false, 7, { ringIn with producers := [⟨0, 15, true, 7⟩] }) ∧
    owingPort (sOwe 0) (fun i => i.notice) = some (0, false, 7, { ringIn with producers := [⟨0, 15, true, 7⟩] }) ∧
    owingPort (sOwe 9) (fun i => i.owed != 0) = some (0, false, 7, { ringIn with producers := [⟨9, 15, true, 7⟩] }) ∧
    0 = (sOwe 0).chip ∧ 9 ≠ (sOwe 9).chip ∧ 9 ≠ hostChip :=
  ⟨by decide, fun e h => by simp [show sRing.engines = [] from rfl] at h, rfl, rfl, rfl, rfl, by decide +kernel, by decide +kernel⟩

/-- A stage with one input port that holds a control token of a type and tag, and no output. -/
def sCtl (st : CtxStatus) (type : Nat) (tag : Word) : State := onCore (fun c => { c with running := none }) (onCtx (fun x => { x with
  status := st, cfg := { x.cfg with ins := [(7, ringIn)], outs := [] }, ins := x.ins.setIfInBounds 7 { x.ins.getD 7 .reset with toks := [⟨0, 0, 0, type, tag, 0, 0⟩] } }) (stgX []))

theorem witness_ControlTokens_cfgdone : CtlAt (sCtl .configured 4 0) 0 false 4 0 ∧ (ctxAt (sCtl .configured 4 0) 0 false).status = .configured ∧
    canForward (ctxAt (sCtl .configured 4 0) 0 false) false = true ∧ cowsBound (ctxAt (sCtl .configured 4 0) 0 false) = true :=
  ⟨⟨by decide +kernel, rfl⟩, rfl, rfl, rfl⟩
theorem witness_ControlTokens_drain : CtlAt (sCtl .armed 3 0) 0 false 3 0 ∧ quietStage (sCtl .armed 3 0) [(0, false)] = true ∧
    settled (sCtl .armed 3 0) 0 false = true ∧ canForward (ctxAt (sCtl .armed 3 0) 0 false) false = true :=
  ⟨⟨by decide +kernel, rfl⟩, rfl, rfl, rfl⟩
theorem witness_ControlTokens_marker : CtlAt (sCtl .armed 2 7) 0 false 2 7 ∧ (ctxAt (sCtl .armed 2 7) 0 false).ctlBusy = none ∧
    quietStage (sCtl .armed 2 7) [(0, false)] = true ∧ rateOk (ratePorts (ctxAt (sCtl .armed 2 7) 0 false)) = true ∧
    settled (sCtl .armed 2 7) 0 false = true ∧
    (let s := onCtx (fun x => { x with ctlBusy := some 2 }) (sCtl .armed 2 7)
     CtlAt s 0 false 2 7 ∧ (ctxAt s 0 false).ctlBusy = some 2 ∧ canForward (ctxAt s 0 false) false = true ∧ mirroring s 0 false = false) :=
  ⟨⟨by decide +kernel, rfl⟩, rfl, rfl, rfl, rfl, ⟨by decide +kernel, rfl⟩, rfl, rfl, rfl⟩
/-- An output to another package and an egress port, each with a credit, and a snapshot area. -/
theorem witness_ControlTokens_forward :
    let g : OutCfg := { outFifo with peer := ⟨9, 0, false, 0⟩ }
    let s := onCtx (fun x => { x with cfg := { x.cfg with outs := [(0, g), (1, { g with egress := true })], snap := some ⟨.spad, 0x4000, 0x1000⟩ }, outs := (x.outs.setIfInBounds 0 { x.outs.getD 0 .reset with credits := 1 }).setIfInBounds 1 { x.outs.getD 1 .reset with credits := 1 } })
      (sCtl .armed 3 0)
    CtlAt s 0 false 3 0 ∧ canForward (ctxAt s 0 false) false = true ∧ quietStage s [(0, false)] = true ∧ settled s 0 false = true ∧
      ((ctxAt s 0 false).cfg.outs.map (·.1)).Nodup ∧ (∀ e, e ∈ (ctxAt s 0 false).cfg.outs → e.1 < 8) ∧
      ctlPorts (ctxAt s 0 false) = [(7, ringIn)] ∧ ((ctxAt s 0 false).cfg.ins.map (·.1)).Nodup ∧ isSink s [(0, false)] = false ∧
      isSink (sCtl .armed 3 0) [(0, false)] = true :=
  ⟨⟨by decide +kernel, rfl⟩, rfl, rfl, rfl, by decide +kernel, by decide +kernel, rfl, by decide +kernel, rfl, rfl⟩
theorem witness_ControlTokens_snapshot :
    let s := onCtx (fun x => { x with ctlBusy := some 1 }) (sCtl .armed 2 7)
    CtlAt s 0 false 2 7 ∧ (ctxAt s 0 false).ctlBusy = some 1 ∧ settled s 0 false = true := ⟨⟨by decide +kernel, rfl⟩, rfl, rfl⟩
theorem witness_ControlTokens_rate :
    let s := { onCtx (fun x => { x with region := 5, cfg := { x.cfg with weights := [((false, 7), 1), ((false, 6), 2)] }, ins := x.ins.setIfInBounds 6 { x.ins.getD 6 .reset with rate := 1 } }) (sCtl .armed 2 7) with
      regions := [{ (default : Region) with num := 5 }] }
    CtlAt s 0 false 2 7 ∧ quietStage s [(0, false)] = true ∧ (ctxAt s 0 false).ctlBusy = none ∧
      rateOk (ratePorts (ctxAt s 0 false)) = false ∧
      ∃ r, findRegion s (partOf (getCore s 0)) (ctxAt s 0 false).region = some r ∧ r.cfg.homeChip = s.chip :=
  ⟨⟨by decide +kernel, rfl⟩, rfl, rfl, rfl, _, rfl, rfl⟩
/-- A source of a region that is asked for wave 1. -/
def sSrc (busy : Option Nat) : State := { onCtx (fun x => { x with region := 5, ctlBusy := busy, cfg := { x.cfg with ins := [] } }) (sCtl .armed 2 7) with
  regions := [{ (default : Region) with num := 5, asked := 1 }] }
theorem witness_ControlTokens_noInputs :
    let s := { sSrc none with regions := [{ (default : Region) with num := 5, drains := true }] }
    (ctxAt s 0 false).cfg.gang.length ≤ 1 ∧ (ctxAt s 0 false).cfg.ins = [] ∧
    (∃ r, findRegion s (partOf (getCore s 0)) (ctxAt s 0 false).region = some r ∧ r.drains = true) ∧
    (ctxAt s 0 false).status ≠ .drained ∧ quietStage s [(0, false)] = true ∧ settled s 0 false = true ∧
    canForward (ctxAt s 0 false) false = true :=
  ⟨by decide +kernel, rfl, ⟨_, rfl, rfl⟩, by decide +kernel, rfl, rfl, rfl⟩
theorem witness_ControlTokens_source : (ctxAt (sSrc none) 0 false).cfg.gang.length ≤ 1 ∧ (ctxAt (sSrc none) 0 false).cfg.ins = [] ∧ (ctxAt (sSrc none) 0 false).cfg.markMode = false ∧
    quietStage (sSrc none) [(0, false)] = true ∧ (ctxAt (sSrc none) 0 false).status = .armed ∧ askedWave (sSrc none) 0 false = some 1 ∧
    settled (sSrc none) 0 false = true ∧ canForward (ctxAt (sSrc none) 0 false) false = true ∧ (ctxAt (sSrc none) 0 false).ctlBusy = none ∧
    (ctxAt (sSrc (some 2)) 0 false).ctlBusy = some 2 ∧ mirroring (sSrc (some 2)) 0 false = false ∧ askedWave (sSrc (some 2)) 0 false = some 1 :=
  ⟨by decide +kernel, rfl, rfl, rfl, rfl, rfl, rfl, rfl, rfl, rfl, rfl, rfl⟩

/-- One job of context A with its card's bytes. -/
def sJob (x : Job) : State := onCore (fun c => { c with jobs := [x] }) (stgX [])
def jCpy : Job := { (default : Job) with id := 3, major := 1, bytes := List.replicate 64 0 ++ natLe 16 0x1000 ++ natLe 16 0x2000 ++ natLe 4 64 ++ natLe 2 1 ++ List.replicate 26 0 }
def jAtom : Job := { (default : Job) with id := 3, major := 7, bytes := List.replicate 64 0 ++ natLe 16 (2 ^ 40 + 0x40) ++ [0, 0, 2] ++ List.replicate 45 0 }

theorem witness_JobsRun_held : ∃ s, findJob s 0 3 = some { jCpy with state := .finished } ∧ mayStart s 0 { jCpy with state := .finished } = false :=
  ⟨sJob { jCpy with state := .finished }, rfl, rfl⟩
theorem witness_JobsRun_malformed : findJob (sJob { jCpy with err := 1 }) 0 3 = some { jCpy with err := 1 } ∧
    mayStart (sJob { jCpy with err := 1 }) 0 { jCpy with err := 1 } = true := ⟨rfl, rfl⟩
theorem witness_JobsRun_copy : findJob (sJob jCpy) 0 3 = some jCpy ∧ mayStart (sJob jCpy) 0 jCpy = true ∧ jCpy.err = 0 ∧ jCpy.pend = [] ∧
    jCpy.walk = none ∧ jCpy.progress = 0 ∧ jCpy.got = [] ∧ (cpyCard jCpy.bytes).sk = 0 ∧ (cpyCard jCpy.bytes).dk = 0 ∧
    (cpyCard jCpy.bytes).rows = 1 ∧ 0 < (cpyCard jCpy.bytes).len ∧ badWord (sJob jCpy) (spaceKey 0 .spad (cpyCard jCpy.bytes).src) (cpyCard jCpy.bytes).len = none :=
  ⟨rfl, rfl, rfl, rfl, rfl, rfl, rfl, rfl, rfl, rfl, by decide +kernel, rfl⟩
theorem witness_JobsRun_atomic : mayStart (sJob jAtom) 0 jAtom = true ∧ cField jAtom.bytes 82 1 = 2 ∧
    opAddr 2 (cField jAtom.bytes 64 16) = 2 ^ 40 + 0x40 ∧ faChip (2 ^ 40 + 0x40) = (sJob jAtom).chip ∧
    sourceErr jAtom (2 ^ 40 + 0x40) (atomicSize 0) true = 0 ∧
    targetErr (sJob jAtom) jAtom.part 1 0x40 (atomicSize 0) true = 0 ∧ fabBad (sJob jAtom) 1 0x40 (atomicSize 0) = false :=
  ⟨rfl, rfl, rfl, rfl, rfl, rfl, rfl⟩
/-- A walk whose next entry, at offset 0x40 of the scratchpads, is not valid. -/
def jWalk : Job := { jCpy with state := .running, walk := some ⟨0, 1, 0, true, 0, 2 ^ 40 + 0x40, none, false⟩ }
theorem witness_JobsRun_fault : mayWalk (sJob jWalk) jWalk.asid ⟨0, 1, 0, true, 0, 2 ^ 40 + 0x40, none, false⟩ = true ∧ entryOf ⟨0, 1, 0, true, 0, 2 ^ 40 + 0x40, none, false⟩ = 2 ^ 40 + 0x40 ∧ faRegion (2 ^ 40 + 0x40) = 1 ∧
    faChip (2 ^ 40 + 0x40) = (sJob jWalk).chip ∧ (sJob jWalk).chip ≠ hostChip ∧ targetErr (sJob jWalk) jWalk.part 1 0x40 8 false = 0 ∧
    fabBad (sJob jWalk) 1 0x40 8 = false ∧ eValid (leNat (fabRead (sJob jWalk) 1 0x40 8)) = false :=
  ⟨rfl, rfl, rfl, rfl, by decide +kernel, rfl, rfl, rfl⟩
/-- The same walk at the last level, whose entry is a leaf that permits the read and has been used. -/
def wLeaf : Walk := ⟨0, 1, 0, true, 4, 2 ^ 40 + 0x40, none, false⟩
theorem witness_JobsRun_leaf :
    let s := memWrite (sJob { jWalk with walk := some wLeaf }) (spaceKey 0 .spad 0x40) [0x0B]
    mayWalk s jWalk.asid wLeaf = true ∧ inExtent (faRegion (entryOf wLeaf)) (faOff (entryOf wLeaf)) 8 = true ∧ faChip (entryOf wLeaf) = s.chip ∧
      leNat (fabRead s (faRegion (entryOf wLeaf)) (faOff (entryOf wLeaf)) 8) = 0x0B ∧ eValid 0x0B = true ∧ eMalformed 4 0x0B = false ∧
      eLeaf 4 0x0B = true ∧ tierOk s 0x0B = true ∧ ePermits 1 0x0B = true ∧ eUsed 1 0x0B = 0x0B := by
  refine ⟨?_, ?_, ?_, ?_, ?_, ?_, ?_, ?_, ?_, ?_⟩ <;> decide +kernel
theorem witness_JobsRun_done : jobRoom (getCore (sJob jCpy) 0) jCpy = true ∧
    (let x := { jCpy with state := .finished, bytes := jCpy.bytes.set 2 2 }
     let s := onCtx (fun c => { c with cfg := { c.cfg with evq := some 0x40 }, evTail := 256 }) (sJob x)
     x.state = .finished ∧ jobRoom (getCore s 0) x = false) ∧ ({ jCpy with state := .finished } : Job).state = .finished ∧ jCpy.major ≠ 7 ∧ cardPublish jCpy.bytes = false ∧
    cardEvent jCpy.bytes = false ∧ cardBarrier jCpy.bytes = false := ⟨rfl, by decide +kernel, rfl, by decide +kernel, rfl, rfl, rfl⟩

/-- A request of chip 9 for 8 bytes at 0x40 of the scratchpads. -/
def req (type seq : Nat) (payload : List Byte) : Flit :=
  { (default : Flit) with schip := 9, cls := 1, type := type, length := payload.length, seq := seq, route := reqRoute 0 1 0x40, payload := payload }
def rWrite : Flit := req 3 0 [1, 2, 3, 4, 5, 6, 7, 8]
def rRead : Flit := req 4 0 [8, 0, 0, 0]
def rAtom (seq : Nat) : Flit := req 6 seq (List.replicate 32 0)

theorem witness_RequestsAndAnswers_request : ∀ f, f = rWrite ∨ f = rRead ∨ f = rAtom 0 →
    GivenFlit (arrive (stgX []) f) f ∧ partHere (arrive (stgX []) f) f = true ∧ f.dchip ≠ hostChip ∧ isBaraFlit f = false ∧
    ahead (arrive (stgX []) f) f (flitLane f) = 0 ∧ targetErr (arrive (stgX []) f) f.partition (reqRegion f) (reqOff f) (reqLen f) (f.type == 6) = 0 ∧
    fabBad (arrive (stgX []) f) (reqRegion f) (reqOff f) (reqLen f) = false := by
  rintro f (rfl | rfl | rfl) <;> refine ⟨⟨_, rfl, rfl⟩, rfl, ?_, rfl, rfl, rfl, rfl⟩ <;> decide +kernel
theorem witness_RequestsAndAnswers_host :
    let f := { rWrite with dchip := hostChip, route := reqRoute 0 2 0x40 }
    GivenFlit (arrive (stgX []) f) f ∧ partHere (arrive (stgX []) f) f = true ∧ hostTakes f = true ∧ ahead (arrive (stgX []) f) f (flitLane f) = 0 ∧
    partHere (arrive (stgX []) { rWrite with partition := 3 }) { rWrite with partition := 3 } = false :=
  ⟨⟨_, rfl, rfl⟩, rfl, rfl, rfl, by decide +kernel⟩
theorem witness_RequestsAndAnswers_barrier :
    let f := { rWrite with route := reqRoute 0 1 (2 ^ 39 + 0x40) }
    isBaraFlit f = true ∧ reqRegion f = 1 ∧ 2 ^ 39 ≤ reqOff f ∧ reqOff f - 2 ^ 39 = 0x40 ∧
    targetErr (arrive (stgX []) f) f.partition 1 0x40 8 false = 0 := ⟨rfl, rfl, by decide +kernel, rfl, rfl⟩
theorem witness_RequestsAndAnswers_refused : targetErr (stgX []) 0 0 (2 ^ 31 - 4) 8 false ≠ 0 := by decide +kernel
theorem witness_RequestsAndAnswers_again :
    let f := rAtom (2 ^ 32 - 1)
    let s := putRx (arrive (stgX []) f) ⟨9, 0, 0, [(2 ^ 32 - 1, 7, 0, [77])], []⟩
    ahead s f (flitLane f) = 2 ^ 32 - 1 ∧ kept s f (flitLane f) = some (7, 0, [77]) := ⟨rfl, rfl⟩

/-- An answer of chip 9 of a type, and an open flit that it closes, sent the given number of times. -/
def ans (type : Nat) : Flit := { (default : Flit) with schip := 9, cls := 1, type := type, payload := List.replicate 8 0 }
def opened (w : Waiter) (tries : Nat) (s : State) : State := putTx s ⟨9, 0, 1, [⟨0, rRead, w, 0, 0, tries, 0⟩], []⟩

theorem witness_RequestsAndAnswers_answer : ∀ t, t = 5 ∨ t = 7 ∨ t = 8 ∨ t = 9 → (ans t).type = t ∧ GivenFlit (arrive (stgX []) (ans t)) (ans t) ∧
    (findTx (opened .none 0 (arrive (stgX []) (ans t))) 9 (ansLane (ans t))).queue = [] ∧
    (findTx (opened .none 0 (arrive (stgX []) (ans t))) 9 (ansLane (ans t))).opens.find? (fun o => o.seq == (ans t).seq)
      = some ⟨0, rRead, .none, 0, 0, 0, 0⟩ ∧
    (findTx (arrive (stgX []) (ans t)) 9 (ansLane (ans t))).opens.find? (fun o => o.seq == (ans t).seq) = none := by
  rintro t (rfl | rfl | rfl | rfl) <;> exact ⟨rfl, ⟨_, rfl, rfl⟩, rfl, rfl, rfl⟩
theorem witness_RequestsAndAnswers_resend :
    (findTx (opened .none 7 (stgX [])) 9 0).opens.find? (fun o => o.seq == 0) = some ⟨0, rRead, .none, 0, 0, 7, 0⟩ ∧
    (findTx (opened .none 8 (stgX [])) 9 0).opens.find? (fun o => o.seq == 0) = some ⟨0, rRead, .none, 0, 0, 8, 0⟩ ∧ endless 0 ⟨0, rRead, .none, 0, 0, 8, 0⟩ = false :=
  ⟨rfl, rfl, rfl⟩
/-- A request of this package to chip 9, sent once, without a way and with one. -/
def sAsked (s : State) : State := putTx s ⟨9, 0, 1, [⟨0, { rRead with schip := 0, dchip := 9 }, .none, 0, 0, 1, 0⟩], []⟩
theorem witness_RequestsAndAnswers_noWay : ∃ o, (findTx (sAsked (stgX [])) 9 0).opens.find? (fun o => o.seq == 0) = some o ∧
    o.flit.schip = (sAsked (stgX [])).chip ∧ o.tries < 8 ∧ o.flit.cls = 1 ∧ o.flit.dchip = 9 ∧ routable (sAsked (stgX [])) o.flit = false ∧
    routable (setLink { (sAsked (stgX [])) with router := { (sAsked (stgX [])).router with escape := [(9, some 0x83)] } } 3
      { (default : Link) with up := true }) o.flit = true ∧ (findTx (sAsked (stgX [])) 9 0).queue = [] :=
  ⟨_, rfl, by decide +kernel, by decide, rfl, rfl, by decide +kernel, by decide +kernel, rfl⟩
theorem witness_RequestsAndAnswers_bad :
    let s := { (arrive (stgX []) rRead) with flips := [(8 * spaceKey 0 .spad 0x40, false), (8 * spaceKey 0 .spad 0x40 + 1, false)] }
    GivenFlit s rRead ∧ ahead s rRead (flitLane rRead) = 0 ∧ targetErr s 0 (reqRegion rRead) (reqOff rRead) (reqLen rRead) false = 0 ∧
      fabBad s (reqRegion rRead) (reqOff rRead) (reqLen rRead) = true := ⟨⟨_, rfl, rfl⟩, rfl, rfl, by decide +kernel⟩
theorem witness_RequestsAndAnswers_hostRefuses :
    let f := { rWrite with dchip := hostChip }
    GivenFlit (arrive (stgX []) f) f ∧ hostTakes f = false ∧ ahead (arrive (stgX []) f) f (flitLane f) = 0 := ⟨⟨_, rfl, rfl⟩, rfl, rfl⟩
/-- How a prefix reply is read is opaque (log entry 17): the witness stands on a payload that it reads. -/
theorem witness_RequestsAndAnswers_prefix (r : PrefixRep) (h : repOf (ans 0x0B).payload = some r) : (ans 0x0B).type = 0x0B ∧
    (findTx (opened (.job 0 3 0) 0 (arrive (stgX []) (ans 0x0B))) 9 (ansLane (ans 0x0B))).opens.find? (fun o => o.seq == 0)
      = some ⟨0, rRead, .job 0 3 0, 0, 0, 0, 0⟩ ∧ ∃ r, repOf (ans 0x0B).payload = some r := ⟨rfl, rfl, r, h⟩
/-! ### Witnesses: links, host port and power -/

/-- Link 3 is up to chip 9, which the route table names; both directions hold a key for partition 0. -/
def lnk : Link := { (default : Link) with up := true, farChip := 9, cred := (1, 1, 1), tx := [(32, ⟨.active, 1, 0, 0⟩)], rx := [(32, ⟨.active, 1, 0, 0⟩)] }
def outFlit : Flit := { (default : Flit) with dchip := 9, cls := 1, type := 3, length := 1, payload := [5] }
def sLink (k : Link) (ws : List Waiting) : State := setLink { State.reset with router := { State.reset.router with
  waiting := ws, route := [(9, some 0x83)] } } 3 k

theorem witness_LinkFrames_null : (getLink (sLink lnk []) 3).up = true ∧ (3 < 128) ∧ tabWf .reset (sLink lnk []).router.links = true ∧
    (getLink (sLink lnk []) 3).again = [] ∧ newFlit (sLink lnk []) 3 = none := ⟨rfl, by decide, rfl, rfl, rfl⟩
theorem witness_LinkFrames_flit : newFlit (sLink lnk [⟨0, outFlit, 1⟩]) 3 = some ⟨0, outFlit, 1⟩ ∧
    txSlot (sLink lnk [⟨0, outFlit, 1⟩]) 3 0 false = some (16, 0) ∧ outFlit.type ≠ 0x10 ∧ tabWf .reset lnk.tx = true :=
  ⟨by decide +kernel, rfl, by decide, rfl⟩
def lnkAgain (tmo fails : Nat) : Link := { lnk with again := [7], unacked := [(outFlit, { (default : Frame) with lseq := 7 })], tmo := tmo, fails := fails }
theorem witness_LinkFrames_again : (getLink (sLink (lnkAgain 0 0) []) 3).again = 7 :: [] ∧
    ∃ u, (getLink (sLink (lnkAgain 0 0) []) 3).unacked.find? (fun u => u.2.lseq == 7) = some u := ⟨rfl, _, rfl⟩

/-- A frame of chip 9 whose tag is right under the key of slot 0. -/
def inFlit : Flit := { outFlit with dchip := 0, schip := 9 }
def inFrame (tag : BitVec 128) (crc : BitVec 32) : Frame := ⟨flitHeader inFlit, List.replicate 224 0, tag, 0, 0, false, true, 0, 0, crc⟩

theorem gcmOpen_right (k : BitVec 256) (iv : List Nat) (aad ct : List Sys2Proof.Byte) : ∃ t pt, gcmOpen k iv aad ct t = some pt := by
  refine ⟨tagBits (gcmTag (roundKeys (keyBytes k)) iv (byteNats aad) (byteNats ct)), ?_⟩
  simp [gcmOpen]
theorem frameCrc_any (h : BitVec 128) (b : List Sys2Proof.Byte) (t : BitVec 128) (c d : BitVec 32) :
    frameCrc ⟨h, b, t, 0, 0, false, true, 0, 0, c⟩ = frameCrc ⟨h, b, t, 0, 0, false, true, 0, 0, d⟩ := rfl
theorem frameCrc_crc (t : BitVec 128) (c d : BitVec 32) : frameCrc (inFrame t c) = frameCrc (inFrame t d) := frameCrc_any _ _ _ _ _
theorem inFrame_crc (t : BitVec 128) (c : BitVec 32) : (inFrame t c).crc = c := rfl
theorem xor_one_ne (x : BitVec 32) : x ≠ x ^^^ 1 := by
  intro h
  have := congrArg (x ^^^ ·) h
  simp [← BitVec.xor_assoc] at this

theorem openFrame_of {s : State} {k : Link} {f : Frame} {row : Nat} {q : KeySlot} {pt : List Sys2Proof.Byte}
    (hr : rxSlot s k (headerFlit f.header []) = some (row, q)) (ht : typeOk (headerFlit f.header []) = true)
    (hl : ¬224 < (headerFlit f.header []).length) (hy : (headerFlit f.header []).type ≠ 0x10)
    (hg : gcmOpen q.key (hopIv k.farLink (decide (k.farChip < s.chip)) (headerFlit f.header []).kslot q.counter)
      (headerBytesOf f.header) f.body f.tag = some pt) : ∃ g, openFrame s k f = some (g, row, q) ∧ g.type ≠ 0x10 := by
  refine ⟨{ headerFlit f.header [] with payload := cutPayload (headerFlit f.header []) pt }, ?_, hy⟩
  simp [openFrame, hr, ht, hl, hy, hg]

theorem witness_LinkFrames_good : ∃ t c, frameCrc (inFrame t c) = (inFrame t c).crc ∧
    (inFrame t c).fv = true ∧ (inFrame t c).lseq = (getLink (sLink lnk []) 3).rxNext ∧
    (∃ g row q, openFrame (sLink lnk []) lnk (inFrame t c) = some (g, row, q) ∧ g.type ≠ 0x10) ∧ flitHere (sLink lnk []) inFlit = true := by
  obtain ⟨t, pt, h⟩ := gcmOpen_right 1 (hopIv 0 false 0 0) (headerBytesOf (flitHeader inFlit)) (List.replicate 224 0)
  obtain ⟨g, hg⟩ := openFrame_of (s := sLink lnk []) (k := lnk) (f := inFrame t (frameCrc (inFrame t 0))) (row := 16) (q := ⟨.active, 1, 0, 0⟩)
    (pt := pt)
    (show rxSlot (sLink lnk []) lnk (headerFlit (flitHeader inFlit) []) = _ by decide +kernel)
    (show typeOk (headerFlit (flitHeader inFlit) []) = true by decide +kernel) (show ¬224 < (headerFlit (flitHeader inFlit) []).length by decide +kernel)
    (show (headerFlit (flitHeader inFlit) []).type ≠ 0x10 by decide +kernel) (by
      have e : hopIv lnk.farLink (decide (lnk.farChip < (sLink lnk []).chip)) (headerFlit (flitHeader inFlit) []).kslot 0 =
        hopIv 0 false 0 0 := by decide +kernel
      show gcmOpen 1 (hopIv lnk.farLink (decide (lnk.farChip < (sLink lnk []).chip)) (headerFlit (flitHeader inFlit) []).kslot 0)
        (headerBytesOf (flitHeader inFlit)) (List.replicate 224 0) t = some pt
      rw [e]; exact h)
  exact ⟨t, frameCrc (inFrame t 0), by rw [inFrame_crc, frameCrc_crc _ _ 0], rfl, rfl, ⟨g, 16, _, hg⟩, rfl⟩
theorem witness_LinkFrames_bad : (∃ c, frameCrc (inFrame 0 c) ≠ (inFrame 0 c).crc) ∧
    (getLink (sLink (lnkAgain 7 6) []) 3).fails < 7 ∧ 7 ≤ (getLink (sLink (lnkAgain 7 7) []) 3).fails ∧
    (∃ c, frameCrc (inFrame 0 c) = (inFrame 0 c).crc ∧ (inFrame 0 c).lseq ≠ 1) := by
  refine ⟨⟨frameCrc (inFrame 0 0) ^^^ 1, ?_⟩, by decide, by decide, frameCrc (inFrame 0 0), ?_, by decide⟩
  · rw [inFrame_crc, frameCrc_crc _ _ 0]; exact xor_one_ne _
  · rw [inFrame_crc, frameCrc_crc _ _ 0]
theorem witness_LinkFrames_buffer :
    let f := { inFrame 0 0 with header := flitHeader { inFlit with cls := 0 } }
    circuitFull (sLink lnk []) 3 = false ∧ circuitFull (sLink lnk (List.replicate 8 ⟨3, { outFlit with cls := 0 }, 0⟩)) 3 = true ∧
    (headerFlit f.header []).cls = 0 ∧ frameCrc { f with crc := frameCrc f } = frameCrc f := ⟨rfl, rfl, by decide +kernel, rfl⟩
theorem witness_LinkFrames_timeout : (getLink (sLink (lnkAgain 6 0) []) 3).unacked ≠ [] ∧ (getLink (sLink (lnkAgain 6 0) []) 3).tmo < 7 ∧
    7 ≤ (getLink (sLink (lnkAgain 7 0) []) 3).tmo := ⟨by decide +kernel, by decide, by decide⟩
theorem witness_LinkFrames_escape : (sLink lnk [⟨0, outFlit, 1⟩]).router.waiting[0]? = some ⟨0, outFlit, 1⟩ ∧ outFlit.cls = 1 ∧
    tabWf .reset (getLink (sLink lnk []) 3).rx = true ∧
    ({ State.reset with router := { State.reset.router with arrived := [⟨3, outFlit, 1⟩] } } : State).router.arrived[0]? = some ⟨3, outFlit, 1⟩ :=
  ⟨rfl, rfl, rfl, rfl⟩
theorem witness_LinkFrames_training :
    let s := { State.reset with power := { State.reset.power with step := 4 } }
    let p : TrainedLink := ⟨127, 9, 0, 9, 1, []⟩
    4 ≤ s.power.step ∧ p.farChip ≠ s.chip ∧ (getLink s 127).up = false ∧ s.regions = [] := ⟨by decide, by decide +kernel, rfl, rfl⟩

/-- Channel 5 of partition 3 has a key; channel 0 has none. Frame headers: version, kind, channel, last, clear, length, partition. -/
def chan (unacked : List (PlinthFrame × Option PortAddr)) (tmo : Nat) : Channel :=
  { (default : Channel) with num := 0, owed := true, unacked := unacked, tmo := tmo, asm := [] }
def sHost (c : Channel) : State := { State.reset with channels := [c] }
def pFrame (kind seq part : Nat) (last : Bool) (body : List Byte) : PlinthFrame :=
  ⟨BitVec.ofNat 256 (1 + kind * 2 ^ 8 + b01 last * 2 ^ 29 + 2 ^ 30 + seq * 2 ^ 32 + body.length * 2 ^ 96 + part * 2 ^ 128), body, 0, plinthPort⟩

theorem witness_PlinthFrames_frame : findChannel (sHost (chan [] 0)) (pChannel (pFrame 0x10 0 0 true [])) = some (chan [] 0) ∧
    plinthForm (pFrame 0x10 0 0 true []) = true ∧ pPart (pFrame 0x10 0 3 true []) ≠ (chan [] 0).part ∧
    pPart (pFrame 0x10 0 0 true []) = (chan [] 0).part ∧ openPlinth (chan [] 0) { pFrame 0x10 0 0 true [] with tag := 1 } = none ∧
    openPlinth (chan [] 0) (pFrame 0x10 0 0 true []) = some [] ∧ pAckonly (pFrame 0x10 0 0 true []) = false ∧ (chan [] 0).unacked = [] ∧
    pSeq (pFrame 0x10 1 0 true []) ≠ (chan [] 0).rxNext ∧ pSeq (pFrame 0x10 0 0 true []) = (chan [] 0).rxNext ∧
    pLast (pFrame 0x10 0 0 false []) = false ∧ pLast (pFrame 0x10 0 0 true []) = true ∧ fromHost (pKind (pFrame 0x10 0 0 true [])) = true ∧
    (pKind (pFrame 0x10 0 0 true []) = 0x10) ∧ (chan [] 0).num = 0 :=
  ⟨rfl, rfl, by decide +kernel, rfl, rfl, rfl, rfl, rfl, by decide +kernel, rfl, rfl, rfl, rfl, rfl, rfl⟩
theorem witness_PlinthFrames_wrap : (chan [] 0).rxNext + 1 < 2 ^ 32 ∧ (State.reset.power.failed = false) ∧
    (({ chan [] 0 with rxNext := 2 ^ 32 - 1 } : Channel).rxNext + 1 = 2 ^ 32) ∧ (chan [] 0).renewedIn = false ∧
    pSeq (pFrame 0x10 (2 ^ 32 - 1) 0 true []) = 2 ^ 32 - 1 := ⟨by decide, rfl, rfl, rfl, by decide +kernel⟩
theorem witness_PlinthFrames_message : readReq 0x02 (natLe 16 7 ++ natLe 4 0) = some (.handle 7 none) ∧
    (({ chan [] 0 with keyed := true } : Channel).keyed = true) ∧ fromHost 0x02 = true := ⟨by decide +kernel, rfl, rfl⟩
theorem witness_PlinthFrames_timeout : findChannel (sHost (chan [(pFrame 1 0 0 true [], none)] 62)) 0 = some (chan [(pFrame 1 0 0 true [], none)] 62) ∧
    (chan [(pFrame 1 0 0 true [], none)] 62).unacked ≠ [] ∧ (62 < 63) ∧ (chan [] 0).owed = true := ⟨rfl, by decide +kernel, by decide, rfl⟩
theorem witness_PlinthFrames_address :
    (6 ≤ ({ State.reset with power := { State.reset.power with step := 6 } } : State).power.step) ∧ State.reset.power.step < 6 ∧
    ({ State.reset with ips := [1] } : State).ips.contains 1 = true := ⟨by decide, by decide, rfl⟩

theorem witness_PowerAndUpsets : State.reset.power.step = 0 ∧ (0xFFF : BitVec 12) = 0xFFF ∧ (0xFFE : BitVec 12) ≠ 0xFFF ∧ (750 < 751) ∧ (850 < 851) ∧
    712 * 100 ≤ 71250 ∧ 807 * 100 ≤ 80750 ∧ 840 ≤ 840 ∧ ¬807 * 100 > 80750 ∧ (getCore State.reset 15).withdrawn = false := ⟨rfl, rfl, by decide, by decide, by decide, by decide, by decide, by decide, by decide, rfl⟩
/-- The readings of the margin monitor are opaque (log entry 2): the witness stands on one that keeps the slack. -/
theorem witness_PowerAndUpsets_margin (h : 80 ≤ Config.marginReading 0 0 1) :
    marginOffset 0 (State.reset.counter + 1) = some 0 := by
  have e : (List.range 256) = 0 :: (List.range 255).map Nat.succ := by rw [← List.range_succ_eq_map]
  show (List.range 256).find? (fun o => decide (80 ≤ Config.marginReading 0 o 1)) = some 0
  rw [e]; simp [h]
theorem witness_PowerAndUpsets_upset : 8 * 2 ^ 23 - 1 < 8 * spaceSize .spad ∧
    (State.reset.flips.any fun f => f.1 == 8 * spaceKey 15 .spad 0 + 5) = false ∧
    (1 < 2 ∧ 8 * 0x180000 - 1 < 8 * 0x180000 ∧ (State.reset.flips.any fun f => f.1 == 8 * shadowKey 15 1 + 8 * 0x180000 - 1) = false) ∧ (31 < 32 ∧ 0 < 31) ∧
    tabWf 0 (getCore State.reset 15).acc = true := ⟨by decide +kernel, rfl, by decide +kernel, by decide, rfl⟩
/-! ### Witnesses: launch and tokens of the host -/

/-- The oldest message of the host asks this; `sAsk` puts it at a state. -/
def ask (ch part : Nat) (r : HostReq) : HostMsg := ⟨ch, part, State.reset.chip, 7, r⟩
def sAsk (m : HostMsg) (s : State) : State := { s with hostIn := [m] }
def withCtl (n : Nat) (m : CtlMsg) (s : State) : State := { s with ctlIn := [(n, m)] }

/-- Image 1, region 2 of partition 3. -/
def hnd : BitVec 128 := 0x0003000200000001
/-- An image part with one context without input rings, and the launch of it that is under way. -/
def stage0 : StageCfg := { (default : StageCfg) with core := 1 }
def part0 : ImagePart := { (default : ImagePart) with image := 1, chip := State.reset.chip, partition := 3, region := 2, contexts := [stage0] }
def launch0 : Launch := ⟨hnd, none, [], some (4, 7), State.reset.chip, [9], some part0, some 0, []⟩
def sLaunch : State := { State.reset with launches := [launch0], tree := { State.reset.tree with parent := some 9 } }

theorem witness_LaunchAndTokens_handle : HostHead (sAsk (ask 4 3 (.handle hnd none)) State.reset) (ask 4 3 (.handle hnd none)) [] ∧
    bitsOf hnd.toNat 56 8 = 0 ∧ handlePart hnd = 3 ∧ findLaunch (sAsk (ask 4 3 (.handle hnd none)) State.reset) hnd = none :=
  ⟨⟨rfl, rfl⟩, by decide +kernel, by decide +kernel, rfl⟩
/-- A base of image 0 with a header of zeros, which no format number makes a part: the prepare is refused. -/
theorem witness_LaunchAndTokens_prepare :
    let s := withCtl 9 (.prepare 0 none) { State.reset with bases := [0], tree := { State.reset.tree with parent := some 9 } }
    CtlHead s 9 (.prepare 0 none) [] ∧ 9 ≠ s.chip ∧ treeNext s = [9] ∧ findLaunch s 0 = none ∧ findBase s (handleImage 0) false = some 0 ∧
    rejectReason s 0 0 none (partAt s 0) = 1 := by
  refine ⟨rfl, by decide +kernel, rfl, rfl, ?_, ?_⟩ <;> decide +kernel
theorem witness_LaunchAndTokens_report : CtlHead (withCtl 9 (.report hnd 9 0) sLaunch) 9 (.report hnd 9 0) [] ∧
    findLaunch (withCtl 9 (.report hnd 9 0) sLaunch) hnd = some launch0 ∧ launch0.entry = some (4, 7) ∧ launch0.verdict = some 0 ∧
    launch0.kids = [9] ∧ launch0.rejects = [] := ⟨rfl, rfl, rfl, rfl, rfl, rfl⟩
theorem witness_LaunchAndTokens_apply : CtlHead (withCtl 9 (.apply hnd) sLaunch) 9 (.apply hnd) [] ∧ launch0.part = some part0 ∧
    mayApply ((targets part0).foldl (fun s e => modCore s e.1 fun c => killSuspended c e.2) (withCtl 9 (.apply hnd) sLaunch)) part0 = true ∧
    (targets part0).Nodup ∧ stage0 ∈ part0.contexts ∧ stage0.ins = [] ∧ stage0.gang.length ≤ 1 :=
  ⟨rfl, rfl, rfl, by decide, by simp [part0], rfl, by decide⟩
theorem witness_LaunchAndTokens_abort : CtlHead (withCtl 9 (.abort hnd) sLaunch) 9 (.abort hnd) [] ∧
    preparing (withCtl 9 (.abort hnd) sLaunch) hnd = false ∧ (1, false) ∈ targets part0 := ⟨rfl, rfl, by decide⟩

/-- Port 2 of core 0, context A, is an ingress port of region 2 of partition 3, which is ready. -/
def inPort : PortAddr := ⟨State.reset.chip, 0, false, 2⟩
def reg0 : Region := { (default : Region) with part := 3, num := 2, phase := .running, cfg := { part0 with sinks := [(0, 5)], chips := [State.reset.chip], homeChip := State.reset.chip } }
def regIn : Region := { reg0 with ready := true, ingress := [⟨inPort, 3, 0, 8, []⟩] }
def sIn (r : Region) : State := { modCtxAt State.reset 0 false fun x => { x with cfg := { x.cfg with ins := [(2, ⟨0, 2, 1, false, 64, false, []⟩)] } } with regions := [r] }
def hdr : BitVec 128 := 0x0001000000000000

theorem witness_LaunchAndTokens_ready : CtlHead (withCtl 9 (.sinkReady 3 2 5) (sIn reg0)) 9 (.sinkReady 3 2 5) [] ∧
    findRegion (withCtl 9 (.sinkReady 3 2 5) (sIn reg0)) 3 2 = some reg0 ∧ launching (withCtl 9 (.sinkReady 3 2 5) (sIn reg0)) 3 2 = false ∧ reg0.ready = false ∧
    (∀ e, e ∈ reg0.cfg.sinks → e.2 = 5 ∨ reg0.sinks.contains e.2 = true) ∧ regIn.ingress ≠ [] ∧
    savedCtxs (sIn reg0) 3 2 = [] ∧ regionCtxs (sIn reg0) 3 2 = [] := ⟨rfl, rfl, rfl, rfl, by decide, by decide, by decide +kernel, by decide +kernel⟩
theorem witness_LaunchAndTokens_inject :
    let s := sAsk (ask 4 3 (.inject inPort false 0 hdr (List.replicate 64 0))) (sIn regIn)
    writing s 4 = false ∧ injectReason s 3 inPort false hdr (List.replicate 64 0) = 0 ∧ findIngress s 3 inPort = some (regIn, ⟨inPort, 3, 0, 8, []⟩) ∧
    findRegion s 3 2 = some regIn ∧ ringCfg (ctxAt s 0 false) 2 = some ⟨0, 2, 1, false, 64, false, []⟩ ∧
    injectReason s 3 inPort false hdr [] = 1 ∧ injectReason s 4 inPort false hdr [] = 2 ∧ injectReason s 3 ⟨0, 0, true, 2⟩ false hdr [] = 3 := by
  refine ⟨rfl, ?_, rfl, rfl, rfl, ?_, ?_, ?_⟩ <;> decide +kernel

/-! ### Witnesses: accesses of the host, and boot -/

/-- Core 0 has partition 3 with ASID 1; its tables begin at a table in the scratchpad of core 0 of which entry 0 points to itself
and entry 1 is a leaf with every permission for the next page. -/
def accPart : Partition := { (default : Partition) with
  params := { (default : PartParams) with num := 3, asid := 1, channel := 4 }, ptbase := BitVec.ofNat 56 (State.reset.chip * 2 ^ 44 + 2 ^ 40) }
def accTable : Nat := State.reset.chip * 2 ^ 44 + 2 ^ 40
def accMem : State := memWrite (memWrite State.reset (fabKey 1 0) (natLe 8 (accTable + 1))) (fabKey 1 8) (natLe 8 (accTable + 2 ^ 16 + 0x1F))
def sAcc (m : HostMsg) : State := { modCore accMem 0 (fun c => { c with partid := 0x103 }) with parts := [accPart], hostIn := [m] }
def accVa : BitVec 80 := 0x10000
def accWalk (m : HostMsg) (write : Bool) (data : List Byte) : WalkRes := walkOn 3 1 walkFuel (accStarted (sAcc m) m [] write accVa 8 data)
  (startWalk (sAcc m) 3 accVa (if write then 2 else 1) 0 false)
def accLeaf (r : WalkRes) : Nat := match r.1 with
  | .leaf e => e
  | _ => 0

theorem accLands_of (m : HostMsg) (write : Bool) (data : List Byte) (hp : m.partition = 3) (hc : m.chip = State.reset.chip) (ha : mayAct (sAcc m) m = true)
    (r : WalkRes)
    (hr : accWalk m write data = r) (hl : (r.1 == .leaf (accLeaf r)) = true) (pa : Nat) (hpa : pa = leafAddr r.2.1.lvl (accLeaf r) r.2.1.va.toNat)
    (h : (faChip pa == State.reset.chip && State.reset.chip != hostChip && faRegion pa == 1 && targetErr r.2.2 3 1 (faOff pa) 8 false == 0 &&
      !fabBad r.2.2 1 (faOff pa) 8) = true) :
    AccLands (sAcc m) m [] write accVa 8 data pa r.2.2 := by
  simp only [Bool.and_eq_true, beq_iff_eq, bne_iff_ne, Bool.not_eq_true'] at h hl
  obtain ⟨⟨⟨⟨h1, h2⟩, h3⟩, h4⟩, h5⟩ := h
  refine ⟨⟨rfl, hc⟩, ha, ?_, by decide, by decide, by decide, (by intro a ha; cases ha), ?_, ⟨accLeaf r, r.2.1, ?_, hpa⟩, h1, h2, .inl h3, ?_, ?_⟩
  · rw [hp]; rfl
  · rw [hp]; cases write <;> rfl
  · rw [hp]; show accWalk m write data = _; rw [hr, ← hl]
  · rw [hp, h3]; exact h4
  · rw [h3]; exact h5

theorem witness_HostAndBoot_vread : ∃ pa u, AccLands (sAcc (ask 4 3 (.vread accVa 8))) (ask 4 3 (.vread accVa 8)) [] false accVa 8 [] pa u :=
  ⟨_, _, accLands_of _ _ _ rfl rfl (by decide +kernel) _ rfl (by decide +kernel) _ rfl (by decide +kernel)⟩
theorem witness_HostAndBoot_vwrite : ∃ pa u, AccLands (sAcc (ask 4 3 (.vwrite accVa (natLe 8 5)))) (ask 4 3 (.vwrite accVa (natLe 8 5))) [] true accVa 8 (natLe 8 5) pa u :=
  ⟨_, _, accLands_of _ _ _ rfl rfl (by decide +kernel) _ rfl (by decide +kernel) _ rfl (by decide +kernel)⟩
theorem witness_HostAndBoot_refused : HostHead (sAsk (ask 4 3 (.vread 0 7)) State.reset) (ask 4 3 (.vread 0 7)) [] ∧ (7 < 8 ∨ 9120 < 7) ∧
    HostHead (sAsk (ask 4 3 (.vwrite 0 (natLe 8 0))) State.reset) (ask 4 3 (.vwrite 0 (natLe 8 0))) [] ∧ (natLe 8 0).length = 8 ∧
    findPart (sAsk (ask 4 3 (.vwrite 0 (natLe 8 0))) State.reset) 3 = none ∧ writing State.reset 4 = false := ⟨⟨rfl, rfl⟩, by decide, ⟨rfl, rfl⟩, rfl, rfl, rfl⟩
theorem witness_HostAndBoot_config (h : 1 ≤ Config.bootExtent) :
    HostHead (sAsk (ask 4 3 (.config 1 State.reset.chip 0 [5])) State.reset) (ask 4 3 (.config 1 State.reset.chip 0 [5])) [] ∧
    inExtent 5 0 [(5 : Byte)].length = true ∧ State.reset.chip + 1 ≠ State.reset.chip :=
  ⟨⟨rfl, rfl⟩, by simpa [inExtent, regionExtent] using h, by decide⟩

/-- A read and a write of another package await the host under tag 7. -/
def flitOf (type : Nat) : Flit := { (default : Flit) with type := type, length := 8, partition := 3, payload := [1, 0, 0, 0, 0, 0, 0, 0] }
def sPage (type : Nat) (m : HostMsg) : State := { sAsk m State.reset with parts := [accPart], pages := [⟨7, flitOf type⟩] }
theorem witness_HostAndBoot_page :
    findPage (sPage 4 (ask 4 3 (.pagedata (List.replicate (reqLen (flitOf 4)) 0)))) (ask 4 3 (.pagedata (List.replicate (reqLen (flitOf 4)) 0))) =
      some ⟨7, flitOf 4⟩ ∧ (flitOf 4).type = 4 ∧ (List.replicate (reqLen (flitOf 4)) (0 : Byte)).length = reqLen (flitOf 4) ∧
    findPage (sPage 3 (ask 4 3 (.result 0))) (ask 4 3 (.result 0)) = some ⟨7, flitOf 3⟩ ∧ (flitOf 3).type = 3 ∧ (5 ≠ 0) :=
  ⟨rfl, rfl, List.length_replicate, rfl, rfl, by decide⟩

/-- A packet of session 1: kind, addressing, region, offset. -/
def packet (kind addr region off : Nat) (bs : List Byte) : BootPacket :=
  ⟨BitVec.ofNat 512 (kind + addr * 2 ^ 8 + region * 2 ^ 40 + 2 ^ 48 + off * 2 ^ 80 + bs.length * 2 ^ 120), bs⟩
def sBoot (opened : Bool) (p : BootPacket) : State := { State.reset with
  bootIn := [(9, p)], tree := { State.reset.tree with parent := some 9 },
  boot := { State.reset.boot with opened := opened, session := 1, mlen := 16, via := 9 } }

theorem witness_HostAndBoot_begin : BootHead (sBoot false (packet 1 0 0 0 (List.replicate 64 0))) 9 (packet 1 0 0 0 (List.replicate 64 0)) 1 ∧
    (sBoot false (packet 1 0 0 0 (List.replicate 64 0))).boot.opened = false ∧ badFields (packet 1 0 0 0 (List.replicate 64 0)) = false :=
  ⟨⟨⟨[], rfl⟩, by decide +kernel⟩, rfl, by decide +kernel⟩
theorem witness_HostAndBoot_manifest : BootHead (sBoot true (packet 5 0 0 8 (natLe 8 5))) 9 (packet 5 0 0 8 (natLe 8 5)) 5 ∧
    inSession (sBoot true (packet 5 0 0 8 (natLe 8 5))) (packet 5 0 0 8 (natLe 8 5)) = true ∧ badFields (packet 5 0 0 8 (natLe 8 5)) = false ∧
    bOffset (packet 5 0 0 8 (natLe 8 5)) + (packet 5 0 0 8 (natLe 8 5)).payload.length ≤ 16 := by
  refine ⟨⟨⟨[], rfl⟩, ?_⟩, ?_, ?_, ?_⟩ <;> decide +kernel
theorem witness_HostAndBoot_data : BootHead (sBoot true (packet 2 0 1 8 (natLe 8 5))) 9 (packet 2 0 1 8 (natLe 8 5)) 2 ∧
    inSession (sBoot true (packet 2 0 1 8 (natLe 8 5))) (packet 2 0 1 8 (natLe 8 5)) = true ∧ addresses (packet 2 0 1 8 (natLe 8 5)) State.reset.chip = true ∧
    badFields (packet 2 0 1 8 (natLe 8 5)) = false ∧ badLength (sBoot true (packet 2 0 1 8 (natLe 8 5))) (packet 2 0 1 8 (natLe 8 5)) = false ∧
    residentIn (sBoot true (packet 2 0 1 8 (natLe 8 5))) (dataCores (packet 2 0 1 8 (natLe 8 5))) = false ∧
    residentIn (stg id) (dataCores (packet 2 0 1 8 (natLe 8 5))) = true := by
  refine ⟨⟨⟨[], rfl⟩, ?_⟩, ?_, ?_, ?_, ?_, ?_, ?_⟩ <;> decide +kernel
/-- Addressing 1 with the range 7 to 6 names no chip. -/
theorem witness_HostAndBoot_passing :
    let p : BootPacket := ⟨BitVec.ofNat 512 (2 + 2 ^ 8 + 7 * 2 ^ 16 + 6 * 2 ^ 28 + 2 ^ 40 + 2 ^ 48), []⟩
    BootHead (sBoot true p) 9 p 2 ∧ inSession (sBoot true p) p = true ∧ addresses p State.reset.chip = false := by
  refine ⟨⟨⟨[], rfl⟩, ?_⟩, ?_, ?_⟩ <;> decide +kernel
theorem witness_HostAndBoot_cfg (h : 8 ≤ Config.bootExtent) : BootHead (sBoot true (packet 3 0 5 0 (natLe 8 5))) 9 (packet 3 0 5 0 (natLe 8 5)) 3 ∧
    inSession (sBoot true (packet 3 0 5 0 (natLe 8 5))) (packet 3 0 5 0 (natLe 8 5)) = true ∧ addresses (packet 3 0 5 0 (natLe 8 5)) State.reset.chip = true ∧
    badFields (packet 3 0 5 0 (natLe 8 5)) = false ∧ badLength (sBoot true (packet 3 0 5 0 (natLe 8 5))) (packet 3 0 5 0 (natLe 8 5)) = false := by
  have e : inExtent (bRegion (packet 3 0 5 0 (natLe 8 5))) (bOffset (packet 3 0 5 0 (natLe 8 5))) (bData (packet 3 0 5 0 (natLe 8 5))).length = true := by
    rw [show bRegion (packet 3 0 5 0 (natLe 8 5)) = 5 by decide +kernel, show bOffset (packet 3 0 5 0 (natLe 8 5)) = 0 by decide +kernel,
      show (bData (packet 3 0 5 0 (natLe 8 5))).length = 8 by decide +kernel]
    simpa [inExtent, regionExtent] using h
  refine ⟨⟨⟨[], rfl⟩, ?_⟩, ?_, ?_, ?_, ?_⟩
  · decide +kernel
  · decide +kernel
  · decide +kernel
  · decide +kernel
  · rw [badLength, e, show (bAddressing (packet 3 0 5 0 (natLe 8 5)) == 2) = false by decide +kernel,
      show (bRegion (packet 3 0 5 0 (natLe 8 5)) == 2) = false by decide +kernel]; rfl
theorem witness_HostAndBoot_end : BootHead (sBoot true (packet 4 0 0 0 [])) 9 (packet 4 0 0 0 []) 4 ∧ inSession (sBoot true (packet 4 0 0 0 [])) (packet 4 0 0 0 []) = true ∧
    badFields (packet 4 0 0 0 []) = false ∧ (sBoot true (packet 4 0 0 0 [])).boot.entry = none ∧ (sBoot true (packet 4 0 0 0 [])).boot.via = 9 ∧
    9 ≠ State.reset.chip ∧ treeNext (sBoot true (packet 4 0 0 0 [])) = [9] := by
  refine ⟨⟨⟨[], rfl⟩, ?_⟩, ?_, ?_, rfl, rfl, ?_, rfl⟩ <;> decide +kernel
/-- The report of a package with no children goes to its parent. -/
theorem witness_HostAndBoot_parent : (sBoot true (packet 4 0 0 0 [])).tree.parent = some 9 ∧ (sBoot true (packet 4 0 0 0 [])).tree.children = [] ∧
    (packet 4 0 0 0 []).payload = [] := ⟨rfl, rfl, rfl⟩
/-- A payload beyond 8128 bytes, one beyond the manifest, and DATA and CFG packets with a bad length. -/
theorem witness_HostAndBoot_length : BootHead (sBoot true (packet 5 0 0 0 (List.replicate 8129 0))) 9 (packet 5 0 0 0 (List.replicate 8129 0)) 5 ∧
    8128 < (packet 5 0 0 0 (List.replicate 8129 0)).payload.length ∧
    (sBoot true (packet 5 0 0 16 [5])).boot.mlen < bOffset (packet 5 0 0 16 [5]) + (packet 5 0 0 16 [5]).payload.length := by
  refine ⟨⟨⟨[], rfl⟩, ?_⟩, ?_, ?_⟩ <;> decide +kernel
theorem witness_HostAndBoot_bad : BootHead (sBoot true (packet 2 0 1 8 (List.replicate 8129 0))) 9 (packet 2 0 1 8 (List.replicate 8129 0)) 2 ∧ BootHead (sBoot true (packet 3 0 5 8 (List.replicate 8129 0))) 9 (packet 3 0 5 8 (List.replicate 8129 0)) 3 ∧
    inSession (sBoot true (packet 2 0 1 8 (List.replicate 8129 0))) (packet 2 0 1 8 (List.replicate 8129 0)) = true ∧ addresses (packet 2 0 1 8 (List.replicate 8129 0)) State.reset.chip = true ∧
    inSession (sBoot true (packet 3 0 5 8 (List.replicate 8129 0))) (packet 3 0 5 8 (List.replicate 8129 0)) = true ∧ addresses (packet 3 0 5 8 (List.replicate 8129 0)) State.reset.chip = true ∧
    badLength (sBoot true (packet 2 0 1 8 (List.replicate 8129 0))) (packet 2 0 1 8 (List.replicate 8129 0)) = true ∧
    badLength (sBoot true (packet 3 0 5 8 (List.replicate 8129 0))) (packet 3 0 5 8 (List.replicate 8129 0)) = true := by
  refine ⟨⟨⟨[], rfl⟩, ?_⟩, ⟨⟨[], rfl⟩, ?_⟩, ?_, ?_, ?_, ?_, ?_, ?_⟩ <;> decide +kernel
/-- The last child reports: to the package the packets came from at the root, to the parent elsewhere, to the host that asked. -/
def sEnd (e : BootEnd) (parent : Option Nat) : State :=
  withCtl 9 (.bootStatus 1 [(9, 0)]) { State.reset with ends := [e], tree := { State.reset.tree with parent := parent } }
theorem witness_HostAndBoot_status (e : BootEnd) (parent : Option Nat) :
    CtlHead (sEnd e parent) 9 (.bootStatus 1 [(9, 0)]) [] ∧ (sEnd e parent).ends = [e] ∧ (sEnd e parent).tree.parent = parent := ⟨rfl, rfl, rfl⟩
theorem witness_HostAndBoot_ends : let e : BootEnd := ⟨1, none, 8, [(0, 0)], [9], false⟩
    e.session = 1 ∧ e.waitFor = [9] ∧ e.sent = false ∧ e.entry = none ∧ e.via = 8 ∧ 8 ≠ State.reset.chip ∧
    { e with entry := some (4, 3) }.entry = some (4, 3) ∧ { e with sent := true }.sent = true ∧ { e with via := 7 }.via ≠ 8 :=
  ⟨rfl, rfl, rfl, rfl, rfl, by decide +kernel, rfl, rfl, by decide⟩
/-! ### Witnesses: the prefix engine, management and attestation -/

/-- The tree home of partition 3 with one request of this package's core 0, an append without a page, for its job 6. -/
def prefixReq : PrefixReq := { (default : PrefixReq) with chip := State.reset.chip, core := 0, job := 6, part := 3, major := 0x0E, arr := [0] }
def engine3 : PrefixEngine := { (default : PrefixEngine) with part := 3, tree := TreeState.new, l := 8, p := 16, n := 8, queue := [prefixReq] }
def jobPfx : Job := { (default : Job) with id := 6, state := .running }
def sPrefix : State := { onCore (fun c => { c with jobs := [jobPfx] }) State.reset with engines := [engine3] }

theorem witness_PrefixServes : takePrefixFlit sPrefix = none ∧ sPrefix.engines.find? mayServe = some engine3 ∧ findEngine sPrefix engine3.part = some engine3 ∧
    engine3.queue = prefixReq :: [] ∧ (serveTree engine3 prefixReq).cow = none ∧ prefixReq.chip = sPrefix.chip ∧
    findJob sPrefix prefixReq.core prefixReq.job = some jobPfx ∧ jobPfx.state = .running := ⟨rfl, rfl, rfl, rfl, by decide +kernel, rfl, rfl, rfl⟩
theorem witness_PrefixServes_app : allocLpid TreeState.new 8 = some (1, putRec { TreeState.new with fresh := 2 } 1 (some ⟨1, false⟩)) ∧
    lpidRec (putRec TreeState.new 1 (some ⟨1, false⟩)) 1 = some ⟨1, false⟩ ∧ (0 < 1 ∧ 1 < 2 ^ 20) ∧ (⟨1, false⟩ : LpidRec).count ≠ 0 :=
  ⟨rfl, rfl, by decide, by decide⟩

def sMgmt (q : Mgmt) (s : State) : State := sAsk (ask 0 0 (.mgmt q)) s
theorem mgmtHead (q : Mgmt) (s : State) (h : State.reset.chip = s.chip) : MgmtHead (sMgmt q s) (ask 0 0 (.mgmt q)) [] q := ⟨⟨rfl, h⟩, rfl, rfl⟩
def params0 (num : Nat) : PartParams := { (default : PartParams) with num := num, asid := 1, cores := [4, 5], l := 8, p := 16, n := 8, krow := 3 }
theorem witness_Management_create (n : Nat) : MgmtHead (sMgmt (.createPartition (params0 n)) State.reset) (ask 0 0 (.mgmt (.createPartition (params0 n)))) []
    (.createPartition (params0 n)) ∧ badParams State.reset (params0 0) = true ∧ badParams State.reset (params0 3) = false ∧
    partClash State.reset (params0 3) = false ∧ partClash (sAcc default) (params0 3) = true :=
  ⟨mgmtHead _ _ rfl, by decide +kernel, by decide +kernel, by decide +kernel, by decide +kernel⟩
theorem witness_Management_destroy : MgmtHead (sMgmt (.destroyPartition accPart.params.num) (sAcc default)) (ask 0 0 (.mgmt (.destroyPartition accPart.params.num))) []
    (.destroyPartition accPart.params.num) ∧ accPart.params.num ≠ 0 ∧ findPart (sMgmt (.destroyPartition accPart.params.num) (sAcc default)) accPart.params.num = some accPart ∧
    (sAcc default).regions = [] ∧ partOf (getCore (sAcc default) 0) = 3 := ⟨mgmtHead _ _ rfl, by decide, rfl, rfl, by decide +kernel⟩
theorem witness_Management_cores : MgmtHead (sMgmt (.restartCurator 4) State.reset) (ask 0 0 (.mgmt (.restartCurator 4))) [] (.restartCurator 4) ∧
    MgmtHead (sMgmt (.retireCore 4) State.reset) (ask 0 0 (.mgmt (.retireCore 4))) [] (.retireCore 4) ∧
    (getCore State.reset 4).withdrawn = false ∧ (getCore State.reset 4).jobs = [] ∧ (getCore State.reset 4).ctxA.relq = [] ∧
    (getCore State.reset 4).ctxB.relq = [] ∧
    (let s := sMgmt (.retireCore 4) State.reset
     coreReady (modCore s 4 fun c => killSuspended (killSuspended c false) true) 4 = true) :=
  ⟨mgmtHead _ _ rfl, mgmtHead _ _ rfl, rfl, rfl, rfl, rfl, rfl⟩

def chan5 : Channel := { (default : Channel) with num := 5, part := 3 }
def sChan : State := { State.reset with channels := [chan5], parts := [{ accPart with params := { accPart.params with channel := 5 } }] }
theorem witness_Management_channels : MgmtHead (sMgmt (.openChannel 6 0) sChan) (ask 0 0 (.mgmt (.openChannel 6 0))) [] (.openChannel 6 0) ∧
    findChannel sChan 6 = none ∧ MgmtHead (sMgmt (.closeChannel 5 chan5.part) sChan) (ask 0 0 (.mgmt (.closeChannel 5 chan5.part))) [] (.closeChannel 5 chan5.part) ∧
    findChannel sChan 5 = some chan5 ∧ (5 ≠ 0) ∧
    MgmtHead (sMgmt (.installStorageKey 3 9) sChan) (ask 0 0 (.mgmt (.installStorageKey 3 9))) [] (.installStorageKey 3 9) ∧
    (findPart sChan 3).isSome = true ∧ MgmtHead (sMgmt (.writeRouting (.route 7 0)) sChan) (ask 0 0 (.mgmt (.writeRouting (.route 7 0)))) [] (.writeRouting (.route 7 0)) ∧
    routeOk (.route 7 0) = true ∧ routeOk (.dltime 255) = false ∧ routeOk (.dltime 256) = true ∧
    MgmtHead (sMgmt (.readTelemetry 3) sChan) (ask 0 0 (.mgmt (.readTelemetry 3))) [] (.readTelemetry 3) :=
  ⟨mgmtHead _ _ rfl, rfl, mgmtHead _ _ rfl, rfl, by decide, mgmtHead _ _ rfl, rfl, mgmtHead _ _ rfl, rfl, rfl, rfl, mgmtHead _ _ rfl⟩

/-- Region 2 of partition 3 at its home, as it may be changed; core 0 is the partition's. -/
def withReg (r : Region) : State := { onCore (fun c => { c with partid := 3, ctxA := { c.ctxA with status := .running, region := 2 } }) State.reset with regions := [r] }
def regErr : Region := { reg0 with errors := [(0x24, State.reset.chip, 0)], recover := true, phase := .stopped, cfg := { reg0.cfg with fallbacks := [(8, 9)], period := 1 } }
theorem witness_Management_regions : findRegion (sMgmt (.abortSegment 3 2) (withReg regErr)) 3 2 = some regErr ∧ regErr.gone = false ∧ regErr.phase ≠ .drained ∧
    MgmtHead (sMgmt (.abortSegment 3 2) (withReg regErr)) (ask 0 0 (.mgmt (.abortSegment 3 2))) [] (.abortSegment 3 2) ∧
    isHome (withReg regErr) regErr = true ∧ regErr.rolled = false ∧ reg0.errors = [] ∧
    MgmtHead (sMgmt (.rollBackRegion 3 2) (withReg reg0)) (ask 0 0 (.mgmt (.rollBackRegion 3 2))) [] (.rollBackRegion 3 2) ∧ reg0.cfg.homeChip = (withReg reg0).chip ∧
    MgmtHead (sMgmt (.replacePackage 3 2 8 9) (withReg regErr)) (ask 0 0 (.mgmt (.replacePackage 3 2 8 9))) [] (.replacePackage 3 2 8 9) ∧
    replaceBad (withReg regErr) regErr 8 9 = false ∧ replaceBad (withReg reg0) reg0 8 9 = true ∧ regErr.answer = none ∧ 9 ≠ (withReg regErr).chip ∧
    MgmtHead (sMgmt (.abandonRegion 3 2) (withReg reg0)) (ask 0 0 (.mgmt (.abandonRegion 3 2))) [] (.abandonRegion 3 2) :=
  ⟨rfl, rfl, by decide, mgmtHead _ _ rfl, rfl, rfl, rfl, mgmtHead _ _ rfl, rfl, mgmtHead _ _ rfl, by decide +kernel, by decide +kernel, rfl,
    by decide +kernel, mgmtHead _ _ rfl⟩

def sSpdm (q : SpdmReq) (phase : Nat) : State := { sAsk (ask 0 0 (.spdm q)) State.reset with
  spdm := { State.reset.spdm with phase := phase }, channels := [{ chan5 with num := 0 }] }
theorem witness_Attestation (q : SpdmReq) (p : Nat) : SpdmHead (sSpdm q p) (ask 0 0 (.spdm q)) [] q ∧ (sSpdm q p).spdm.phase = p ∧
    findChannel (sSpdm q p) 0 = some { chan5 with num := 0 } ∧ measured (sSpdm q p) 0 = some [natLe 1 5] := ⟨⟨rfl, rfl⟩, rfl, rfl, rfl⟩
theorem witness_Attestation_finish : (∃ v, v = finishMac (sSpdm .endSession 4)) ∧ ∃ v, v ≠ finishMac (sSpdm .endSession 4) := by
  refine ⟨⟨_, rfl⟩, finishMac (sSpdm .endSession 4) ^^^ 1, fun h => ?_⟩
  have := congrArg (finishMac (sSpdm .endSession 4) ^^^ ·) h
  simp [← BitVec.xor_assoc] at this

/-- Exchange data that is no point, and exchange data that is one: the base point. Twice it is the point that FIPS 186-5's arithmetic gives. -/
theorem witness_Attestation_points : readPoint [] = none ∧ readPoint (pointBytes p384Base) = p384Base ∧ p384Base.isSome = true :=
  ⟨by decide +kernel, by decide +kernel, rfl⟩
theorem test_curve_double : curveMul 384 2 p384Base = some
    (0x08D999057BA3D2D969260045C55B97F089025959A6F434D651D207D19FB96E9E4FE0E86EBE0E64F85B96A9C75295DF61,
     0x8E80F1FA5B1B3CEDB7BFE8DFFD6DBA74B275D875BC6CC43E904E505F256AB4255FFD43E94D39E22D61501E700A940E80) := by decide +kernel
/-- A keyed channel of no storage key, and a phase in which each request is out of order. -/
theorem witness_Attestation_update : { chan5 with num := 0, keyed := true } ∈ [{ chan5 with num := 0, keyed := true }] ∧
    storageChannel { sSpdm .keyUpdate 5 with channels := [{ chan5 with num := 0, keyed := true }] } 0 = false ∧
    ({ sSpdm .keyUpdate 5 with channels := [{ chan5 with num := 0, keyed := true }] }).spdm.phase = 5 := ⟨List.mem_singleton.2 rfl, rfl, rfl⟩
theorem witness_Attestation_order (q : SpdmReq) : ∃ p, spdmServed q p = false := by
  cases q <;> first | exact ⟨5, rfl⟩ | exact ⟨0, rfl⟩

/-- A withdrawn core, a channel that is not open, one of another partition, and one whose close touches no page. -/
theorem witness_Management_refused : (getCore (onCore (fun c => { c with withdrawn := true }) State.reset) 0).withdrawn = true ∧
    MgmtHead (sMgmt (.retireCore 0) (onCore (fun c => { c with withdrawn := true }) State.reset)) (ask 0 0 (.mgmt (.retireCore 0))) [] (.retireCore 0) ∧
    findChannel (sMgmt (.closeChannel 9 3) sChan) 9 = none ∧ MgmtHead (sMgmt (.closeChannel 9 3) sChan) (ask 0 0 (.mgmt (.closeChannel 9 3))) [] (.closeChannel 9 3) ∧
    findChannel (sMgmt (.closeChannel 5 4) sChan) 5 = some chan5 ∧ chan5.part ≠ 4 ∧ (∀ p, p ∈ sChan.pages → (getPart sChan p.flit.partition).params.channel ≠ 5) ∧
    findPart sChan 3 = some { accPart with params := { accPart.params with channel := 5 } } ∧ findChannel sChan 5 = some chan5 :=
  ⟨rfl, mgmtHead _ _ rfl, rfl, mgmtHead _ _ rfl, rfl, by decide, fun _ h => absurd h List.not_mem_nil, rfl, rfl⟩
/-! ### Witnesses: waves, polls and errors of regions -/

theorem witness_Regions_stop : CtlHead (withCtl 9 (.stop 3 2 1) (withReg reg0)) 9 (.stop 3 2 1) [] ∧ findRegion (withCtl 9 (.stop 3 2 1) (withReg reg0)) 3 2 = some reg0 ∧
    reg0.phase = .running ∧ inRegionCtx (withReg reg0) 3 2 0 false = true ∧ (ctxAt (withReg reg0) 0 false).stopped = none ∧
    mayTake (ctxAt (withReg reg0) 0 false) = true := ⟨rfl, rfl, rfl, by decide +kernel, rfl, rfl⟩
def regStopping : Region := { reg0 with phase := .stopping, cfg := { reg0.cfg with homeChip := 9, chips := [9] } }
theorem witness_Regions_report : ({ State.reset with regions := [regStopping] } : State).regions.find? (reportDue { State.reset with regions := [regStopping] }) =
    some regStopping ∧ regStopping.stray = false ∧ regStopping.cfg.homeChip ≠ State.reset.chip := by
  refine ⟨?_, rfl, ?_⟩ <;> decide +kernel
theorem witness_Regions_reports :
    let r : Region := { reg0 with phase := .stopped, stopOn := true, cfg := { reg0.cfg with chips := [9] } }
    (withCtl 9 (.stopped 3 2 9) (withReg r)).regions.find? (reportDue (withCtl 9 (.stopped 3 2 9) (withReg r))) = none ∧
    CtlHead (withCtl 9 (.stopped 3 2 9) (withReg r)) 9 (.stopped 3 2 9) [] ∧ r.stopOn = true ∧
    (∀ c, c ∈ r.cfg.chips → c = 9 ∨ r.reports.contains c = true ∨ r.lost.contains c = true) := by
  refine ⟨by decide +kernel, rfl, rfl, ?_⟩
  intro c hc; exact .inl (by simpa using hc)
def regHang : Region := { reg0 with cfg := { reg0.cfg with hangint := 100 } }
theorem witness_Regions_hang : isHome { withReg regHang with clock := 500 } regHang = true ∧ hangInterval { withReg regHang with clock := 500 } regHang = 100 ∧
    regHang.phase = .running ∧ regHang.stopOn = false ∧ (100 ≤ (([] : List (Nat × Bool)).map (·.1)).foldl Nat.min (500 - regHang.quiet)) ∧
    regionBusy { withReg regHang with clock := 500 } 3 2 = true ∧ (([(99, false)] : List (Nat × Bool)).map (·.1)).foldl Nat.min (500 - regHang.quiet) < 100 := by
  refine ⟨rfl, rfl, rfl, rfl, ?_, ?_, ?_⟩ <;> decide +kernel
def regDrain (t : Option (Nat × Nat)) : Region := { reg0 with phase := .draining, totals := t, sent := 4, recv := 4 }
def sDrain (t : Option (Nat × Nat)) : State := { State.reset with
  regions := [regDrain t], parts := [{ accPart with params := { accPart.params with save := some (0, 2 ^ 20) } }] }
theorem witness_Regions_drain (t : Option (Nat × Nat)) : findRegion (sDrain t) 3 2 = some (regDrain t) ∧ isHome (sDrain t) (regDrain t) = true ∧
    (regDrain t).phase = .draining ∧ (regDrain t).waving = false ∧ (regDrain t).totals = t ∧
    ((drainAnswer (sDrain t) (regDrain t)).sent, (drainAnswer (sDrain t) (regDrain t)).recv) = (4, 4) := ⟨rfl, rfl, rfl, rfl, rfl, rfl⟩
theorem witness_Regions_drain_room : (drainAnswer (sDrain none) (regDrain none)).busy = false ∧ (drainAnswer (sDrain (some (4, 4))) (regDrain (some (4, 4)))).busy = false ∧
    64 + (drainAnswer (sDrain (some (4, 4))) (regDrain (some (4, 4)))).bytes ≤ (((getPart (sDrain (some (4, 4))) 3).params.save.map (·.2)).getD 0) := by
  refine ⟨?_, ?_, ?_⟩ <;> decide +kernel
def regWave : Region := { reg0 with ready := true, cfg := { reg0.cfg with period := 1000 } }
theorem witness_Regions_wave : isHome (withReg regWave) regWave = true ∧ regWave.stopOn = false ∧ regWave.ready = true ∧ regWave.waving = false ∧
    regWave.cfg.period ≠ 0 ∧ CtlHead (withCtl 9 (.sinkWave 3 2 5 (regWave.wave + 1)) (withReg { regWave with waving := true })) 9 (.sinkWave 3 2 5 (regWave.wave + 1)) [] ∧
    (∀ e, e ∈ regWave.cfg.sinks → e.2 = 5 ∨ regWave.sinkWave.contains e.2 = true) ∧
    CtlHead (withCtl 9 (.waveDone 3 2 1) (withReg regWave)) 9 (.waveDone 3 2 1) [] := ⟨rfl, rfl, rfl, rfl, by decide, rfl, by decide, rfl⟩

theorem witness_Regions_error : CtlHead (withCtl 9 (.error 3 2 0x24 9 0) (withReg reg0)) 9 (.error 3 2 0x24 9 0) [] ∧ isHome (withReg reg0) reg0 = true ∧
    reg0.phase = .running ∧ reg0.stopOn = false := ⟨rfl, rfl, rfl, rfl⟩
/-- Core 0 holds a snapshot of wave 4. -/
def snap4 : Snap := { wave := 4, regs := Regs.reset, ctol := Context.reset.ctol, ins := Context.reset.ins, outs := Context.reset.outs, evHead := 0, evTail := 0, evq := [], wins := [] }
def sSnap : State := onCtx (fun x => { x with snaps := [(false, snap4)] }) (withReg regErr)
theorem witness_Regions_rollback : CtlHead (withCtl 9 (.rollback 3 2 4) sSnap) 9 (.rollback 3 2 4) [] ∧ inRegionCtx sSnap 3 2 0 false = true ∧
    (ctxAt sSnap 0 false).snaps.find? (fun e => e.2.wave == 4) = some (false, snap4) ∧ findRegion sSnap 3 2 = some regErr :=
  ⟨rfl, by decide +kernel, rfl, rfl⟩
/-- The root hears that the one link to package 9 is down. -/
def sRoot : State := { State.reset with tree := { State.reset.tree with built := [⟨8, 2, 9, 3⟩] } }
theorem witness_RegionErrors_lost : let tr : Tree := { sRoot.tree with downs := sRoot.tree.downs ++ [(8, 2)] }
    CtlHead (withCtl 8 (.linkDown 8 2) sRoot) 8 (.linkDown 8 2) [] ∧ chipGone tr 9 = true ∧ 9 ≠ sRoot.chip ∧
    distinct ((tr.built.map (·.far)).filter fun x => x != sRoot.chip && chipGone tr x && !tr.lost.contains x) = [9] := by
  refine ⟨rfl, ?_, ?_, ?_⟩ <;> decide +kernel
theorem witness_RegionErrors_none : let tr : Tree := { State.reset.tree with downs := State.reset.tree.downs ++ [(8, 2)] }
    distinct ((tr.built.map (·.far)).filter fun x => x != State.reset.chip && chipGone tr x && !tr.lost.contains x) = [] := by decide +kernel
theorem witness_Regions_linkDown : CtlHead (withCtl 9 (.linkDown 9 3) State.reset) 9 (.linkDown 9 3) [] := rfl

/-! ### Witnesses: one step -/

/-- Core 0 is about to fetch bundle 0, of which one slot holds a word; its context has one bundle. -/
def sFetch (n w : Nat) : State := { modCore (stg fun x => { x with live := { x.live with next := .at 0 }, cfg := { x.cfg with first := 0, size := 1 } }) 0
    (fun c => { c with prog := [(0, BitVec.ofNat 256 (w * 2 ^ (32 * n)))] }) with agenda := [.issue 0] }

/-- The answer of the decoder, as an Option. -/
def asOpt (r : Except DecodeError Instr) : Option Instr := match r with
  | .ok i => some i
  | .error _ => none
theorem ok_of_asOpt {r : Except DecodeError Instr} {i : Instr} (h : asOpt r = some i) : r = .ok i := by
  cases r <;> simp_all [asOpt]

theorem sFetch_fetches (n w : Nat) (h : (mayIssue { sFetch n w with agenda := [] } 0 &&
    (ctxAt (sFetch n w) 0 (runCtx (getCore (sFetch n w) 0))).rerun != .pending) = true)
    (hb : badWord (issuing (sFetch n w) 0 []) (progKey 0 0) 32 = none) : Fetches (sFetch n w) 0 [] (issuing (sFetch n w) 0 []) 0 := by
  simp only [Bool.and_eq_true, bne_iff_ne] at h
  exact ⟨rfl, rfl, by decide, h.1, rfl, ⟨_, rfl, h.2, rfl, rfl, rfl, (by intro v h; cases h), rfl, Nat.le_refl _, Nat.lt_succ_self _⟩, hb, rfl⟩

/-- A VADD alone in a bundle (R129). -/
def vaddI : Instr := .vadd 4 5 false 6 false 0 0 0
def sVadd : State := sFetch 3 0x04851800
def uVadd : State := issuing sVadd 0 []
theorem sVadd_alone : HoldsAlone sVadd 0 0 3 vaddI := by
  refine ⟨by decide, ok_of_asOpt ?_, ?_⟩ <;> decide +kernel
theorem witness_StepRuns : Fetches sVadd 0 [] uVadd 0 ∧ HoldsAlone sVadd 0 0 3 vaddI ∧ vaddI ≠ .nop ∧
    slotCause uVadd 0 (bundleInstrs (getCore sVadd 0) 0) (3, vaddI) = none ∧ slotEmpty uVadd (3, vaddI) = none ∧
    slotWaits uVadd (3, vaddI) = false ∧ uVadd.parity = [] ∧ endingAt (actRegs uVadd) 0 = [] ∧
    ∃ t, exec vaddI (modScr uVadd fun q => { q with slot := 3 }) = .next t ∧ t.scr.memerr = none ∧ t.scr.implicit = false ∧ t.scr.trapped = none ∧
      t.scr.frozen = none := by
  refine ⟨sFetch_fetches _ _ (by decide +kernel) (by decide +kernel), sVadd_alone, ?_, ?_, ?_, ?_, ?_, ?_, _, rfl, ?_, ?_, ?_, ?_⟩ <;> decide +kernel
/-- A TRAP alone, and a BR whose target is not fetched. -/
theorem witness_StepRuns_trap : let s := sFetch 0 0x34001400; let u := issuing s 0 []
    Fetches s 0 [] u 0 ∧ HoldsAlone s 0 0 0 (.trap 5 false 0) ∧ slotCause u 0 (bundleInstrs (getCore s 0) 0) (0, .trap 5 false 0) = none ∧
    slotEmpty u (0, .trap 5 false 0) = none ∧ slotWaits u (0, .trap 5 false 0) = false ∧ u.parity = [] ∧ endingAt (actRegs u) 0 = [] ∧
    ∃ t, exec (.trap 5 false 0) (modScr (noteSeen u) fun q => { q with slot := 0 }) = .next t ∧ t.scr.memerr = none ∧ t.scr.implicit = false ∧
      t.scr.trapped.isSome = true := by
  refine ⟨sFetch_fetches _ _ (by decide +kernel) (by decide +kernel), ⟨by decide, ok_of_asOpt ?_, ?_⟩, ?_, ?_, ?_, ?_, ?_, _, rfl, ?_, ?_, ?_⟩ <;>
    decide +kernel
theorem witness_StepRuns_freeze : let s := sFetch 0 0x0C000000; let u := issuing s 0 []
    Fetches s 0 [] u 0 ∧ HoldsAlone s 0 0 0 (.br 0 false 0) ∧ slotCause u 0 (bundleInstrs (getCore s 0) 0) (0, .br 0 false 0) = none ∧
    slotEmpty u (0, .br 0 false 0) = none ∧ slotWaits u (0, .br 0 false 0) = false ∧ u.parity = [] ∧ endingAt (actRegs u) 0 = [] ∧
    ∃ t, exec (.br 0 false 0) (modScr (noteSeen u) fun q => { q with slot := 0 }) = .next t ∧ t.scr.memerr = none ∧ t.scr.implicit = false ∧
      t.scr.trapped = none ∧ t.scr.frozen = some .fetch ∧ t.scr.keep = false := by
  refine ⟨sFetch_fetches _ _ (by decide +kernel) (by decide +kernel), ⟨by decide, ok_of_asOpt ?_, ?_⟩, ?_, ?_, ?_, ?_, ?_, _, rfl, ?_, ?_, ?_, ?_, ?_⟩ <;>
    decide +kernel
theorem witness_StepRuns_bad : Fetches (sFetch 0 1) 0 [] (issuing (sFetch 0 1) 0 []) 0 ∧ slotBad (getCore (sFetch 0 1) 0) 0 0 = true :=
  ⟨sFetch_fetches _ _ (by decide +kernel) (by decide +kernel), by decide +kernel⟩
theorem witness_StepRuns_event : ({ State.reset with agenda := [.event .handle] } : State).halted = false ∧
    ({ State.reset with halted := true } : State).agenda.head? ≠ some (.event .powerLoss) := ⟨rfl, by decide⟩
/-- A bundle with a bad word in slot 0, one whose ADD has an empty source that it was told to trap on, one that waits. -/
def sCause : State := sFetch 0 1
def sEmptySrc (w : Nat) : State := onCtx (fun x => { x with live := setFull x.live (xReg 2) false }) (sFetch 1 w)
def isSomeCause (s : State) (e : Nat × Instr) : Bool := (slotCause s 0 (bundleInstrs (curCore s) 0) e).isSome
def isSomeEmpty (s : State) (e : Nat × Instr) : Bool := (slotEmpty s e).isSome
theorem witness_BundleCauses : (bundleInstrs (curCore sCause) 0).find? (isSomeCause sCause) = some (0, .nop) ∧
    (bundleInstrs (curCore (sEmptySrc 0x04228C00)) 0).find? (isSomeCause (sEmptySrc 0x04228C00)) = none ∧
    (bundleInstrs (curCore (sEmptySrc 0x04228C00)) 0).find? (isSomeEmpty (sEmptySrc 0x04228C00)) = some (1, .add 1 2 true 3 false 0) ∧
    slotEmpty (sEmptySrc 0x04228C00) (1, .add 1 2 true 3 false 0) = some (xReg 2) ∧
    (bundleInstrs (curCore (sEmptySrc 0x04220C00)) 0).find? (isSomeCause (sEmptySrc 0x04220C00)) = none ∧
    (bundleInstrs (curCore (sEmptySrc 0x04220C00)) 0).find? (isSomeEmpty (sEmptySrc 0x04220C00)) = none ∧
    (bundleInstrs (curCore (sEmptySrc 0x04220C00)) 0).any (fun e => slotWaits (sEmptySrc 0x04220C00) e) = true := by
  refine ⟨?_, ?_, ?_, ?_, ?_, ?_, ?_⟩ <;> decide +kernel
theorem witness_BundleCauses_range : (getCtx (curCore (sFetch 0 0)) false).live.next = .at 0 ∧ (getCtx (curCore (sFetch 0 0)) false).cfg.first + 1 ≤ 1 :=
  ⟨rfl, Nat.le_refl _⟩

theorem witness_EncodeThenDecode : vaddI.wf = true ∧ encode vaddI = some 0x04851800 := ⟨by decide +kernel, by decide +kernel⟩
theorem witness_DecodeThenEncode : (3 < 8) ∧ 0x04851800 < 2 ^ 32 ∧ decodeSlot 3 0x04851800 = .ok vaddI :=
  ⟨by decide, by decide, ok_of_asOpt (by decide +kernel)⟩
theorem witness_MemoryStaysCanonical : Memory.wf (sLaunch).mem = true ∧ ∃ t, step { State.reset with agenda := [.event .handle] } = .next t := ⟨rfl, _, rfl⟩

/-! ### Ill-formed terms, one for each check of WellFormed -/

theorem illFormed_levels : [Instr.loopImm 6 0 0, .loopReg 6 0 0 false, .loopKeep 6 0, .loopsl 6 0 0, .lbrk 6 false 0, .rng 0 6 false 0, .stadv 0 6 0].all
    (fun i => !i.wf) = true := by decide
theorem illFormed_control : [Instr.fence 0 0 0 false 0, .evpop 3 3 false 0, .rdct 0 8 false 0, .mfc 0 6 false 0, .mtc 0 false 3 false 0, .mtc 0 false 6 false 0].all
    (fun i => !i.wf) = true := by decide
theorem illFormed_compare : [Instr.cmp 0 14 0 false 0 false 0, .cmpi 0 10 0 false 0 0, .mfs 0 6 0, .mts 0 false 6 0, .mts 0 false 0x48 0].all (fun i => !i.wf) = true := by
  decide
theorem illFormed_round : [Instr.dadd 0 0 false 0 false 5 0, .dsub 0 0 false 0 false 5 0, .dmul 0 0 false 0 false 5 0, .ddiv 0 0 false 0 false 5 0,
    .dsqrt 0 0 false 5 0, .dfma 0 0 false 0 false 5 0, .dfms 0 0 false 0 false 5 0, .dnfma 0 0 false 0 false 5 0, .dnfms 0 0 false 0 false 5 0,
    .fadd 0 0 false 0 false 5 0, .fsub 0 0 false 0 false 5 0, .fmul 0 0 false 0 false 5 0, .fdiv 0 0 false 0 false 5 0, .fsqrt 0 0 false 5 0,
    .ffma 0 0 false 0 false 5 0, .i2d 0 0 false 5 0, .u2d 0 0 false 5 0, .d2i 0 0 false 5 0, .d2u 0 0 false 5 0, .f2d 0 0 false 5 0,
    .d2f 0 0 false 5 0, .i2f 0 0 false 5 0, .f2i 0 0 false 5 0].all (fun i => !i.wf) = true := by decide
theorem illFormed_vector : [Instr.vadd 0 0 false 0 false 7 0 0, .vadd 0 0 false 0 false 0 0 2, .vsub 0 0 false 0 false 7 0 0, .vmul 0 0 false 0 false 7 0 0,
    .vfma 0 0 false 0 false 7 0 0, .vfms 0 0 false 0 false 7 0 0, .vmin 0 0 false 0 false 7 0 0, .vmax 0 0 false 0 false 7 0 0,
    .vmaxm 0 0 false 0 false 7 0 0, .vabs 0 0 false 7 0, .vneg 0 0 false 7 0, .vcmpeq 0 0 false 0 false 0 0 2, .vcmplt 0 0 false 0 false 3 0 2,
    .vcmple 0 0 false 0 false 3 0 2, .vcmpun 0 0 false 0 false 4 0 0, .vand 0 0 false 0 false 7 0 0, .vor 0 0 false 0 false 7 0 0,
    .vxor 0 0 false 0 false 7 0 0].all (fun i => !i.wf) = true := by decide
theorem illFormed_shifts : [Instr.vshl 0 0 false 0 false 3 0 0, .vshl 0 0 false 16 false 5 0 2, .vshr 0 0 false 16 false 5 0 2, .vsra 0 0 false 16 false 5 0 2,
    .vbld 0 0 false 0 false 7 0 0, .vbc 0 0 false 7 0, .vins 0 0 false 0 false 7 0, .vext 0 0 false 0 false 7, .vperm 0 0 false 0 false 7 0,
    .vrot 0 0 false 0 false 0 0 0, .vrot 0 0 false 0 true 0 0 2, .vred 0 0 false 4 0 0, .vscan 0 0 false 3 0 0].all (fun i => !i.wf) = true := by decide
theorem illFormed_quant : [Instr.vcvt 0 0 false false 6 false 0 0, .vcvt 0 0 false true 4 true 0 0, .vqnt 0 0 false 0 false 3 0, .vdqnt 0 0 false 0 false 3 0,
    .vhad 0 0 false false 0 0 0, .vhad 0 0 false false 6 0 0, .vhad 0 0 false false 1 1 0, .vsmrg 0 0 false 1 0, .vsmup 0 0 false 0 false 0 0,
    .vchc 6 0 0 false 0 0 0, .vchc 0 10 0 false 0 0 0, .vch 0 0 false 1 0, .vexp2 0 0 false 3 0, .vlog2 0 0 false 3 0, .vrcp 0 0 false 3 0,
    .vrsq 0 0 false 3 0, .vsqrt 0 0 false 3 0, .vsincos 0 0 false 3 0, .vsincos 1 0 false 0 0, .vtanh 0 0 false 3 0].all (fun i => !i.wf) = true := by decide
theorem illFormed_matrix : [Instr.mac 0 0 2 false 0, .mac 0 0 0 true 0, .mfmt 2 4 0, .mfmt 4 8 0, .mclr 255 1 0, .lds 0 0 false false 3 true 0 0,
    .stget 0 0 7 0, .stset 0 0 false 7 0, .stset 1 0 false 6 0, .tsend 2 0 false 0 false 0 0].all (fun i => !i.wf) = true := by decide
theorem illFormed_events : [Instr.arbiterDecide 16, .queueEntry 16, .handover 16, .mwldBeatLand 16, .marginPlan 16, .frameTransmit 128, .linkRetryTimeout 128,
    .lossOfSignal 128, .preempt 16, .budgetExpiry 16, .branchFetchComplete 16 .a 0, .fixedResultDelivery 16 .a,
    .longLatencyWriteback 16 .a 0, .checkpointCommit 16 false, .withheldStorePerform 16 false, .rerunPairCompare 16 false,
    .candidateStarving 16 false, .rngAnswer 16 false, .tktgGrant 16 false none none, .evpopRecordFill 16 false, .cfgdoneAction 16 false,
    .markerAction 16 false, .drainAction 16 false, .sourceHardwareMark 16 false, .jobStart 16 0, .jobComplete 16 0, .caliperCompare 16 false,
    .pageWalk 16 0, .mmpbLoadDone 16 false, .arrayInterlockExpiry 16 false none, .linkFrameReceive 128 default, .heldSlotRelease 128 0].all (fun i => !i.wf) = true := by decide
/-! ### Words written out from the encodings of R120 to R137 -/

/-- A word with these values at these lowest bits. -/
def wd (l : List (Nat × Nat)) : Nat := l.foldl (fun w e => w + e.2 * 2 ^ e.1) 0
/-- Each word reads as its instruction in slot `n`. -/
def reads (n : Nat) (l : List (Nat × Instr)) : Bool := l.all fun e => asOpt (decodeSlot n e.1) == some e.2

/-- CP, CR, CL and CLS (R120 to R122): bt 2 in fn[5:4] or [25:24], level 3, xd 9, xa 17 with its e bit, xb 6, guard !q5. -/
def cr (maj fn : Nat) : Nat := wd [(26, maj), (4, fn), (3, 1), (0, 5)]
theorem decode_sequencing : reads 0 [
    (wd [(26, 0x01), (24, 2), (0, 0xFFFFFE)], .pbr 2 0xFFFFFE), (cr 0x02 2 + wd [(16, 17), (15, 1)], .pbrx 17 true 2 true 5),
    (cr 0x03 2, .br 2 true 5), (cr 0x04 2 + wd [(21, 9)], .call 9 2 true 5),
    (wd [(26, 0x05), (23, 3), (15, 7), (14, 0), (0, 64)], .loopImm 3 7 64), (wd [(26, 0x05), (23, 3), (15, 7), (14, 1), (9, 17), (8, 1)], .loopReg 3 7 17 true),
    (wd [(26, 0x05), (23, 3), (15, 7), (14, 1), (7, 1)], .loopKeep 3 7), (wd [(26, 0x06), (23, 3), (15, 7), (11, 4)], .loopsl 3 7 4),
    (cr 0x07 3, .lbrk 3 true 5)] = true := by decide +kernel
theorem decode_control : reads 0 [
    (cr 0x08 0 + wd [(21, 9), (16, 17), (15, 1), (10, 6)], .waitb 9 17 true 6 false true 5), (cr 0x09 3 + wd [(16, 17), (15, 1)], .waitt 17 true 3 true 5),
    (cr 0x0A 0, .done true 5), (cr 0x0B 0, .ckpt true 5), (wd [(26, 0x0C), (24, 3), (22, 3), (6, 0xFFFF)], .fence 3 3 0xFFFF false 0),
    (wd [(26, 0x0C), (24, 1), (22, 2), (6, 9), (3, 1), (0, 5)], .fence 1 2 9 true 5), (wd [(26, 0x0D), (10, 0xBEEF), (3, 1), (0, 5)], .trap 0xBEEF true 5),
    (cr 0x0E 0 + wd [(21, 9)], .getid 9 true 5), (cr 0x0F 0 + wd [(21, 9), (10, 6)], .evpop 9 6 true 5),
    (wd [(26, 0x10), (10, 0xBEEF), (3, 1), (0, 5)], .brk 0xBEEF true 5), (cr 0x11 4 + wd [(21, 9)], .rdct 9 4 true 5), (cr 0x12 3 + wd [(21, 9)], .rng 9 3 true 5)] = true := by
  decide +kernel
/-- CC, and CR with two sources (R124). -/
theorem decode_curator : reads 0 [
    (wd [(26, 0x30), (21, 9), (4, 0x13), (3, 1), (0, 5)], .mfc 9 0x13 true 5), (wd [(26, 0x31), (16, 17), (15, 1), (4, 0x13), (3, 1), (0, 5)], .mtc 17 true 0x13 true 5),
    (cr 0x32 0, .tret true 5), (cr 0x33 0 + wd [(16, 17), (15, 1)], .halt 17 true true 5), (cr 0x34 0 + wd [(16, 17), (15, 1)], .pstop 17 true true 5),
    (cr 0x35 0 + wd [(16, 17), (15, 1)], .pdrain 17 true true 5), (cr 0x36 0 + wd [(16, 17), (15, 1), (10, 6)], .csave 17 true 6 false true 5),
    (cr 0x37 0 + wd [(16, 17), (15, 1), (10, 6)], .cload 17 true 6 false true 5), (cr 0x38 0 + wd [(16, 17), (15, 1), (10, 6)], .tlbiAsid 17 true 6 false true 5),
    (cr 0x39 0 + wd [(16, 17), (15, 1), (10, 6)], .sltw 17 true 6 false true 5), (cr 0x3A 0 + wd [(16, 17), (15, 1), (10, 6)], .lkey 17 true 6 false true 5),
    (cr 0x3B 0 + wd [(16, 17), (15, 1)], .lksw 17 true true 5), (cr 0x3C 0 + wd [(16, 17), (15, 1)], .retc 17 true true 5),
    (cr 0x3D 0 + wd [(16, 17), (15, 1)], .jrsm 17 true true 5), (cr 0x3E 0 + wd [(16, 17), (15, 1)], .jkil 17 true true 5)] = true := by decide +kernel

/-- SR (R125): xd 9, xa 17 with its e bit, xb 6, qp 5. -/
def sr1 (maj fn : Nat) : Nat := wd [(26, maj), (21, 9), (16, 17), (15, 1), (3, fn), (0, 5)]
def sr (maj fn : Nat) : Nat := sr1 maj fn + 6 * 2 ^ 10
theorem decode_alu : reads 1 [
    (sr 0x01 0, .add 9 17 true 6 false 5), (sr 0x01 1, .sub 9 17 true 6 false 5), (sr 0x01 2, .and 9 17 true 6 false 5), (sr 0x01 3, .or 9 17 true 6 false 5),
    (sr 0x01 4, .xor 9 17 true 6 false 5), (sr 0x01 5, .andn 9 17 true 6 false 5), (sr 0x01 6, .sll 9 17 true 6 false 5), (sr 0x01 7, .srl 9 17 true 6 false 5),
    (sr 0x01 8, .sra 9 17 true 6 false 5), (sr 0x01 9, .rol 9 17 true 6 false 5), (sr 0x01 10, .min 9 17 true 6 false 5), (sr 0x01 11, .max 9 17 true 6 false 5),
    (sr 0x01 12, .minu 9 17 true 6 false 5), (sr 0x01 13, .maxu 9 17 true 6 false 5), (sr 0x02 0, .mul 9 17 true 6 false 5), (sr 0x02 1, .mulh 9 17 true 6 false 5),
    (sr 0x02 2, .mulhu 9 17 true 6 false 5), (sr 0x02 3, .div 9 17 true 6 false 5), (sr 0x02 4, .divu 9 17 true 6 false 5), (sr 0x02 5, .rem 9 17 true 6 false 5),
    (sr 0x02 6, .remu 9 17 true 6 false 5)] = true := by decide +kernel
theorem decode_unary : reads 2 [
    (sr1 0x03 0, .clz 9 17 true 5), (sr1 0x03 1, .ctz 9 17 true 5), (sr1 0x03 2, .popc 9 17 true 5), (sr1 0x03 3, .brev 9 17 true 5), (sr1 0x03 4, .extb 9 17 true 5),
    (sr1 0x03 5, .exth 9 17 true 5), (sr1 0x03 6, .extw 9 17 true 5), (sr1 0x03 7, .exbu 9 17 true 5), (sr1 0x03 8, .exhu 9 17 true 5), (sr1 0x03 9, .exwu 9 17 true 5),
    (sr 0x10 3, .sel 9 17 true 6 false 3 5), (wd [(26, 0x11), (21, 4), (16, 2), (15, 1), (10, 6), (3, 0), (0, 5)], .pand 4 2 true 6 false 5),
    (wd [(26, 0x11), (21, 4), (16, 2), (15, 1), (10, 6), (3, 1), (0, 5)], .por 4 2 true 6 false 5),
    (wd [(26, 0x11), (21, 4), (16, 2), (15, 1), (10, 6), (3, 2), (0, 5)], .pxor 4 2 true 6 false 5),
    (wd [(26, 0x11), (21, 4), (16, 2), (15, 1), (3, 3), (0, 5)], .pnot 4 2 true 5)] = true := by decide +kernel
/-- SI, SL, SC and SCI: imm12 0xFF5, imm16 0xBEEF in the part 3, cc 7, imm10 0x3F5. -/
def si (maj imm : Nat) : Nat := wd [(26, maj), (21, 9), (16, 17), (15, 1), (3, imm), (0, 5)]
theorem decode_immediate : reads 1 [
    (si 0x04 0xFF5, .addi 9 17 true 0xFF5 5), (si 0x05 0xFF5, .andi 9 17 true 0xFF5 5), (si 0x06 0xFF5, .ori 9 17 true 0xFF5 5), (si 0x07 0xFF5, .xori 9 17 true 0xFF5 5),
    (si 0x08 37, .slli 9 17 true 37 5), (si 0x09 37, .srli 9 17 true 37 5), (si 0x0A 37, .srai 9 17 true 37 5), (si 0x0B 0xFF5, .muli 9 17 true 0xFF5 5),
    (wd [(26, 0x0C), (21, 9), (19, 3), (3, 0xBEEF), (0, 5)], .lim 9 3 0xBEEF 5), (wd [(26, 0x0D), (21, 9), (19, 3), (3, 0xBEEF), (0, 5)], .lik 9 3 0xBEEF 5),
    (wd [(26, 0x0E), (23, 4), (19, 7), (14, 17), (13, 1), (8, 6), (0, 5)], .cmp 4 7 17 true 6 false 5),
    (wd [(26, 0x0F), (23, 4), (19, 7), (14, 17), (13, 1), (3, 0x3F5), (0, 5)], .cmpi 4 7 17 true 0x3F5 5),
    (wd [(26, 0x16), (21, 9), (3, 0x44), (0, 5)], .mfs 9 0x44 5), (wd [(26, 0x17), (16, 17), (15, 1), (3, 0x44), (0, 5)], .mts 17 true 0x44 5)] = true := by decide +kernel
/-- The floating majors: fn[8:6] the operation, fn[5:3] the rounding 3. -/
theorem decode_float : reads 1 [
    (sr 0x12 3, .dadd 9 17 true 6 false 3 5), (sr 0x12 (8 + 3), .dsub 9 17 true 6 false 3 5), (sr 0x12 (16 + 3), .dmul 9 17 true 6 false 3 5),
    (sr 0x12 (24 + 3), .ddiv 9 17 true 6 false 3 5), (sr1 0x12 (32 + 3), .dsqrt 9 17 true 3 5), (sr 0x12 40, .dmin 9 17 true 6 false 5),
    (sr 0x12 41, .dmax 9 17 true 6 false 5), (sr1 0x12 42, .dabs 9 17 true 5), (sr1 0x12 43, .dneg 9 17 true 5), (sr 0x13 3, .dfma 9 17 true 6 false 3 5),
    (sr 0x13 (8 + 3), .dfms 9 17 true 6 false 3 5), (sr 0x13 (16 + 3), .dnfma 9 17 true 6 false 3 5), (sr 0x13 (24 + 3), .dnfms 9 17 true 6 false 3 5),
    (sr 0x14 3, .fadd 9 17 true 6 false 3 5), (sr 0x14 (8 + 3), .fsub 9 17 true 6 false 3 5), (sr 0x14 (16 + 3), .fmul 9 17 true 6 false 3 5),
    (sr 0x14 (24 + 3), .fdiv 9 17 true 6 false 3 5), (sr1 0x14 (32 + 3), .fsqrt 9 17 true 3 5), (sr 0x14 40, .fmin 9 17 true 6 false 5),
    (sr 0x14 48, .fmax 9 17 true 6 false 5), (sr 0x14 (56 + 3), .ffma 9 17 true 6 false 3 5), (sr1 0x15 3, .i2d 9 17 true 3 5), (sr1 0x15 (8 + 3), .u2d 9 17 true 3 5),
    (sr1 0x15 (16 + 3), .d2i 9 17 true 3 5), (sr1 0x15 (24 + 3), .d2u 9 17 true 3 5), (sr1 0x15 (32 + 3), .f2d 9 17 true 3 5), (sr1 0x15 (40 + 3), .d2f 9 17 true 3 5),
    (sr1 0x15 (48 + 3), .i2f 9 17 true 3 5), (sr1 0x15 (56 + 3), .f2i 9 17 true 3 5)] = true := by decide +kernel

/-- The vector format (R129): vd 9, va 17 with its e bit, vb 6, mask 11. -/
def v1 (maj fmt : Nat) : Nat := wd [(26, maj), (21, 9), (16, 17), (15, 1), (6, fmt), (2, 11)]
def v2 (maj fmt sub : Nat) : Nat := v1 maj fmt + wd [(10, 6), (0, sub)]
theorem decode_vector : reads 3 [
    (v2 0x01 1 0, .vadd 9 17 true 6 false 1 11 0), (v2 0x02 1 1, .vsub 9 17 true 6 false 1 11 1), (v2 0x03 2 0, .vmul 9 17 true 6 false 2 11 0),
    (v2 0x04 3 0, .vfma 9 17 true 6 false 3 11 0), (v2 0x05 4 0, .vfms 9 17 true 6 false 4 11 0), (v2 0x06 5 0, .vmin 9 17 true 6 false 5 11 0),
    (v2 0x07 6 0, .vmax 9 17 true 6 false 6 11 0), (v2 0x08 0 0, .vmaxm 9 17 true 6 false 0 11 0), (v1 0x09 1, .vabs 9 17 true 1 11), (v1 0x0A 1, .vneg 9 17 true 1 11),
    (v2 0x0B 1 0, .vcmpeq 9 17 true 6 false 1 11 0), (v2 0x0C 4 2, .vcmplt 9 17 true 6 false 4 11 2), (v2 0x0D 4 2, .vcmple 9 17 true 6 false 4 11 2),
    (v2 0x0E 1 0, .vcmpun 9 17 true 6 false 1 11 0), (wd [(26, 0x0F), (21, 9), (16, 17), (15, 1)], .vcmpm 9 17 true), (v2 0x10 1 0, .vand 9 17 true 6 false 1 11 0),
    (v2 0x11 1 0, .vor 9 17 true 6 false 1 11 0), (v2 0x12 1 0, .vxor 9 17 true 6 false 1 11 0), (v2 0x13 4 2, .vshl 9 17 true 6 false 4 11 2),
    (v2 0x14 4 0, .vshr 9 17 true 6 false 4 11 0), (v2 0x15 4 1, .vsra 9 17 true 6 false 4 11 1), (v2 0x18 1 0, .vbld 9 17 true 6 false 1 11 0)] = true := by decide +kernel
theorem decode_elements : reads 4 [
    (wd [(26, 0x19), (21, 9), (10, 6), (9, 1), (6, 1), (2, 11), (0, 1)], .vbc 9 6 true 1 11), (v2 0x1A 1 1, .vins 9 17 true 6 false 1 11),
    (wd [(26, 0x1B), (21, 9), (16, 17), (15, 1), (10, 6), (6, 1), (0, 1)], .vext 9 17 true 6 false 1), (v2 0x1C 1 0, .vperm 9 17 true 6 false 1 11),
    (v2 0x1D 1 2, .vrot 9 17 true 6 false 1 11 2), (v1 0x1E 1 + 3 * 2 ^ 10, .vred 9 17 true 3 1 11), (v1 0x1F 1 + 2 * 2 ^ 10, .vscan 9 17 true 2 1 11),
    (v1 0x20 1 + wd [(14, 1), (10, 9)], .vcvt 9 17 true true 9 false 1 11), (v1 0x20 1 + wd [(10, 4), (9, 1)], .vcvt 9 17 true false 4 true 1 11),
    (v2 0x21 1 1, .vqnt 9 17 true 6 false 1 11), (v2 0x22 1 1, .vdqnt 9 17 true 6 false 1 11), (v1 0x23 0 + wd [(13, 1), (10, 5)], .vhad 9 17 true true 5 0 11),
    (v1 0x24 0, .vsmrg 9 17 true 0 11), (v2 0x25 0 0, .vsmup 9 17 true 6 false 0 11),
    (wd [(26, 0x26), (21, 5), (16, 9), (10, 6), (9, 1), (2, 11), (0, 1)], .vchc 5 9 6 true 0 11 1), (v1 0x27 0, .vch 9 17 true 0 11),
    (v1 0x38 2, .vexp2 9 17 true 2 11), (v1 0x39 2, .vlog2 9 17 true 2 11), (v1 0x3A 2, .vrcp 9 17 true 2 11), (v1 0x3B 2, .vrsq 9 17 true 2 11),
    (v1 0x3C 2, .vsqrt 9 17 true 2 11), (wd [(26, 0x3D), (21, 8), (16, 17), (15, 1), (6, 2), (2, 11)], .vsincos 8 17 true 2 11), (v1 0x3E 2, .vtanh 9 17 true 2 11)] = true := by
  decide +kernel
/-- The mask majors: md 9, ma 13 with its e bit, mb 6. -/
def mm (maj : Nat) : Nat := wd [(26, maj), (21, 9), (16, 13), (15, 1)]
theorem decode_masks : reads 3 [
    (mm 0x2C + 6 * 2 ^ 10, .mand 9 13 true 6 false), (mm 0x2D + 6 * 2 ^ 10, .mor 9 13 true 6 false), (mm 0x2E + 6 * 2 ^ 10, .mxor 9 13 true 6 false),
    (mm 0x2F, .mnot 9 13 true), (mm 0x30, .mfx 9 13 true), (wd [(26, 0x31), (21, 9), (16, 17), (15, 1)], .mtx 9 17 true), (mm 0x32 + 6 * 2 ^ 10, .mbitSet 9 13 true 6),
    (mm 0x32 + wd [(10, 6), (0, 2)], .mbitClr 9 13 true 6), (mm 0x32 + wd [(10, 6), (0, 3)], .mbitInv 9 13 true 6)] = true := by decide +kernel

/-- The matrix formats (R133), guard q5. -/
theorem decode_matrix : reads 5 [
    (wd [(26, 0x01), (18, 200), (13, 17), (11, 1), (10, 1), (0, 5)], .mac 200 17 1 true 5), (wd [(26, 0x02), (18, 33), (13, 9), (0, 5)], .mwld 33 9 5),
    (wd [(26, 0x03), (0, 5)], .mswp 5), (wd [(26, 0x04), (21, 9), (13, 200), (9, 7), (8, 1), (7, 0), (0, 5)], .mdrn 9 200 7 true false 5),
    (wd [(26, 0x05), (22, 4), (18, 7), (0, 5)], .mfmt 4 7 5), (wd [(26, 0x06), (0, 5)], .mchk 5), (wd [(26, 0x07), (0, 5)], .mloc 5), (wd [(26, 0x08), (0, 5)], .mfix 5),
    (wd [(26, 0x09), (13, 17), (10, 1), (0, 5)], .mmpb 17 true 5), (wd [(26, 0x0A), (18, 200), (10, 9), (0, 5)], .mclr 200 9 5)] = true := by decide +kernel
/-- LA, LB, LT and LC (R134, R135). -/
theorem decode_loadStore : reads 6 [
    (wd [(26, 0x01), (21, 9), (17, 12), (0, 5)], .vld 9 12 5), (wd [(26, 0x02), (21, 9), (17, 12), (16, 1), (0, 5)], .vst 9 12 true 5),
    (wd [(26, 0x03), (21, 9), (16, 17), (15, 1), (13, 1), (3, 0x3F5), (0, 5)], .vlda 9 17 true true 0x3F5 5),
    (wd [(26, 0x04), (21, 9), (16, 17), (14, 1), (13, 1), (3, 0x3F5), (0, 5)], .vsta 9 17 false true true 0x3F5 5),
    (wd [(26, 0x05), (21, 9), (16, 17), (15, 1), (13, 1), (11, 2), (10, 1), (3, 0x75), (0, 5)], .lds 9 17 true true 2 true 0x75 5),
    (wd [(26, 0x06), (21, 9), (16, 17), (14, 1), (11, 3), (3, 0x75), (0, 5)], .sts 9 17 false true false 3 0x75 5),
    (wd [(26, 0x07), (18, 200), (14, 11), (9, 17), (8, 1), (0, 5)], .acst 200 11 17 true 5), (wd [(26, 0x08), (18, 200), (14, 11), (9, 17), (8, 1), (0, 5)], .acld 200 11 17 true 5),
    (wd [(26, 0x09), (21, 12), (16, 17), (15, 1), (3, 0x3F5), (0, 5)], .stcfg 12 17 true 0x3F5 5), (wd [(26, 0x0A), (21, 9), (17, 12), (13, 6), (0, 5)], .stget 9 12 6 5),
    (wd [(26, 0x0B), (21, 9), (17, 12), (16, 1), (13, 3), (0, 5)], .stset 9 12 true 3 5), (wd [(26, 0x0C), (17, 12), (13, 3), (0, 5)], .stadv 12 3 5),
    (wd [(26, 0x0D), (21, 6), (0, 5)], .rpop 6 5), (wd [(26, 0x0E), (21, 9), (16, 17), (15, 1), (3, 0x3F5), (0, 5)], .xrd 9 17 true 0x3F5 5)] = true := by decide +kernel
/-- EJ and the other engine formats (R136, R137). -/
def ej (maj : Nat) : Nat := wd [(26, maj), (16, 17), (15, 1), (6, 0x1F5), (0, 5)]
theorem decode_engine : reads 7 [
    (ej 0x01, .cpy 17 true 0x1F5 5), (ej 0x02, .sca 17 true 0x1F5 5), (wd [(26, 0x03), (21, 6), (16, 17), (15, 1), (10, 9), (3, 2), (0, 5)], .tsend 6 17 true 9 false 2 5),
    (wd [(26, 0x04), (21, 9), (3, 2), (0, 5)], .tktg 9 2 5), (ej 0x05, .fld 17 true 0x1F5 5), (ej 0x06, .fst 17 true 0x1F5 5), (ej 0x07, .fatm 17 true 0x1F5 5),
    (ej 0x08, .frep 17 true 0x1F5 5), (wd [(26, 0x09), (16, 17), (15, 1), (8, 1), (0, 5)], .bara 17 true true 5),
    (wd [(26, 0x0A), (16, 17), (15, 1), (10, 9), (0, 5)], .bari 17 true 9 false 5), (ej 0x0B, .pfxlk 17 true 0x1F5 5), (ej 0x0C, .pfxin 17 true 0x1F5 5),
    (ej 0x0D, .pfxref 17 true 0x1F5 5), (ej 0x0E, .pfxapp 17 true 0x1F5 5), (ej 0x0F, .pfxev 17 true 0x1F5 5), (ej 0x10, .kvmrg 17 true 0x1F5 5),
    (wd [(26, 0x11), (0, 5)], .mark 5), (wd [(26, 0x12), (21, 6), (16, 17), (15, 1), (0, 5)], .jstat 6 17 true 5)] = true := by decide +kernel
/-! ### Words of the listings of 05, 06 and 08 -/

theorem decode_listing_call : reads 0 [(0x05000006, .pbr 1 6), (0x12800010, .call 20 1 false 0), (0x28000000, .done false 0), (0x08140020, .pbrx 20 false 2 false 0),
    (0x0C000020, .br 2 false 0), (0x33C00000, .fence 3 3 0 false 0), (0x14820000 + 0x5F00, .loopReg 1 4 15 true)] = true := by decide +kernel
theorem decode_listing_scalar : reads 1 [(0x30200960, .lim 1 0 300 0), (0x10600038, .addi 3 0 false 7 0), (0x04810C00, .add 4 1 false 3 false 0),
    (0x04210058, .max 1 1 false 0 false 0), (0x10A007F8, .addi 5 0 false 255 0), (0x04211450, .min 1 1 false 5 false 0), (0x10C60008, .addi 6 6 false 1 0)] = true := by
  decide +kernel
theorem decode_listing_matrix : reads 5 [(0x15100000, .mfmt 4 4 0), (0x08000000, .mwld 0 0 0), (0x0C000000, .mswp 0), (0x040E8000, .mac 3 20 0 false 0), (0x18000000, .mchk 0),
    (0x1C000001, .mloc 1), (0x20000001, .mfix 1), (0x11006000, .mdrn 8 3 0 false false 0), (0x12E07E00, .mdrn 23 3 15 false false 0)] = true := by decide +kernel

/-! ### Results of one instruction, worked out from the rules -/

/-- What an instruction has put in flight for a register, with its latency. -/
def sentTo (i : Instr) (r : RegName) (s : State) : Option (Nat × Nat) := match exec i s with
  | .next t => ((actRegs t).flight.find? fun f => f.dest == r).map fun f => (f.count, f.val)
  | _ => none
/-- The trap that an instruction has raised. -/
def traps (i : Instr) (s : State) : Option Nat := match exec i s with
  | .next t => t.scr.trapped.map fun p => p.cause
  | _ => none

-- The worked run after R143: x1 = max(300, 0), then min(300, 255).
theorem test_max : sentTo (.max 1 1 false 0 false 0) (xReg 1) (stgX [(xReg 1, 300)]) = some (1, 0x12C) := by decide +kernel
theorem test_min : sentTo (.min 1 1 false 5 false 0) (xReg 1) (stgX [(xReg 1, 0x12C), (xReg 5, 255)]) = some (1, 0xFF) := by decide +kernel
-- R160, R163 to R166: sums wrap at 2^64; shifts take the count modulo 64; SRA copies the sign.
theorem test_sub_wraps : sentTo (.sub 1 0 false 2 false 0) (xReg 1) (stgX [(xReg 2, 1)]) = some (1, 2 ^ 64 - 1) := by decide +kernel
theorem test_sra_sign : sentTo (.sra 1 2 false 3 false 0) (xReg 1) (stgX [(xReg 2, 2 ^ 63), (xReg 3, 63)]) = some (1, 2 ^ 64 - 1) := by decide +kernel
theorem test_sll_64 : sentTo (.sll 1 2 false 3 false 0) (xReg 1) (stgX [(xReg 2, 5), (xReg 3, 64)]) = some (1, 5) := by decide +kernel
theorem test_andn : sentTo (.andn 1 2 false 3 false 0) (xReg 1) (stgX [(xReg 2, 0xFF), (xReg 3, 0x0F)]) = some (1, 0xF0) := by decide +kernel
theorem test_min_signed : sentTo (.min 1 2 false 3 false 0) (xReg 1) (stgX [(xReg 2, 2 ^ 64 - 1), (xReg 3, 1)]) = some (1, 2 ^ 64 - 1) := by decide +kernel
theorem test_minu : sentTo (.minu 1 2 false 3 false 0) (xReg 1) (stgX [(xReg 2, 2 ^ 64 - 1), (xReg 3, 1)]) = some (1, 1) := by decide +kernel
theorem test_addi_sign : sentTo (.addi 1 2 false 0xFFF 0) (xReg 1) (stgX [(xReg 2, 5)]) = some (1, 4) := by decide +kernel
theorem test_extb : sentTo (.extb 1 2 false 0) (xReg 1) (stgX [(xReg 2, 0x180)]) = some (1, 2 ^ 64 - 128) := by decide +kernel
theorem test_lik_keeps : sentTo (.lik 1 1 0xBEEF 0) (xReg 1) (stgX [(xReg 1, 0x1111222233334444)]) = some (1, 0x11112222BEEF4444) := by decide +kernel
theorem test_cmp_ltu : sentTo (.cmpi 3 4 2 false 0x3FF 0) (qReg 3) (stgX [(xReg 2, 5)]) = some (1, 1) := by decide +kernel
-- R211: bit 5 of a mask of ones is cleared.
theorem test_mbit : sentTo (.mbitClr 3 0 false 5) (mReg 3) (stgX []) = some (2, 0xFFDF) := by decide +kernel
-- R60, R190: the broadcast of 2.0 to the lane that the mask selects, four elements of FP32.
theorem test_vbc : sentTo (.vbc 4 6 false 0 1) (vReg 4) (stgX [(xReg 6, 0x40000000), (mReg 1, 1)]) = some (2, 0x40000000400000004000000040000000) := by
  decide +kernel
-- R183: 1.0 + 2.0 in element 0.
theorem test_vadd : (sentTo (.vadd 4 5 false 6 false 0 0 0) (vReg 4) (stgX [(vReg 5, 0x3F800000), (vReg 6, 0x40000000)])).map (·.2) = some 0x40400000 := by decide +kernel
-- R38: 1 + 2^-53 ties to even toward 1.0, and upward under the mode toward +infinity.
theorem test_dadd_even : (sentTo (.dadd 1 2 false 3 false 0 0) (xReg 1) (stgX [(xReg 2, 0x3FF0000000000000), (xReg 3, 0x3CA0000000000000)])).map (·.2) =
    some 0x3FF0000000000000 := by decide +kernel
-- R85, R124: a privileged instruction in stage mode traps PRIV.
theorem test_priv : traps (.tret false 0) (stgX []) = some 0x02 := by decide +kernel
theorem test_brev : intResult (stgX [(xReg 2, 0x8000000000000003)]) (.brev 1 2 false 0) = some (1, 1, 0xC000000000000001) ∧
    sentTo (.brev 1 2 false 0) (xReg 1) (stgX [(xReg 2, 0x8000000000000003)]) = some (1, 0xC000000000000001) := by
  constructor <;> decide +kernel

/-! ### Witnesses: every slot instruction completes -/

theorem witness_ControlCompletes_sequence :
    (Ready (stgX []) (.pbr 0 8191) ∧ ControlRuns (stgX []) (.pbr 0 8191)) ∧ (Ready sBr (.br 1 false 0) ∧ ControlRuns sBr (.br 1 false 0)) ∧
    (Ready sBr (.call 1 1 false 0) ∧ ControlRuns sBr (.call 1 1 false 0)) ∧ (Ready sLoop (.lbrk 0 false 0) ∧ ControlRuns sLoop (.lbrk 0 false 0)) ∧
    (Ready sLoop (.done false 0) ∧ ControlRuns sLoop (.done false 0)) ∧ (Ready sRing (.waitt 1 false 7 false 0) ∧ ControlRuns sRing (.waitt 1 false 7 false 0)) :=
  ⟨⟨rfl, .pbr _ _ (by decide +kernel)⟩, ⟨rfl, .br _ _ _ ⟨rfl, fun _ => ⟨rfl, rfl⟩⟩⟩, ⟨rfl, .call _ _ _ _ ⟨rfl, fun _ => ⟨rfl, rfl⟩⟩⟩,
   ⟨rfl, .lbrk _ _ _ ⟨rfl, fun _ => ⟨⟨0, 1, 9⟩, by decide +kernel, rfl⟩⟩⟩, ⟨rfl, .done _ _ rfl⟩,
   ⟨rfl, .waitt _ _ _ _ _ ⟨_, rfl, by decide +kernel, by decide +kernel⟩⟩⟩
theorem witness_ControlCompletes_loop : Ready sLoop (.loopImm 5 6 0) ∧ ControlRuns sLoop (.loopImm 5 6 0) ∧ Ready sLoop (.loopKeep 5 6) ∧
    ControlRuns sLoop (.loopKeep 5 6) :=
  ⟨rfl, .loopImm _ _ _ ⟨rfl, witness_Loops_fit.1⟩, rfl, .loopKeep _ _ ⟨rfl, witness_Loops_fit.1⟩⟩
theorem witness_ControlCompletes_context : (Ready sRing (.evpop 1 2 false 0) ∧ ControlRuns sRing (.evpop 1 2 false 0)) ∧
    (Ready sRing (.rng 1 5 false 0) ∧ ControlRuns sRing (.rng 1 5 false 0)) ∧ (Ready sRing (.getid 1 false 0) ∧ ControlRuns sRing (.getid 1 false 0)) ∧
    (Ready sRing (.rdct 1 7 false 0) ∧ ControlRuns sRing (.rdct 1 7 false 0)) ∧ (Ready sRing (.mfs 1 0x47 0) ∧ ControlRuns sRing (.mfs 1 0x47 0)) ∧
    (Ready sRing (.mts 1 false 0x23 0) ∧ ControlRuns sRing (.mts 1 false 0x23 0)) ∧
    (Ready (curX []) (.mts 1 false 0x10 0) ∧ ControlRuns (curX []) (.mts 1 false 0x10 0)) ∧
    (Ready sLoop (.fence 1 0 0 false 0) ∧ ControlRuns sLoop (.fence 1 0 0 false 0)) :=
  ⟨⟨rfl, .evpop _ _ _ _ ⟨_, rfl⟩⟩, ⟨rfl, .rng _ _ _ _ ⟨by decide +kernel, rfl⟩⟩, ⟨rfl, .getid _ _ _⟩, ⟨rfl, .rdct _ _ _ _⟩,
   ⟨rfl, .mfs _ _ _ ⟨fun _ => rfl, (fun h => nomatch h)⟩⟩,
   ⟨rfl, .mts _ _ _ _ ⟨⟨fun _ => rfl, (fun h => nomatch h)⟩, fun _ _ _ => by decide +kernel⟩⟩,
   ⟨rfl, .mts _ _ _ _ ⟨⟨(fun h => nomatch h), fun _ => .inr rfl⟩, (fun h => nomatch h)⟩⟩,
   ⟨rfl, .fence _ _ _ _ _ ⟨fun _ => by decide +kernel, (fun h => nomatch h)⟩⟩⟩
theorem witness_ControlCompletes_trap : Ready sVec (.trap 0xFFFF false 0) ∧ MayEnter sVec 0x06 ∧ Ready sVec (.brk 0 false 0) ∧ MayEnter sVec 0x07 :=
  ⟨rfl, by unfold MayEnter hasVector; decide +kernel, rfl, by unfold MayEnter hasVector; decide +kernel⟩
theorem haltsAtOnce_of {c : Core} (h : (c.curator || c.running.isNone) = true) : HaltsAtOnce c := by
  cases hc : c.curator with
  | true => exact .inl hc
  | false => exact .inr fun b hb => by simp [hc, hb] at h
theorem witness_ControlCompletes_halt : (let s := curX [(xReg 3, 0xFFFF)]; Ready s (.halt 3 false false 0) ∧ ControlRuns s (.halt 3 false false 0)) ∧
    (let s := curX [(xReg 2, 0x18000)]; Ready s (.haltResume 2 false false 0) ∧ ControlRuns s (.haltResume 2 false false 0)) := by
  refine ⟨⟨rfl, .halt _ _ _ _ ⟨by decide +kernel, by decide +kernel, .inr fun k hk => haltsAtOnce_of ?_⟩⟩,
    ⟨rfl, .haltResume _ _ _ _ ⟨by decide +kernel, by decide +kernel, .inl (by decide +kernel)⟩⟩⟩
  revert k; decide +kernel
theorem witness_ControlCompletes_regions : (Ready sReg (.pstop 1 false false 0) ∧ ControlRuns sReg (.pstop 1 false false 0)) ∧
    (Ready sReg (.pstopThaw 2 false false 0) ∧ ControlRuns sReg (.pstopThaw 2 false false 0)) ∧
    (Ready sReg (.pdrain 1 false false 0) ∧ ControlRuns sReg (.pdrain 1 false false 0)) := by
  refine ⟨⟨rfl, .pstop _ _ _ _ ?_⟩, ⟨rfl, .pstopThaw _ _ _ _ ?_⟩, ⟨rfl, .pdrain _ _ _ _ ?_⟩⟩ <;> try unfold StopRuns
  all_goals decide +kernel
theorem witness_ControlCompletes_save : Ready sSave (.csave 1 false 2 false false 0) ∧ ControlRuns sSave (.csave 1 false 2 false false 0) :=
  ⟨rfl, .csave _ _ _ _ _ _ ⟨by decide +kernel, by decide +kernel, fun k hk => by
    have h : ∀ k, k ∈ maskCores (ux sSave 1) → (saveRefused sSave k (ux sSave 2) (bitOf (ux sSave 1) 16) = false ∧
      ((getCore sSave k).curator || (getCore sSave k).running.isNone) = true ∧
      (getCtx (getCore sSave k) (bitOf (ux sSave 1) 16)).relq = []) := by decide +kernel
    exact ⟨(h k hk).1, haltsAtOnce_of (h k hk).2.1, (h k hk).2.2⟩⟩⟩
theorem witness_ControlCompletes_system :
    (let s := curX [(xReg 2, 2)]; Ready s (.tlbiAll 2 false 0 false false 0) ∧ ControlRuns s (.tlbiAll 2 false 0 false false 0)) ∧
    (let s := curX [(xReg 1, 0x9100), (xReg 2, 0xFF)]; Ready s (.sltw 1 false 2 false false 0) ∧ ControlRuns s (.sltw 1 false 2 false false 0)) ∧
    (Ready sKey (.lkey 1 false 3 false false 0) ∧ ControlRuns sKey (.lkey 1 false 3 false false 0)) ∧
    (Ready sKey (.lksw 1 false false 0) ∧ ControlRuns sKey (.lksw 1 false false 0)) := by
  refine ⟨⟨rfl, .tlbiAll _ _ _ _ _ _ ?_⟩, ⟨rfl, .sltw _ _ _ _ _ _ ?_⟩,
    ⟨rfl, .lkey _ _ _ _ _ _ ⟨by decide +kernel, rfl, rfl, ⟨rfl, rfl, rfl⟩, (fun h => nomatch h)⟩⟩,
    ⟨rfl, .lksw _ _ _ _ ⟨by decide +kernel, rfl, ⟨_, rfl⟩, rfl, by decide +kernel⟩⟩⟩
  · unfold TlbiRuns; decide +kernel
  · unfold SlotRuns; decide +kernel
theorem witness_ControlCompletes_retire : (let s := curX [(xReg 1, 1), (xReg 3, 2 ^ 23 - 128)]
    Ready s (.retc 1 false false 0) ∧ ControlRuns s (.retc 1 false false 0) ∧ Ready s (.jkil 3 false false 0) ∧ ControlRuns s (.jkil 3 false false 0) ∧
    Ready s (.mtc 1 false 0x12 false 0) ∧ ControlRuns s (.mtc 1 false 0x12 false 0)) := by
  refine ⟨rfl, .retc _ _ _ _ ⟨by decide +kernel, .inl ⟨by decide +kernel, ?_⟩⟩, rfl, .jkil _ _ _ _ (by decide +kernel), rfl, .mtc _ _ _ _ _ (.inr ?_)⟩
  · unfold MayRetire; decide +kernel
  · exact ⟨rfl, fun _ h => (nomatch h)⟩

theorem quiet_of (s : State) (i : Instr) (h : ∀ fl, floatTrap s fl = 0) : Quiet s i :=
  ⟨fun _ _ _ _ => h _, fun _ _ _ => h _, fun _ _ _ _ _ _ => h _, fun _ _ _ _ _ _ => h _⟩
theorem floatTrap_stg (fl : Flg) : floatTrap (stgX []) fl = 0 := by
  have h : kFena (curCore (stgX [])) = 0 := rfl
  simp [floatTrap, h]
theorem witness_ArithmeticCompletes : ∀ i, i = .add 1 2 false 3 false 0 ∨ i = .div 1 2 false 3 false 0 ∨ i = .pnot 1 2 false 0 ∨ i = .dadd 1 2 false 3 false 0 0 ∨
    i = .fsqrt 1 2 false 0 0 ∨ i = .vadd 4 5 false 6 false 0 0 0 ∨ i = .mnot 1 2 false ∨ i = .vtanh 1 2 false 0 0 →
    Ready (stgX []) i ∧ HasResult (stgX []) i ∧ Quiet (stgX []) i := by
  rintro i (rfl | rfl | rfl | rfl | rfl | rfl | rfl | rfl) <;> refine ⟨rfl, ?_, quiet_of _ _ floatTrap_stg⟩ <;>
    simp [HasResult, intResult, divResult, truthResult, floatResult, floatLong, elemResult, wholeResult, specialResult, oneRes]

theorem witness_MemoryCompletes_array : (Ready sMac (.mac 255 16 1 false 0) ∧ MemoryRuns sMac (.mac 255 16 1 false 0)) ∧
    (Ready sLoadW (.mwld 63 1 0) ∧ MemoryRuns sLoadW (.mwld 63 1 0)) ∧ (Ready sMask (.mswp 0) ∧ MemoryRuns sMask (.mswp 0)) ∧
    (Ready sMask (.mclr 224 31 0) ∧ MemoryRuns sMask (.mclr 224 31 0)) ∧ (Ready sMac (.mdrn 1 255 15 true true 0) ∧ MemoryRuns sMac (.mdrn 1 255 15 true true 0)) ∧
    (Ready sMac (.mfix 0) ∧ MemoryRuns sMac (.mfix 0)) ∧ (Ready sMac (.mfmt 4 4 0) ∧ MemoryRuns sMac (.mfmt 4 4 0)) :=
  ⟨⟨rfl, .mac _ _ _ _ _ ⟨by decide +kernel, by decide +kernel, ⟨rfl, fun _ => rfl, rfl, rfl⟩, _, _, ⟨rfl, rfl⟩, by decide +kernel, rfl, rfl, rfl, rfl⟩⟩,
   ⟨rfl, .mwld _ _ _ ⟨rfl, by decide +kernel, rfl, rfl, _, _, _, fun _ => rfl, rfl, rfl, rfl⟩⟩, ⟨rfl, .mswp _ (fun _ h => nomatch h)⟩,
   ⟨rfl, .mclr _ _ _ ⟨by decide +kernel, fun _ _ _ => rfl, by decide +kernel⟩⟩,
   ⟨rfl, .mdrn _ _ _ _ _ _ ⟨by decide +kernel, rfl, fun _ => rfl, rfl⟩⟩, ⟨rfl, .mfix _ (fun h => nomatch h)⟩, ⟨rfl, .mfmt _ _ _⟩⟩
theorem witness_MemoryCompletes_mask : Ready sMask (.mmpb 1 false 0) ∧ MemoryRuns sMask (.mmpb 1 false 0) := by
  refine ⟨rfl, .mmpb _ _ _ ⟨by decide +kernel, ⟨rfl, rfl, rfl⟩, ?_⟩⟩
  rintro w rfl
  refine ⟨by decide +kernel, fun h => ?_⟩
  rw [show bitOf (leNat (actRead sMask .spad (ux sMask 1) 1024)) 2 = false by decide +kernel] at h
  exact nomatch h
theorem witness_MemoryCompletes_storage : (Ready sStr (.vld 1 3 0) ∧ MemoryRuns sStr (.vld 1 3 0)) ∧
    (Ready sMem (.lds 1 1 false false 0 true 0 0) ∧ MemoryRuns sMem (.lds 1 1 false false 0 true 0 0)) ∧
    (Ready sMem (.sts 2 3 false false false 3 0 0) ∧ MemoryRuns sMem (.sts 2 3 false false false 3 0 0)) ∧
    (Ready sDesc (.stcfg 1 1 false 0 0) ∧ MemoryRuns sDesc (.stcfg 1 1 false 0 0)) ∧ (Ready sRing (.rpop 7 0) ∧ MemoryRuns sRing (.rpop 7 0)) ∧
    (Ready sStr (.stadv 1 0 0) ∧ MemoryRuns sStr (.stadv 1 0 0)) := by
  refine ⟨⟨rfl, .vld _ _ _ ⟨rfl, rfl, rfl, _, _, _, fun _ => rfl, rfl⟩⟩, ⟨rfl, .lds _ _ _ _ _ _ _ _ ?_⟩,
    ⟨rfl, .sts _ _ _ _ _ _ _ _ ⟨.inr (by decide +kernel), ?_⟩⟩, ⟨rfl, .stcfg _ _ _ _ _ ⟨⟨rfl, rfl, rfl⟩, by decide +kernel⟩⟩,
    ⟨rfl, .rpop _ _ ⟨_, _, _, rfl, rfl⟩⟩, ⟨rfl, .stadv _ _ _ rfl⟩⟩
  · intro sp a n d g h
    rw [witness_LoadsAndStores_load.1] at h
    simp only [Option.some.injEq, Prod.mk.injEq] at h
    obtain ⟨rfl, rfl, rfl, -, -⟩ := h
    exact ⟨rfl, rfl, rfl⟩
  · intro sp a al bs h
    rw [witness_LoadsAndStores_store.1] at h
    simp only [Option.some.injEq, Prod.mk.injEq] at h
    obtain ⟨rfl, rfl, rfl, rfl⟩ := h
    rfl
theorem witness_MemoryCompletes_rows : let s := stgX [(xReg 1, 0x40)]
    (Ready s (.acst 255 15 1 false 0) ∧ MemoryRuns s (.acst 255 15 1 false 0)) ∧ Ready s (.acld 255 15 1 false 0) ∧ MemoryRuns s (.acld 255 15 1 false 0) :=
  ⟨⟨rfl, .acst _ _ _ _ _ ⟨rfl, rfl, rfl, rfl, .inr (by decide +kernel)⟩⟩, rfl, .acld _ _ _ _ _ ⟨⟨rfl, rfl, rfl⟩, rfl⟩⟩
theorem witness_MemoryCompletes_engine : (Ready sRing (.cpy 3 false 0 0) ∧ MemoryRuns sRing (.cpy 3 false 0 0)) ∧
    (Ready sRing (.tktg 31 1 0) ∧ MemoryRuns sRing (.tktg 31 1 0)) ∧ (Ready sRing (.jstat 1 3 false 0) ∧ MemoryRuns sRing (.jstat 1 3 false 0)) ∧
    (Ready sRing (.tsend 1 2 false 2 false 0 0) ∧ MemoryRuns sRing (.tsend 1 2 false 2 false 0 0)) := by
  refine ⟨⟨rfl, .cpy _ _ _ _ ?_⟩, ⟨rfl, .tktg _ _ _ ⟨_, rfl, rfl⟩⟩, ⟨rfl, .jstat _ _ _ _ ⟨rfl, by decide +kernel, .inr rfl, rfl⟩⟩,
    ⟨rfl, .tsend _ _ _ _ _ _ _ ⟨rfl, by decide +kernel, by decide +kernel, by decide +kernel, rfl, _, rfl, rfl, by decide +kernel, by decide +kernel,
      fun _ => by decide +kernel, (fun h => nomatch h)⟩⟩⟩
  unfold LaunchRuns; decide +kernel
theorem witness_MemoryCompletes_barrier : (let s := curX [(xReg 1, 2 ^ 23 - 8), (xReg 2, 0)]
    Ready s (.bara 1 false true 0) ∧ MemoryRuns s (.bara 1 false true 0) ∧ Ready s (.bari 1 false 2 false 0) ∧ MemoryRuns s (.bari 1 false 2 false 0)) ∧
    (let s := onCtx (fun x => { x with cfg := { x.cfg with ins := [], outs := [(0, outFifo)] } }) sRing
     Ready s (.mark 0) ∧ MemoryRuns s (.mark 0)) :=
  ⟨⟨rfl, .bara _ _ _ _ ⟨rfl, ⟨(fun h => nomatch h), fun _ => rfl⟩, by decide +kernel⟩, rfl,
    .bari _ _ _ _ _ ⟨rfl, by decide +kernel, by decide +kernel, rfl, (fun h => nomatch h)⟩⟩,
   ⟨rfl, .mark _ ⟨rfl, by decide +kernel, rfl, rfl, by decide +kernel, rfl⟩⟩⟩

end Sys2Proof.Tests
end

section
/-!
PROOFS. The gate of a slot instruction (R84, R86, R88, R89, R91, R119, R124): when each of its answers comes, and what
`exec` makes of it. Settles `Obligations.SlotGates`.
-/
namespace Sys2Proof.Machine

/-! ### The decode causes -/

theorem decodeCause_eq_none_iff {c : Bool} {i : Instr} :
    decodeCause c i = none ↔ i.wf = true ∧ (if c then curatorOk i = true else isPriv i = false) := by
  cases hw : i.wf <;> cases c <;> simp [decodeCause, hw]

theorem decodeCause_not_wf {c : Bool} {i : Instr} (hw : i.wf = false) : decodeCause c i = some 0x01 := by
  simp [decodeCause, hw]

theorem decodeCause_not_curatorOk {i : Instr} (hw : i.wf = true) (ho : curatorOk i = false) :
    decodeCause true i = some 0x01 := by
  simp [decodeCause, hw, ho]

theorem decodeCause_isPriv {i : Instr} (hw : i.wf = true) (hp : isPriv i = true) : decodeCause false i = some 0x02 := by
  simp [decodeCause, hw, hp]

/-! ### Full and empty operands -/

theorem waitsReg_iff {r : Regs} {i : Instr} :
    waitsReg r i = true ↔ (∃ q, q ∈ srcsOf i ∧ isFull r q.1 = false) ∨ (∃ d, d ∈ dstsOf i ∧ isFull r d = false) := by
  simp [waitsReg]

theorem waitsReg_eq_false_iff {r : Regs} {i : Instr} :
    waitsReg r i = false ↔ (∀ q, q ∈ srcsOf i → isFull r q.1 = true) ∧ (∀ d, d ∈ dstsOf i → isFull r d = true) := by
  simp [waitsReg]

/-- An empty source with its e bit set is an empty source (R88). -/
theorem emptySrc_eq_none_of_full {r : Regs} {i : Instr} (h : ∀ q, q ∈ srcsOf i → isFull r q.1 = true) :
    emptySrc r i = none := by
  simp only [emptySrc, Option.map_eq_none_iff, List.find?_eq_none]
  intro q hq
  simp [h q hq]

/-! ### The answers of the gate -/

theorem slotGate_decodeCause {s : State} {i : Instr} {c : Nat} (hd : decodeCause (curCore s).curator i = some c) :
    slotGate s i = .trap c ((encode i).getD 0) := by
  simp [slotGate, hd]

theorem slotGate_emptyGuard {s : State} {i : Instr} (hd : decodeCause (curCore s).curator i = none)
    (hf : guardFull (actRegs s) i = false) : slotGate s i = .wait := by
  simp [slotGate, hd, hf]

theorem slotGate_falseGuard {s : State} {i : Instr} (hd : decodeCause (curCore s).curator i = none)
    (hf : guardFull (actRegs s) i = true) (ht : guardTrue (actRegs s) i = false) : slotGate s i = .skip := by
  simp [slotGate, hd, hf, ht]

theorem slotGate_emptySrc {s : State} {i : Instr} {n : RegName} (hd : decodeCause (curCore s).curator i = none)
    (hf : guardFull (actRegs s) i = true) (ht : guardTrue (actRegs s) i = true)
    (he : emptySrc (actRegs s) i = some n) : slotGate s i = .trap 0x03 (emptyVal n) := by
  simp [slotGate, hd, hf, ht, he]

theorem slotGate_waitsReg {s : State} {i : Instr} (hd : decodeCause (curCore s).curator i = none)
    (hf : guardFull (actRegs s) i = true) (ht : guardTrue (actRegs s) i = true) (he : emptySrc (actRegs s) i = none)
    (hw : waitsReg (actRegs s) i = true) : slotGate s i = .wait := by
  simp [slotGate, hd, hf, ht, he, hw]

theorem ready_of_open {s : State} {i : Instr} (hd : decodeCause (curCore s).curator i = none)
    (hf : guardFull (actRegs s) i = true) (ht : guardTrue (actRegs s) i = true)
    (hw : waitsReg (actRegs s) i = false) : Ready s i := by
  have he := emptySrc_eq_none_of_full (waitsReg_eq_false_iff.mp hw).1
  simp [Ready, slotGate, hd, hf, ht, he, hw]

/-- Each gate that is closed answers something else than `go`. -/
theorem ready_opens {s : State} {i : Instr} (h : Ready s i) :
    guardFull (actRegs s) i = true ∧ guardTrue (actRegs s) i = true ∧ waitsReg (actRegs s) i = false := by
  have hd := ready_decodeCause h
  unfold Ready at h
  cases hf : guardFull (actRegs s) i with
  | false => simp [slotGate_emptyGuard hd hf] at h
  | true =>
    cases ht : guardTrue (actRegs s) i with
    | false => simp [slotGate_falseGuard hd hf ht] at h
    | true =>
      cases he : emptySrc (actRegs s) i with
      | some n => simp [slotGate_emptySrc hd hf ht he] at h
      | none =>
        cases hw : waitsReg (actRegs s) i with
        | true => simp [slotGate_waitsReg hd hf ht he hw] at h
        | false => exact ⟨rfl, rfl, rfl⟩

theorem ready_iff {s : State} {i : Instr} : Ready s i ↔ decodeCause (curCore s).curator i = none ∧
    guardFull (actRegs s) i = true ∧ guardTrue (actRegs s) i = true ∧ waitsReg (actRegs s) i = false :=
  ⟨fun h => ⟨ready_decodeCause h, ready_opens h⟩, fun ⟨hd, hf, ht, hw⟩ => ready_of_open hd hf ht hw⟩

/-! ### What an instruction does behind the gate -/

/-- R96 restricts fewer instructions than R93 and R96 together. -/
theorem ctlForbidden_eq_none_of_last {s : State} {i : Instr} (h : ctlForbidden s i true true = none) (last : Bool) :
    ctlForbidden s i true last = none := by
  cases last with
  | true => exact h
  | false =>
    unfold ctlForbidden at h ⊢
    split at h
    · cases h
    · rename_i hdelay
      rw [if_neg hdelay]
      split <;> rfl

/-- A decode cause comes before the restrictions of the control slot. -/
theorem exec_decodeCause {s : State} {i : Instr} {c : Nat} (hi : isSlot i = true)
    (hd : decodeCause (curCore s).curator i = some c) : exec i s = .next (raise s c ((encode i).getD 0)) := by
  have hg := slotGate_decodeCause hd
  obtain ⟨body, he⟩ | ⟨last, body, he⟩ := exec_gated i s hi
  · rw [he, slotOp_trap hg]
  · simp only [he, ctlOp, hd, slotOp_trap hg]

/-- Where nothing forbids it, a slot instruction is its own effect behind the gate. -/
theorem exec_slotOp {s : State} {i : Instr} (hi : isSlot i = true) (hd : decodeCause (curCore s).curator i = none)
    (hc : ctlForbidden s i true true = none) : ∃ body, exec i s = .next (slotOp s i body) := by
  obtain ⟨body, he⟩ | ⟨last, body, he⟩ := exec_gated i s hi
  · exact ⟨body, he⟩
  · exact ⟨body, by simp only [he, ctlOp, hd, ctlForbidden_eq_none_of_last hc last]⟩

section
variable {s : State} {i : Instr} (hi : isSlot i = true) (hd : decodeCause (curCore s).curator i = none)
  (hc : ctlForbidden s i true true = none)
include hi hd hc

theorem exec_skip (hg : slotGate s i = .skip) : exec i s = .next s := by
  obtain ⟨body, he⟩ := exec_slotOp hi hd hc
  rw [he, slotOp_skip hg]

theorem exec_wait (hg : slotGate s i = .wait) : exec i s = .next (freeze s .register) := by
  obtain ⟨body, he⟩ := exec_slotOp hi hd hc
  rw [he, slotOp_wait hg]

theorem exec_trapGate {c v : Nat} (hg : slotGate s i = .trap c v) : exec i s = .next (raise s c v) := by
  obtain ⟨body, he⟩ := exec_slotOp hi hd hc
  rw [he, slotOp_trap hg]

end

/-- Settles O9: the gate's answers, one lemma each, carried through `exec` by what a slot instruction does behind it. -/
theorem slotGates : Obligations.SlotGates := by
  unfold Obligations.SlotGates
  refine ⟨fun s i => ?ready, fun s i hi => ⟨fun hw => ?reserved, fun hw hcur ho => ?curator, fun hw hcur hp => ?priv⟩,
    fun s i hi hd hc hf ht => ?falseGuard,
    fun s i hi hd hc => ⟨fun hf => ?emptyGuard, fun hf ht => ⟨fun n he => ?emptySource, fun he hw => ?emptyOperand⟩⟩⟩
  case ready => rw [ready_iff, decodeCause_eq_none_iff, waitsReg_eq_false_iff]
  case reserved => exact exec_decodeCause hi (decodeCause_not_wf hw)
  case curator => exact exec_decodeCause hi (hcur ▸ decodeCause_not_curatorOk hw ho)
  case priv => exact exec_decodeCause hi (hcur ▸ decodeCause_isPriv hw hp)
  case falseGuard => exact exec_skip hi hd hc (slotGate_falseGuard hd hf ht)
  case emptyGuard => exact exec_wait hi hd hc (slotGate_emptyGuard hd hf)
  case emptySource =>
    rw [exec_trapGate hi hd hc (slotGate_emptySrc hd hf ht he), emptyVal, Nat.mul_comm 32]
  case emptyOperand => exact exec_wait hi hd hc (slotGate_waitsReg hd hf ht he (waitsReg_iff.mpr hw))

end Sys2Proof.Machine
end

section
/-!
PROOFS. The integer results of the scalar slots (R128, R160 to R166, R168, R169, R171): the number that each word operation
of the model spells, and what `exec` makes of it behind an open gate. Settles `Obligations.IntegerResults`.
-/
namespace Sys2Proof.Machine

/-! ### Words, numbers and bits -/

theorem toNat_ofInt_word (z : Int) : (BitVec.ofInt 64 z).toNat = intMod 64 z := BitVec.toNat_ofInt z

theorem toNat_eq_intMod (a : Word) : a.toNat = intMod 64 a.toInt := by
  rw [← toNat_ofInt_word, BitVec.ofInt_toInt]

theorem toNat_signExtend {w : Nat} (i : BitVec w) : (i.signExtend 64).toNat = intMod 64 i.toInt := toNat_ofInt_word _

theorem toNat_ofNat_of_le {n : Nat} (a : Word) (h : n ≤ a.toNat) : (BitVec.ofNat 64 n).toNat = n :=
  Nat.mod_eq_of_lt (Nat.lt_of_le_of_lt h a.isLt)

theorem bitOf_eq_testBit (v i : Nat) : bitOf v i = v.testBit i := by
  rw [Nat.testBit_eq_decide_div_mod_eq]
  rfl

/-- A number cut at bits `lo` and `lo + w`, the middle replaced. -/
theorem setBits_eq (v lo w x : Nat) :
    setBits v lo w x = 2 ^ lo * (2 ^ w * (v / 2 ^ lo / 2 ^ w) + x % 2 ^ w) + v % 2 ^ lo := by
  have h1 := Nat.div_add_mod v (2 ^ lo)
  have h2 := Nat.div_add_mod (v / 2 ^ lo) (2 ^ w)
  have h3 : v = 2 ^ lo * (2 ^ w * (v / 2 ^ lo / 2 ^ w)) + 2 ^ lo * (v / 2 ^ lo % 2 ^ w) + v % 2 ^ lo := by
    rw [← Nat.mul_add, h2, h1]
  rw [setBits, bitsOf, Nat.mul_comm _ (2 ^ lo), Nat.mul_comm _ (2 ^ lo), Nat.mul_add]
  omega

theorem testBit_setBits (v lo w x j : Nat) : (setBits v lo w x).testBit j =
    if lo ≤ j ∧ j < lo + w then x.testBit (j - lo) else v.testBit j := by
  rw [setBits_eq, Nat.testBit_two_pow_mul_add _ (Nat.mod_lt _ (Nat.two_pow_pos lo)),
    Nat.testBit_two_pow_mul_add _ (Nat.mod_lt _ (Nat.two_pow_pos w))]
  simp only [Nat.testBit_mod_two_pow, Nat.testBit_div_two_pow]
  by_cases hlow : j < lo
  · rw [if_pos hlow, if_neg (by omega), decide_eq_true hlow, Bool.true_and]
  · by_cases hmid : j - lo < w
    · rw [if_neg hlow, if_pos hmid, if_pos (by omega), decide_eq_true hmid, Bool.true_and]
    · rw [if_neg hlow, if_neg hmid, if_neg (by omega), show j - lo - w + w + lo = j by omega]

/-! ### Sums, shifts, bounds and products -/

theorem toNat_sub_word (a b : Word) : (a - b).toNat = (a.toNat + (2 ^ 64 - b.toNat)) % 2 ^ 64 := by
  rw [BitVec.toNat_sub, Nat.add_comm]

theorem toNat_shiftLeft (a : Word) (n : Nat) : (a <<< n).toNat = a.toNat * 2 ^ n % 2 ^ 64 := by
  rw [BitVec.toNat_shiftLeft, Nat.shiftLeft_eq]

theorem toNat_ushiftRight (a : Word) (n : Nat) : (a >>> n).toNat = a.toNat / 2 ^ n := by
  rw [BitVec.toNat_ushiftRight, Nat.shiftRight_eq_div_pow]

theorem toNat_sshiftRight (a : Word) (n : Nat) : (a.sshiftRight n).toNat = intMod 64 (a.toInt / (2 ^ n : Nat)) := by
  rw [toNat_eq_intMod, BitVec.toInt_sshiftRight, Int.shiftRight_eq_div_pow]

theorem toNat_rolW (a b : Word) : (rolW a b).toNat =
    (a.toNat * 2 ^ (b.toNat % 64) % 2 ^ 64 + a.toNat / 2 ^ (64 - b.toNat % 64)) % 2 ^ 64 := by
  have hr : b.toNat % 64 ≤ 64 := Nat.le_of_lt (Nat.mod_lt _ (by decide))
  have hlow : a.toNat / 2 ^ (64 - b.toNat % 64) < 2 ^ (b.toNat % 64) :=
    Nat.div_lt_of_lt_mul (by rw [← Nat.pow_add, Nat.sub_add_cancel hr]; exact a.isLt)
  have hhigh : a.toNat * 2 ^ (b.toNat % 64) % 2 ^ 64 = (a.toNat % 2 ^ (64 - b.toNat % 64)) <<< (b.toNat % 64) := by
    rw [Nat.shiftLeft_eq, ← Nat.mul_mod_mul_right, ← Nat.pow_add, Nat.sub_add_cancel hr]
  have hor : (rolW a b).toNat =
      a.toNat * 2 ^ (b.toNat % 64) % 2 ^ 64 + a.toNat / 2 ^ (64 - b.toNat % 64) := by
    rw [rolW, shCount, BitVec.toNat_rotateLeft, Nat.mod_mod, Nat.shiftLeft_eq, Nat.shiftRight_eq_div_pow, hhigh,
      Nat.shiftLeft_add_eq_or_of_lt hlow]
  rw [← hor, Nat.mod_eq_of_lt (rolW a b).isLt]

theorem toNat_minS (a b : Word) : (minS a b).toNat = intMod 64 (min a.toInt b.toInt) := by
  rw [toNat_eq_intMod, minS, BitVec.slt_eq_decide]
  grind

theorem toNat_maxS (a b : Word) : (maxS a b).toNat = intMod 64 (max a.toInt b.toInt) := by
  rw [toNat_eq_intMod, maxS, BitVec.slt_eq_decide]
  grind

theorem toNat_minU (a b : Word) : (minU a b).toNat = min a.toNat b.toNat := by
  rw [minU, BitVec.ult_eq_decide]
  grind

theorem toNat_maxU (a b : Word) : (maxU a b).toNat = max a.toNat b.toNat := by
  rw [maxU, BitVec.ult_eq_decide]
  grind

theorem toNat_mulhU (a b : Word) : (mulhU a b).toNat = a.toNat * b.toNat / 2 ^ 64 := by
  refine Nat.mod_eq_of_lt (Nat.div_lt_of_lt_mul ?_)
  exact Nat.mul_lt_mul_of_lt_of_lt a.isLt b.isLt

/-! ### Quotients and remainders -/

theorem toNat_ite_zero (b x y : Word) : (if b = 0 then x else y).toNat = if b.toNat = 0 then x.toNat else y.toNat := by
  simp only [← BitVec.toNat_inj, apply_ite BitVec.toNat]
  rfl

theorem toNat_divS (a b : Word) : (divS a b).toNat =
    if b.toNat = 0 then 2 ^ 64 - 1 else intMod 64 (a.toInt.tdiv b.toInt) := by
  rw [divS, toNat_ite_zero, BitVec.toNat_allOnes, toNat_ofInt_word]

theorem toNat_divU (a b : Word) : (divU a b).toNat = if b.toNat = 0 then 2 ^ 64 - 1 else a.toNat / b.toNat := by
  rw [divU, toNat_ite_zero, BitVec.toNat_allOnes, toNat_ofNat_of_le a (Nat.div_le_self _ _)]

theorem toNat_remS (a b : Word) : (remS a b).toNat =
    if b.toNat = 0 then a.toNat else intMod 64 (a.toInt.tmod b.toInt) := by
  rw [remS, toNat_ite_zero, toNat_ofInt_word]

theorem toNat_remU (a b : Word) : (remU a b).toNat = if b.toNat = 0 then a.toNat else a.toNat % b.toNat := by
  rw [remU, toNat_ite_zero, toNat_ofNat_of_le a (Nat.mod_le _ _)]

/-! ### Counting and reversing bits -/

theorem clzFrom_zero (n : Nat) : clzFrom 0 n = n := by
  induction n with
  | zero => rfl
  | succ n ih => simp [clzFrom, bitOf, ih]

theorem clzFrom_eq_log2 {v : Nat} (hv : v ≠ 0) (n : Nat) (h : v < 2 ^ n) : clzFrom v n = n - 1 - v.log2 := by
  induction n with
  | zero => omega
  | succ n ih =>
    rw [clzFrom, bitOf_eq_testBit]
    by_cases htop : 2 ^ n ≤ v
    · have hlog : v.log2 = n := (Nat.log2_eq_iff hv).mpr ⟨htop, h⟩
      rw [Nat.testBit_of_two_pow_le_and_two_pow_add_one_gt htop h, if_pos rfl, hlog]
      omega
    · have hlog : v.log2 < n := (Nat.log2_lt hv).mpr (by omega)
      rw [Nat.testBit_lt_two_pow (by omega), if_neg (by decide), ih (by omega)]
      omega

theorem clzFrom_le (v n : Nat) : clzFrom v n ≤ n := by
  induction n with
  | zero => exact Nat.le_refl 0
  | succ n ih =>
    rw [clzFrom]
    split <;> omega

/-- Leading zeros are counted from the top bit down. -/
theorem clzFrom_eq_find (v n : Nat) :
    clzFrom v n = ((List.range n).find? fun i => bitOf v (n - 1 - i)).getD n := by
  induction n with
  | zero => rfl
  | succ n ih =>
    have hshift : ((fun i => bitOf v (n + 1 - 1 - i)) ∘ Nat.succ) = fun i => bitOf v (n - 1 - i) := by
      funext i
      simp [Nat.sub_sub, Nat.add_comm 1]
    rw [clzFrom, List.range_succ_eq_map, List.find?_cons, List.find?_map, hshift, ih, Nat.add_sub_cancel, Nat.sub_zero]
    cases bitOf v n with
    | true => rfl
    | false => cases (List.range n).find? fun i => bitOf v (n - 1 - i) <;> rfl

theorem toNat_clzW_eq_clzFrom (a : Word) : (clzW a).toNat = clzFrom a.toNat 64 :=
  Nat.mod_eq_of_lt (Nat.lt_of_le_of_lt (clzFrom_le _ 64) (by decide))

theorem toNat_clzW (a : Word) : (clzW a).toNat = if a.toNat = 0 then 64 else 63 - a.toNat.log2 := by
  rw [toNat_clzW_eq_clzFrom]
  split
  next h => rw [h, clzFrom_zero]
  next h => exact clzFrom_eq_log2 h 64 a.isLt

theorem bitOf_brevW (a : Word) {i : Nat} (hi : i < 64) : bitOf (brevW a).toNat i = bitOf a.toNat (63 - i) := by
  rw [bitOf_eq_testBit, bitOf_eq_testBit, BitVec.testBit_toNat, BitVec.testBit_toNat, brevW, BitVec.getLsbD_reverse,
    BitVec.getMsbD, decide_eq_true hi, Bool.true_and]

theorem toNat_ctzW (a : Word) : (ctzW a).toNat = ((List.range 64).find? fun i => bitOf a.toNat i).getD 64 := by
  rw [ctzW, toNat_clzW_eq_clzFrom, clzFrom_eq_find, ← List.head?_filter, ← List.head?_filter]
  congr 2
  refine List.filter_congr fun i hi => ?_
  have hi64 : i < 64 := List.mem_range.mp hi
  rw [bitOf_brevW a (by omega), show 63 - (64 - 1 - i) = i by omega]

theorem toNat_popcW (a : Word) : (popcW a).toNat = (List.range 64).countP fun i => bitOf a.toNat i :=
  Nat.mod_eq_of_lt (Nat.lt_of_le_of_lt List.countP_le_length (by decide))

/-- The number whose bit `i` is `f i`, for `i < n`. -/
def bitSum (f : Nat → Bool) (n : Nat) : Nat := (List.range n).foldl (fun v i => v + b01 (f i) * 2 ^ i) 0

theorem bitSum_succ (f : Nat → Bool) (n : Nat) : bitSum f (n + 1) = 2 ^ n * b01 (f n) + bitSum f n := by
  rw [bitSum, List.range_succ, List.foldl_append, ← bitSum, Nat.mul_comm, Nat.add_comm]
  rfl

theorem bitSum_lt (f : Nat → Bool) (n : Nat) : bitSum f n < 2 ^ n := by
  induction n with
  | zero => exact Nat.one_pos
  | succ n ih =>
    rw [bitSum_succ, Nat.pow_succ]
    cases hf : f n with
    | true => rw [b01, if_pos rfl]; omega
    | false => rw [b01, if_neg (by decide)]; omega

theorem testBit_bitSum (f : Nat → Bool) (n j : Nat) : (bitSum f n).testBit j = (decide (j < n) && f j) := by
  induction n with
  | zero => simp [bitSum]
  | succ n ih =>
    rw [bitSum_succ, Nat.testBit_two_pow_mul_add _ (bitSum_lt f n), ih]
    rcases Nat.lt_trichotomy j n with hlt | rfl | hgt
    · simp [hlt, Nat.lt_succ_of_lt hlt]
    · cases f j <;> simp [b01]
    · have hb : b01 (f n) < 2 ^ (j - n) :=
        Nat.lt_of_lt_of_le (by cases f n <;> decide) (Nat.pow_le_pow_right (by decide) (show 1 ≤ j - n by omega))
      simp [show ¬ j < n by omega, show ¬ j < n + 1 by omega, Nat.testBit_lt_two_pow hb]

theorem toNat_brevW (a : Word) : (brevW a).toNat =
    (List.range 64).foldl (fun v i => v + b01 (bitOf a.toNat (63 - i)) * 2 ^ i) 0 := by
  change _ = bitSum (fun i => bitOf a.toNat (63 - i)) 64
  refine Nat.eq_of_testBit_eq fun j => ?_
  rw [testBit_bitSum, ← bitOf_eq_testBit]
  by_cases hj : j < 64
  · rw [bitOf_brevW a hj, decide_eq_true hj, Bool.true_and]
  · rw [decide_eq_false hj, Bool.false_and, bitOf_eq_testBit]
    exact Nat.testBit_lt_two_pow (Nat.lt_of_lt_of_le (brevW a).isLt (Nat.pow_le_pow_right (by decide) (by omega)))

/-! ### Extensions and immediates -/

theorem toNat_zextW (w : Nat) (a : Word) : (zextW w a).toNat = a.toNat % 2 ^ w :=
  toNat_ofNat_of_le a (Nat.mod_le _ _)

theorem toNat_add_imm12 (a : Word) (i : BitVec 12) : (a + imm12 i).toNat = intMod 64 (a.toInt + i.toInt) := by
  rw [← toNat_ofInt_word, BitVec.ofInt_add, BitVec.ofInt_toInt]
  rfl

theorem toNat_mul_imm12 (a : Word) (i : BitVec 12) : (a * imm12 i).toNat = intMod 64 (a.toInt * i.toInt) := by
  rw [← toNat_ofInt_word, BitVec.ofInt_mul, BitVec.ofInt_toInt]
  rfl

theorem toNat_and_imm12 (a : Word) (i : BitVec 12) :
    (a &&& imm12 i).toNat = Nat.land a.toNat (intMod 64 i.toInt) := by
  rw [BitVec.toNat_and, imm12, toNat_signExtend]
  rfl

theorem toNat_or_imm12 (a : Word) (i : BitVec 12) :
    (a ||| imm12 i).toNat = Nat.lor a.toNat (intMod 64 i.toInt) := by
  rw [BitVec.toNat_or, imm12, toNat_signExtend]
  rfl

theorem toNat_xor_imm12 (a : Word) (i : BitVec 12) :
    (a ^^^ imm12 i).toNat = Nat.xor a.toNat (intMod 64 i.toInt) := by
  rw [BitVec.toNat_xor, imm12, toNat_signExtend]
  rfl

theorem toNat_andNot (a b : Word) : (a &&& ~~~b).toNat = Nat.land a.toNat (2 ^ 64 - 1 - b.toNat) := by
  rw [BitVec.toNat_and, BitVec.toNat_not]
  rfl

/-- The halfword of LIM (R165) stays below bit 64. -/
theorem toNat_lim (h : BitVec 2) (i : BitVec 16) :
    (i.setWidth 64 <<< (16 * h.toNat) : Word).toNat = i.toNat * 2 ^ (16 * h.toNat) := by
  rw [toNat_shiftLeft, BitVec.toNat_setWidth_of_le (by decide)]
  refine Nat.mod_eq_of_lt (Nat.lt_of_lt_of_le (Nat.mul_lt_mul_of_pos_right i.isLt (Nat.two_pow_pos _)) ?_)
  rw [← Nat.pow_add]
  exact Nat.pow_le_pow_right (by decide) (by omega)

theorem getLsbD_halfword (n : Nat) : (0xFFFF : Word).getLsbD n = decide (n < 16) := by
  rw [← BitVec.testBit_toNat]
  exact Nat.testBit_two_pow_sub_one 16 n

theorem toNat_lik (a : Word) (h : BitVec 2) (i : BitVec 16) :
    ((a &&& ~~~((0xFFFF : Word) <<< (16 * h.toNat))) ||| (i.setWidth 64 <<< (16 * h.toNat))).toNat =
      setBits a.toNat (16 * h.toNat) 16 i.toNat := by
  refine Nat.eq_of_testBit_eq fun j => ?_
  rw [testBit_setBits]
  simp only [BitVec.testBit_toNat, BitVec.getLsbD_or, BitVec.getLsbD_and, BitVec.getLsbD_not, BitVec.getLsbD_shiftLeft,
    BitVec.getLsbD_setWidth, getLsbD_halfword]
  by_cases hlow : j < 16 * h.toNat
  · rw [if_neg (by omega), decide_eq_true hlow]
    simpa using BitVec.lt_of_getLsbD
  · by_cases hmid : j < 16 * h.toNat + 16
    · rw [if_pos (by omega), decide_eq_false hlow, decide_eq_true (show j - 16 * h.toNat < 16 by omega),
        decide_eq_true (show j < 64 by omega), decide_eq_true (show j - 16 * h.toNat < 64 by omega)]
      simp
    · rw [if_neg (by omega), decide_eq_false hlow, decide_eq_false (show ¬ j - 16 * h.toNat < 16 by omega),
        BitVec.getLsbD_of_ge i _ (by omega)]
      simpa using BitVec.lt_of_getLsbD

/-! ### The sign bit of a binary64 value -/

theorem toNat_clearSign (a : Word) : (a &&& 0x7FFFFFFFFFFFFFFF).toNat = a.toNat % 2 ^ 63 :=
  Nat.and_two_pow_sub_one_eq_mod a.toNat 63

theorem toNat_flipSign (a : Word) : (a ^^^ 0x8000000000000000).toNat = (a.toNat + 2 ^ 63) % 2 ^ 64 := by
  have hsign : (0x8000000000000000 : Word).toNat = 2 ^ 63 := rfl
  refine Nat.eq_of_testBit_eq fun j => ?_
  rw [BitVec.toNat_xor, hsign, Nat.testBit_xor, Nat.testBit_two_pow, Nat.testBit_mod_two_pow, Nat.add_comm]
  rcases Nat.lt_trichotomy j 63 with hlt | rfl | hgt
  · rw [Nat.testBit_two_pow_add_gt hlt, decide_eq_false (by omega), decide_eq_true (by omega), Bool.xor_false,
      Bool.true_and]
  · rw [Nat.testBit_two_pow_add_eq]
    simp
  · rw [BitVec.testBit_toNat, BitVec.getLsbD_of_ge a j (by omega), decide_eq_false (by omega), decide_eq_false (by omega)]
    rfl

/-! ### Conditions -/

theorem intCond_iff {c : Nat} (hc : c < 10) (a b : Word) :
    intCond c a b = true ↔ condTruth c a.toNat b.toNat a.toInt b.toInt := by
  match c, hc with
  | 0, _ | 1, _ | 2, _ | 3, _ | 4, _ | 5, _ | 6, _ | 7, _ | 8, _ | 9, _ =>
    simp [intCond, condTruth, BitVec.slt_iff_toInt_lt, BitVec.sle_iff_toInt_le, BitVec.ult_iff_lt, BitVec.ule_iff_le,
      BitVec.lt_def, BitVec.le_def, BitVec.toNat_inj]

theorem condRes_int {c : Nat} (hc : c < 10) (a b : Word) : condRes c a b = (intCond c a b, 0) := if_pos hc

/-- An instruction that raises no flag leaves the flags of its bundle as they were (R51). -/
theorem withFlags_zero (s : State) (body : State → State) : withFlags s 0 body = body s := by
  rw [withFlags_quiet (by simp [floatTrap]), noteFlags_zero]

/-- CMPI has no binary64 conditions (R128): with one of their codes its gate is closed. -/
theorem cmpi_cond_lt {s : State} {d : BitVec 3} {c : BitVec 4} {a : BitVec 5} {e : Bool} {i : BitVec 10} {p : BitVec 3}
    (hr : Ready s (.cmpi d c a e i p)) : c.toNat < 10 := by
  obtain ⟨hwf, -⟩ := decodeCause_eq_none_iff.mp (ready_decodeCause hr)
  exact Nat.lt_succ_of_le (of_decide_eq_true hwf)

/-! ### Behind the gate -/

theorem slotOp_toX {s : State} {i : Instr} {lat v : Nat} {d : BitVec 5} {f : State → Word} (hr : Ready s i)
    (hv : (f s).toNat = v) :
    (.next (slotOp s i fun s => toX s lat d (f s)) : Out) = .next (sendReg s lat (xReg d.toNat) v) := by
  rw [slotOp_ready hr, toX, hv]

theorem slotOp_toXD {s : State} {i : Instr} {v : Nat} {d : BitVec 5} {f : State → Word} (hr : Ready s i)
    (hv : (f s).toNat = v) :
    (.next (slotOp s i fun s => toXD s d (f s)) : Out) = .next (sendLong s [(xReg d.toNat, v)] 0 .plain) := by
  rw [slotOp_ready hr, toXD, hv]

theorem slotOp_toQ {s : State} {i : Instr} {d : BitVec 3} {f : State → Bool} {P : Prop} (hr : Ready s i)
    (hP : f s = true ↔ P) : ∃ v : Bool, (v = true ↔ P) ∧
      (.next (slotOp s i fun s => toQ s 1 d (f s)) : Out) = .next (sendReg s 1 (qReg d.toNat) (b01 v)) :=
  ⟨f s, hP, by rw [slotOp_ready hr, toQ]⟩

theorem exec_intResult {s : State} {i : Instr} {lat v : Nat} {d : BitVec 5}
    (h : intResult s i = some (lat, d, v)) (hr : Ready s i) : exec i s = .next (sendReg s lat (xReg d.toNat) v) := by
  cases i with
  | add => cases h; exact slotOp_toX hr (BitVec.toNat_add _ _)
  | sub => cases h; exact slotOp_toX hr (toNat_sub_word _ _)
  | and => cases h; exact slotOp_toX hr (BitVec.toNat_and _ _)
  | or => cases h; exact slotOp_toX hr (BitVec.toNat_or _ _)
  | xor => cases h; exact slotOp_toX hr (BitVec.toNat_xor _ _)
  | andn => cases h; exact slotOp_toX hr (toNat_andNot _ _)
  | sll => cases h; exact slotOp_toX hr (toNat_shiftLeft _ _)
  | srl => cases h; exact slotOp_toX hr (toNat_ushiftRight _ _)
  | sra => cases h; exact slotOp_toX hr (toNat_sshiftRight _ _)
  | rol => cases h; exact slotOp_toX hr (toNat_rolW _ _)
  | min => cases h; exact slotOp_toX hr (toNat_minS _ _)
  | max => cases h; exact slotOp_toX hr (toNat_maxS _ _)
  | minu => cases h; exact slotOp_toX hr (toNat_minU _ _)
  | maxu => cases h; exact slotOp_toX hr (toNat_maxU _ _)
  | mul => cases h; exact slotOp_toX hr (BitVec.toNat_mul _ _)
  | mulh => cases h; exact slotOp_toX hr (toNat_ofInt_word _)
  | mulhu => cases h; exact slotOp_toX hr (toNat_mulhU _ _)
  | clz => cases h; exact slotOp_toX hr (toNat_clzW _)
  | ctz => cases h; exact slotOp_toX hr (toNat_ctzW _)
  | popc => cases h; exact slotOp_toX hr (toNat_popcW _)
  | brev => cases h; exact slotOp_toX hr (toNat_brevW _)
  | extb => cases h; exact slotOp_toX hr (toNat_ofInt_word _)
  | exth => cases h; exact slotOp_toX hr (toNat_ofInt_word _)
  | extw => cases h; exact slotOp_toX hr (toNat_ofInt_word _)
  | exbu => cases h; exact slotOp_toX hr (toNat_zextW 8 _)
  | exhu => cases h; exact slotOp_toX hr (toNat_zextW 16 _)
  | exwu => cases h; exact slotOp_toX hr (toNat_zextW 32 _)
  | addi => cases h; exact slotOp_toX hr (toNat_add_imm12 _ _)
  | andi => cases h; exact slotOp_toX hr (toNat_and_imm12 _ _)
  | ori => cases h; exact slotOp_toX hr (toNat_or_imm12 _ _)
  | xori => cases h; exact slotOp_toX hr (toNat_xor_imm12 _ _)
  | slli => cases h; exact slotOp_toX hr (toNat_shiftLeft _ _)
  | srli => cases h; exact slotOp_toX hr (toNat_ushiftRight _ _)
  | srai => cases h; exact slotOp_toX hr (toNat_sshiftRight _ _)
  | muli => cases h; exact slotOp_toX hr (toNat_mul_imm12 _ _)
  | lim => cases h; exact slotOp_toX hr (toNat_lim _ _)
  | lik => cases h; exact slotOp_toX hr (toNat_lik _ _ _)
  | sel => cases h; exact slotOp_toX hr (apply_ite BitVec.toNat _ _ _)
  | dabs => cases h; exact slotOp_toX hr (toNat_clearSign _)
  | dneg => cases h; exact slotOp_toX hr (toNat_flipSign _)
  | _ => cases h

theorem exec_divResult {s : State} {i : Instr} {d : BitVec 5} {v : Nat}
    (h : divResult s i = some (d, v)) (hr : Ready s i) :
    exec i s = .next (sendLong s [(xReg d.toNat, v)] 0 .plain) := by
  cases i with
  | div => cases h; exact slotOp_toXD hr (toNat_divS _ _)
  | divu => cases h; exact slotOp_toXD hr (toNat_divU _ _)
  | rem => cases h; exact slotOp_toXD hr (toNat_remS _ _)
  | remu => cases h; exact slotOp_toXD hr (toNat_remU _ _)
  | _ => cases h

theorem exec_truthResult {s : State} {i : Instr} {d : BitVec 3} {P : Prop}
    (h : truthResult s i = some (d, P)) (hr : Ready s i) :
    ∃ v : Bool, (v = true ↔ P) ∧ exec i s = .next (sendReg s 1 (qReg d.toNat) (b01 v)) := by
  cases i with
  | cmp d' c a e b f p =>
    rw [truthResult] at h
    split at h
    · next hc =>
      cases h
      refine ⟨intCond c.toNat (rx s a) (rx s b), intCond_iff hc _ _, ?_⟩
      simp only [exec_cmp, execCmp, slotOp_ready hr, condRes_int hc, withFlags_zero, toQ]
    · cases h
  | cmpi d' c a e i p =>
    cases h
    refine slotOp_toQ hr ((intCond_iff (cmpi_cond_lt hr) _ _).trans ?_)
    rw [toNat_signExtend, BitVec.toInt_signExtend_of_le (by decide)]
    rfl
  | pand => cases h; exact slotOp_toQ hr Bool.and_eq_true_iff
  | por => cases h; exact slotOp_toQ hr Bool.or_eq_true_iff
  | pxor => cases h; exact slotOp_toQ hr bne_iff_ne
  | pnot => cases h; exact slotOp_toQ hr (.of_eq (Bool.not_eq_true' _))
  | _ => cases h

/-- Settles O1: each clause is the table of results it names, read along the instructions. -/
theorem integerResults : Obligations.IntegerResults := by
  unfold Obligations.IntegerResults
  exact ⟨fun _ _ _ _ _ => exec_intResult, fun _ _ _ _ => exec_divResult, fun _ _ _ _ => exec_truthResult⟩

end Sys2Proof.Machine
end
